-- ==== Sys2Proof/Word.lean ====
section
/-! DEFINITION. The word types of the Lysarah W2 and the two containers of plain data that State is built from:
sparse maps and sparse bytes. Spec 00 R10: multi-byte values are little-endian. -/

namespace Sys2Proof

/-- A byte. -/
abbrev Byte := BitVec 8

/-- A 32-bit register. -/
abbrev W32 := BitVec 32

/-- A 64-bit word: a flit of the mesh (07 R246), a word of the host link (12 R407). -/
abbrev W64 := BitVec 64

/-- An entry of a queue of kind VEC, a vector register: 64 bytes (04 R125, R133). -/
abbrev W512 := BitVec 512

/-- Sparse data by key: keys strictly rising; a reader names what an unlisted key reads as. -/
abbrev Map (α : Type) := List (Nat × α)

/-- Sparse bytes by address: addresses strictly rising, no zero byte listed (an unlisted address reads as zero). -/
abbrev Bytes := List (Nat × BitVec 8)

end Sys2Proof
end

