-- ==== Sys2Proof/Syntax.lean ====
section
/-! DEFINITION. The commands of the Lysarah W2: one constructor per row of spec/opcode_table.json, and the data
the operands are made of. Which requirement a command follows stands at its constructor. -/

namespace Sys2Proof

/-- The four sides of a switch or router (00 R2), in the order north, east, south, west of 06 R225 and 07 R260. -/
inductive Dir where
  | n | e | s | w
  deriving DecidableEq, Repr

/-- An output of a router that can be held (07 R292 HELD, HELD_LOCAL): a side, or the unit's own port. -/
inductive Port where
  | side (d : Dir)
  | unit
  /-- A router's way into the causeway at its ramp (01 R35). -/
  | ramp
  /-- A causeway router's way out at its ramp d. -/
  | rampTo (d : Dir)
  deriving DecidableEq, Repr

/-- The two nets of the mesh (07 R246). -/
inductive Net where
  | req | rpl
  deriving DecidableEq, Repr

/-- The three networks of the static fabric (06 R215). -/
inductive Fab where
  | vec | scl | ctl
  deriving DecidableEq, Repr

/-- What the checks of a DRAM access show, given from outside (10 R333, R363, R364): nothing; an error of a read that is corrected, or is
not; a command that failed parity and was retried; a translation cache entry, or a mirror entry, that the access looks up and that fails
its check; an uncorrectable error in a data slot of the access. -/
inductive Ecc where
  | clean | corrected | uncorrectable | retried | cacheBad | mirrorBad | slotBad
  deriving DecidableEq, Repr

/-- What the checks of a request show (10 R363, R364): those of its translation, with the read of a walk, and those of its data. -/
structure Checks where
  walk : Ecc
  data : Ecc
  deriving DecidableEq, Repr

/-- A mesh packet: its head and route flits (07 R249), its virtual channel (07 R248) and its payload. -/
structure Packet where
  dest    : Nat
  op      : Nat
  tag     : Nat := 0
  len     : Nat := 0
  hold    : Bool := false
  mcast   : Bool := false
  daddr   : Nat := 0
  src     : Nat
  seq     : Nat := 0
  ctx     : Nat := 0
  epoch   : Bool := false
  vc      : Nat := 2
  dtr     : Bool := false
  arg     : Nat := 0
  payload : List W64 := []
  /-- The packet ends with KILL (07 R248, R251, R280). -/
  killed  : Bool := false
  deriving DecidableEq, Repr

/-- A packet on a span link or on the span ring with its span tag (13 R443). -/
structure SpanPkt where
  dwafer : Nat
  swafer : Nat
  hops   : Nat
  reply  : Bool
  pkt    : Packet
  deriving DecidableEq, Repr

/-- What the FEC finds in the codewords that carry a frame (12 R405, R406). -/
inductive Fec where
  | clean | corrected | uncorrectable
  deriving DecidableEq, Repr

/-- A frame as it arrives on a Nimmos port (12 R407): its 16-byte header, its payload words, the CRC-32 at its end. -/
structure LinkFrame where
  port    : Nat
  header  : BitVec 128
  payload : List W64
  crc     : W32
  fec     : Fec
  deriving DecidableEq, Repr

/-- What stands behind the header of a frame (12 R407): the payload words and the CRC-32. -/
structure FrameBody where
  payload : List W64
  crc     : W32
  deriving DecidableEq, Repr

/-- The body of a frame. -/
def LinkFrame.body (fr : LinkFrame) : FrameBody := ⟨fr.payload, fr.crc⟩

/-- A frame as it arrives on a span port (13 R442): its header, and whether its CRC-32 is right. -/
structure SpanIn where
  header  : BitVec 128
  payload : List W64
  crc     : W32
  fec     : Fec
  deriving DecidableEq, Repr

/-- Who asks for an accepted host access: port 0 NA, 1 NB, 2 JTAG (12 R412, 17 R554). -/
structure Req where
  port   : Nat
  sender : Nat
  tag    : Nat
  deriving DecidableEq, Repr

/-- A temperature reading: sensor 0-15 of a field controller, 16 the base-wafer sensor under the field (14 R471). -/
structure Reading where
  field  : Nat
  sensor : Nat
  degC   : Nat
  deriving DecidableEq, Repr

/-- A throttle step that the second M-core computed otherwise (14 R468). -/
structure Decision where
  field : Nat
  step  : Nat
  deriving DecidableEq, Repr

/-- A fault of a physical slot found by the boot's self-test (15 R494): chain 0 CC, 1 MU, 2 SFU, 3 the row itself. -/
structure SiteFault where
  field : Nat
  prow  : Nat
  chain : Nat
  slot  : Nat
  deriving DecidableEq, Repr

/-- An error that SECDED finds in a unit's SRAM: the byte address, and whether it is corrected (04 R130, 05 R202). -/
structure SramError where
  addr      : Nat
  corrected : Bool
  deriving DecidableEq, Repr

/-- A head at router u; `ce`: how many of its packet's flits had a corrected error on the link by which it came (07 R248). -/
structure HeadAt where
  u  : Nat
  ce : Nat
  deriving DecidableEq, Repr

/-- A link that fails: its side, and the VCs of which it cuts a packet under way on it (07 R258, R279, R280). -/
structure LinkLoss where
  dir : Dir
  cut : BitVec 4
  deriving DecidableEq, Repr

/-- A MEC that takes a ring reply, and what the checks of an access show that it then serves itself (10 R363). -/
structure RingAt where
  mec : Nat
  ecc : Ecc
  deriving DecidableEq, Repr

/-- An endpoint that takes an RDATA; where it is a MEC, what the checks of the STORE's granules show (10 R347, R363). -/
structure DataAt where
  u   : Nat
  ecc : Ecc
  deriving DecidableEq, Repr

/-- A stream engine, and what its DRAM access finds (10 R363). -/
structure EngineRun where
  engine : Nat
  ecc    : Checks
  deriving DecidableEq, Repr

/-- What a stack's telemetry shows: its temperature in °C, its on-die error reports (10 R369). -/
structure Telemetry where
  temp : Nat
  od   : Nat
  deriving DecidableEq, Repr

/-- The commands. -/
inductive Instr where
  /-- WAFER_TICK (R45): The tick generator issues a wafer tick, which advances TICK_COUNT and drives frame starts, deadlines, step changes and activations. -/
  | waferTick
  /-- IDLE_TICK (R48): While RUN is 0 the tick generator issues an idle tick every 10 µs, serving only throttle steps, activations and epoch steps. -/
  | idleTick
  /-- CROSSING_RETIME (R31): A field crossing whose side changed frequency re-times its buffers and raises ready again in its new mode. -/
  | crossingRetime (f : Nat) (d : Dir)
  /-- EPOCH_DRAIN_DONE (R267): No VC1 to VC3 flits remain wafer-wide, so the epoch change may flip at the next tick. -/
  | epochDrainDone
  /-- EPOCH_LATE (R267): The drain has not completed 64 µs after it started, so the epoch flips anyway and EPOCH_LATE is raised. -/
  | epochLate
  /-- BATCH_LIST_WRITE (R58): The management complex writes the batch list and performs SET on the polder's batch sync object. -/
  | batchListWrite (p : Nat)
  /-- OVERRUN (R55): A field's cycle count for a frame exceeds the budget B, which raises OVERRUN with cause BUDGET and fails the frame. -/
  | overrun (p : Nat)
  /-- FRAME_END_SIGNAL (R52): A compute core, SFU or MU meets its frame-end condition and signals frame end to its field controller. -/
  | frameEndSignal (u : Nat)
  /-- FRAME_COMPLETE (R80): The last unit signals frame end with every mesh write replied, so the frame completes and contexts are updated. -/
  | frameComplete (p : Nat)
  /-- DIKEWATCH (R306): A frame has not completed by its dikewatch tick, so the polder halts and the dikewatch record is written. -/
  | dikewatch (p : Nat)
  /-- NOP (R153): A NOP issues and applies only its DQ and predicate updates. -/
  | nop (u : Nat)
  /-- FEND (R154): FEND issues once every engine is idle, ending the core's issuing for the frame. -/
  | fend (u : Nat)
  /-- BRK (R153): BRK issues and traps the core with cause BREAK. -/
  | brk (u : Nat)
  /-- PSET (R153): PSET sets the predicates selected by its mask. -/
  | pset (u : Nat)
  /-- MFSR (R153): MFSR copies a special register into a scalar register. -/
  | mfsr (u : Nat)
  /-- MTSR (R116): MTSR writes AFLAGS or SR_CTX, and a write to SR_CTX starts a seed fetch. -/
  | mtsr (u : Nat)
  /-- ADD (R153): Scalar ADD writes the sum modulo 2³². -/
  | add (u : Nat)
  /-- SUB (R153): Scalar SUB writes the difference modulo 2³². -/
  | sub (u : Nat)
  /-- MUL (R153): Scalar MUL writes the low 32 bits of the product. -/
  | mul (u : Nat)
  /-- AND (R153): Scalar bitwise AND. -/
  | and (u : Nat)
  /-- OR (R153): Scalar bitwise OR. -/
  | or (u : Nat)
  /-- XOR (R153): Scalar bitwise exclusive OR. -/
  | xor (u : Nat)
  /-- SHL (R153): Scalar shift left. -/
  | shl (u : Nat)
  /-- SHR (R153): Scalar logical shift right. -/
  | shr (u : Nat)
  /-- SAR (R153): Scalar arithmetic shift right. -/
  | sar (u : Nat)
  /-- MIN (R153): Scalar signed minimum. -/
  | min (u : Nat)
  /-- MAX (R153): Scalar signed maximum. -/
  | max (u : Nat)
  /-- MINU (R153): Scalar unsigned minimum. -/
  | minu (u : Nat)
  /-- MAXU (R153): Scalar unsigned maximum. -/
  | maxu (u : Nat)
  /-- MOVH (R153): MOVH places IMM16 in the upper half of a scalar register. -/
  | movh (u : Nat)
  /-- SCMP (R153): SCMP writes a predicate from an integer comparison. -/
  | scmp (u : Nat)
  /-- LDS (R153): LDS loads a 32-bit word from local SRAM. -/
  | lds (u : Nat)
  /-- STS (R153): STS stores a 32-bit word to local SRAM. -/
  | sts (u : Nat)
  /-- LDV (R153): LDV loads 64 B from local SRAM into a vector register. -/
  | ldv (u : Nat)
  /-- STV (R153): STV stores a vector register to 64 B of local SRAM. -/
  | stv (u : Nat)
  /-- VADD (R107): Per-lane FP32 addition. -/
  | vadd (u : Nat)
  /-- VSUB (R107): Per-lane FP32 subtraction. -/
  | vsub (u : Nat)
  /-- VMUL (R107): Per-lane FP32 multiplication. -/
  | vmul (u : Nat)
  /-- VFMA (R107): Per-lane fused multiply-add. -/
  | vfma (u : Nat)
  /-- VMIN (R107): Per-lane FP32 minimum. -/
  | vmin (u : Nat)
  /-- VMAX (R107): Per-lane FP32 maximum. -/
  | vmax (u : Nat)
  /-- VCMP (R153): VCMP writes a scalar mask of per-lane comparisons. -/
  | vcmp (u : Nat)
  /-- VSEL (R153): VSEL selects lanes from two vectors by a scalar mask. -/
  | vsel (u : Nat)
  /-- VBCST (R153): VBCST broadcasts a scalar to every lane. -/
  | vbcst (u : Nat)
  /-- VRED (R155): VRED reduces 16 lanes by sum or maximum in a fixed tree. -/
  | vred (u : Nat)
  /-- VPERM (R153): VPERM permutes lanes by indices in another vector. -/
  | vperm (u : Nat)
  /-- VCVT (R156): VCVT converts 16 values between formats with nearest-even or stochastic rounding. -/
  | vcvt (u : Nat)
  /-- VCVTMX (R156): VCVTMX converts 32 FP32 values into one MX block and its scale. -/
  | vcvtmx (u : Nat)
  /-- TMMA (R157): TMMA runs tensor multiply-accumulate steps into an accumulator bank. -/
  | tmma (u : Nat)
  /-- TZERO (R153): TZERO sets an accumulator bank to +0. -/
  | tzero (u : Nat)
  /-- TRD (R160): TRD copies a quarter of an accumulator bank into a vector register. -/
  | trd (u : Nat)
  /-- TWR (R160): TWR writes a vector register into a quarter of an accumulator bank. -/
  | twr (u : Nat)
  /-- TOUT (R160): TOUT writes a whole accumulator bank to an output queue or local SRAM. -/
  | tout (u : Nat)
  /-- QMOVIN (R161): QMOVIN streams bytes from a VEC input queue into local SRAM. -/
  | qmovin (u : Nat)
  /-- QMOVOUT (R161): QMOVOUT sends bytes from local SRAM into a VEC output queue. -/
  | qmovout (u : Nat)
  /-- MSEND (R162): MSEND injects a tagged message to a unit. -/
  | msend (u : Nat)
  /-- MPUT (R162): MPUT injects a remote write, unicast or multicast. -/
  | mput (u : Nat)
  /-- MGET (R162): MGET injects a remote read whose data lands in local SRAM. -/
  | mget (u : Nat)
  /-- SYNC (R162): SYNC injects a sync object operation to a field controller. -/
  | sync (u : Nat)
  /-- WCLAIM (R162): WCLAIM injects a work-counter claim to a memory unit. -/
  | wclaim (u : Nat)
  /-- WDONE (R162): WDONE injects a tile completion report to a memory unit. -/
  | wdone (u : Nat)
  /-- FAULT_ARITH (R121): The residue checker finds a mismatch, so the core stops, is fenced and the fault is counted. -/
  | faultArith (u : Nat)
  /-- FAULT_SRAM (R130): SECDED finds an error in the SRAM of a core or MU: a corrected one is counted, an uncorrectable one
  stops and fences the unit as a fault. -/
  | faultSram (u : Nat) (e : SramError)
  /-- LOGIC_FAULT (R513): A parity error in a unit's store, registers, queues or held configuration is detected as a unit fault. -/
  | logicFault (u : Nat)
  /-- SWITCH_FAULT (R21): A fault in a switch, router or shift network fences its row and breaks the lanes through it. -/
  | switchFault (f : Nat) (prow : Nat)
  /-- LIVENESS_PROBE (R583): A field controller sends its next liveness probe to a unit of a RUNNING polder, one every 16 cclk. -/
  | livenessProbe (f : Nat)
  /-- PROBE_TIMEOUT (R513): A unit fails to answer its liveness probe within 4,096 cclk and is taken as faulty. -/
  | probeTimeout (u : Nat)
  /-- REPAIR_DECISION (R514): Both M-cores decide the new shifts or row fence and whether the halted frame is replayed. -/
  | repairDecision (differs : Bool) (other : List Nat)
  /-- REPAIR_DONE (R514): Memory copies and configuration reloads complete, RPR_LAST is set and the halted frame is resolved. -/
  | repairDone (unclean : List Nat)
  /-- SEED_WRITE (R114): The management complex writes a new context's rounding seed into every field controller's seed table. -/
  | seedWrite (c : Nat)
  /-- SEED_ARRIVAL (R116): A fetched seed arrives at a core or SFU and its VALID bit is set. -/
  | seedArrival (u : Nat)
  /-- SFU_INPUT_ENTRY (R172): An SFU takes one input entry for its lowest ready descriptor and evaluates it. -/
  | sfuInputEntry (u : Nat)
  /-- STREAM_REPETITION (R191): An MU stream descriptor starts a repetition, taking its gate token where it has one. -/
  | streamRepetition (u : Nat) (d : Nat)
  /-- STEERING_GROUP (R231): A steering unit moves a group under the token at the head of its token queue. -/
  | steeringGroup (u : Nat) (e : Nat)
  /-- COMBINING_ADD (R235): A combining adder fires on its input FIFO heads and emits the element-wise sums. -/
  | combiningAdd (u : Nat)
  /-- RECONV_STALL (R239): A join or adder has had one side full and the other empty for 1,024 cclk, raising RECONV_STALL. -/
  | reconvStall (u : Nat) (e : Nat) (side : Nat)
  /-- MSG (R139): A tagged message arrives at a core and enters its inbox or its spill ring. -/
  | msg (u : Nat)
  /-- RING_TO_INBOX (R140): When an inbox entry frees, the oldest spill ring record moves into the inbox. -/
  | ringToInbox (u : Nat)
  /-- WRITE (R251): A WRITE request is committed at its target unit, field controller or MU port and acknowledged. -/
  | write (u : Nat)
  /-- READ (R252): A READ request is served at its target and answered with RDATA. -/
  | read (u : Nat)
  /-- RELEASE (R271): A RELEASE passes and frees the held VC3 outputs of its holder. -/
  | release (h : HeadAt)
  /-- WCLAIM_REQUEST (R206): A work-counter home takes a WCLAIM, replays or computes a tile and replies with WVAL. -/
  | wclaimRequest (u : Nat)
  /-- WDONE_REQUEST (R208): A work-counter home takes a WDONE and sets the tile's DONE bit or advances DONE_CNT. -/
  | wdoneRequest (u : Nat)
  /-- SYNC_ADD (R296): A field controller takes a SYNC ADD, saturating at the top, and tests the object's waiters. -/
  | syncAdd (f : Nat)
  /-- SYNC_SUB (R296): A field controller takes a SYNC SUB, saturating at zero, and tests the object's waiters. -/
  | syncSub (f : Nat)
  /-- SYNC_SET (R296): A field controller takes a SYNC SET and tests the object's waiters. -/
  | syncSet (f : Nat)
  /-- SYNC_WAIT_GE (R298): A field controller takes a WAIT_GE, satisfying it at once or queuing it as a waiter. -/
  | syncWaitGe (f : Nat)
  /-- SYNC_WAIT_EQ (R298): A field controller takes a WAIT_EQ, satisfying it at once or queuing it as a waiter. -/
  | syncWaitEq (f : Nat)
  /-- DBG (R550): A DBG packet reads or writes a debug space of its target. -/
  | dbg (u : Nat)
  /-- DREAD (R343): A memory edge controller checks and serves a DREAD, translating paged addresses. -/
  | dread (n : Nat) (ecc : Checks)
  /-- DWRITE (R343): A memory edge controller checks and accepts a DWRITE into its write buffer and acknowledges it. -/
  | dwrite (n : Nat) (ecc : Checks)
  /-- RING_REQUEST (R349): A serving MEC takes a paged request or walk read forwarded over the edge ring. -/
  | ringRequest (n : Nat) (ecc : Checks)
  /-- UMSG (R426): A MSG addressed to a Nimmos port or the MGC is passed to the host as a UMSG frame. -/
  | umsg (x : Nat)
  /-- ACK (R162): An ACK reply completes an outstanding request at its source. -/
  | ack (u : Nat)
  /-- RDATA (R252): An RDATA reply lands its data at the source and completes the read or cache fill. -/
  | rdata (d : DataAt)
  /-- WVAL (R162): A WVAL reply writes the claimed tile into the WCLAIM's destination register. -/
  | wval (u : Nat)
  /-- WSAT (R298): A WSAT reply completes a satisfied WAIT at its source. -/
  | wsat (u : Nat)
  /-- NACK (R282): A NACK reply completes, resends or fails a request at its source. -/
  | nack (u : Nat)
  /-- MC_ACK (R278): A multicast row's MC_ACK is collected by the source. -/
  | mcAck (u : Nat)
  /-- MC_NACK (R278): A multicast row's MC_NACK is collected, and failed targets are resent unicast. -/
  | mcNack (u : Nat)
  /-- MC_DROP (R277): A replica not taken within 2,048 cclk is dropped and MC_NACKs are sent for its rows. -/
  | mcDrop (u : Nat)
  /-- HOLD_IDLE (R271): A held VC3 output carries no flit for 4,096 cclk and is released. -/
  | holdIdle (u : Nat) (d : Port)
  /-- REPLY_TIMER (R282): A request's reply timer expires and the request is resent or completes with TIMEOUT. -/
  | replyTimer (u : Nat) (q : Nat)
  /-- RESEND_DELAY (R282): The 4,096 cclk wait after a TARGET_RESET ends and the request is resent. -/
  | resendDelay (u : Nat) (q : Nat)
  /-- MESH_LINK_DOWN (R280): A mesh link goes down, packets are killed and resent on the detour. -/
  | meshLinkDown (net : Net) (u : Nat) (l : LinkLoss)
  /-- SEND_BLK (R290): An MSEND has waited 1,024 cclk at its injection port and SEND_BLK is set. -/
  | sendBlk (u : Nat)
  /-- RECV_BLK (R290): A MSG to a full core has waited 1,024 cclk at its router and RECV_BLK is set. -/
  | recvBlk (u : Nat)
  /-- SE_ITERATION (R357): A stream engine iteration starts once its gate is satisfied and moves its rows. -/
  | seIteration (r : EngineRun)
  /-- SE_ITERATION_DONE (R357): Every write of a stream engine iteration has completed and the engine signals DONE. -/
  | seIterationDone (e : Nat)
  /-- STAGING_DONE (R199): Staging from a configuration slot completes in every field of the polder. -/
  | stagingDone (p : Nat)
  /-- REFRESH (R365): A MEC issues refresh to its stack at the interval the standard sets. -/
  | refresh (n : Nat)
  /-- CALIBRATION_DUE (R367): A calibration pass falls due by time or temperature and its steps run in maintenance windows. -/
  | calibrationDue (n : Nat)
  /-- CAL_LATE (R367): A calibration step not run 100 ms after its pass fell due runs at once and CAL_LATE is set. -/
  | calLate (n : Nat)
  /-- PATROL_SCRUB (R368): Patrol scrub reads and corrects the next granule of a stack. -/
  | patrolScrub (n : Nat) (ecc : Ecc)
  /-- MEC_TELEMETRY (R369): A MEC reads its stack's on-die error reports into its registers. -/
  | mecTelemetry (n : Nat) (t : Telemetry)
  /-- HOST_READ (R415): A REQ frame with OP READ is carried into the wafer and answered with a CPL frame. -/
  | hostRead (fr : LinkFrame)
  /-- HOST_WRITE (R415): A REQ frame with OP WRITE is carried into the wafer and answered with a CPL frame. -/
  | hostWrite (fr : LinkFrame)
  /-- ACK_FRAME (R409): An ACK frame acknowledges sequenced frames, may request a replay by NAK, and carries ECREDIT. -/
  | ackFrame (port : Nat) (header : BitVec 128) (body : FrameBody) (fec : Fec)
  /-- REPLAY_TIMEOUT (R410): 8 µs pass with no advance of ACKSEQ and the sender replays unacknowledged frames. -/
  | replayTimeout (port : Nat)
  /-- EVT (R424): Logged events are delivered on the event port in EVT frames as credit allows. -/
  | evt
  /-- FAILOVER (R421): A FAILOVER frame from the peer moves the failed port's traffic to the surviving port. -/
  | failover (port : Nat) (header : BitVec 128) (body : FrameBody) (fec : Fec)
  /-- FAILOVER_REPEAT (R421): A side repeats its FAILOVER frame every 20 µs until the peer's arrives. -/
  | failoverRepeat (port : Nat)
  /-- LINK_DOWN (R406): A Nimmos link goes DOWN on loss of lock, replay exhaustion or retrain, starting failover where the other port is UP. -/
  | linkDown (port : Nat)
  /-- LINK_UP (R406): A Nimmos link's lanes lock and align and the link goes UP. -/
  | linkUp (port : Nat)
  /-- TRAIN_RETRY (R406): Training has not locked all lanes at 50 ms and restarts every 100 ms. -/
  | trainRetry (port : Nat) (lanes : Nat)
  /-- SPAN_EGRESS (R444): A mesh packet addressed to a span port is translated by its window and relayed off the wafer. -/
  | spanEgress (p : Nat)
  /-- SPAN_DATA (R442): A span DATA frame is received and its packets are routed, relayed or delivered. -/
  | spanData (p : Nat) (header : BitVec 128) (body : FrameBody) (fec : Fec)
  /-- SPAN_ACK (R442): A span ACK frame acknowledges frames and returns buffer credit. -/
  | spanAck (p : Nat) (header : BitVec 128) (payload : List W64) (crc : W32) (fec : Fec)
  /-- REACH (R451): A REACH frame makes the wafer fall back the entries for wafers it names and pass the frame on. -/
  | reach (p : Nat) (fr : SpanIn) (hops : Nat) (wmap : W64)
  /-- SPAN_DOWN (R451): A span link goes DOWN, its entries fall back and its replay buffer is rerouted. -/
  | spanDown (p : Nat)
  /-- SPAN_UP (R452): A span link trains to UP with differing wafer IDs. -/
  | spanUp (p : Nat) (peer : Nat) (peerEn : Bool)
  /-- RELAY_TIMEOUT (R445): A relay entry's reply has not come within 2^20 base-clock periods and the entry is freed. -/
  | relayTimeout (p : Nat) (egress : Bool) (q : Nat)
  /-- POLDER_LOAD (R395): The command verifies, checks and writes a bitstream and activates it in a VACANT polder. -/
  | polderLoad (q : Nat)
  /-- POLDER_START (R71): A LOADED polder becomes RUNNING, with its first frame at the next wafer tick. -/
  | polderStart (q : Nat)
  /-- POLDER_HALT (R71): A RUNNING polder becomes HALTED once the current frame completes. -/
  | polderHalt (q : Nat)
  /-- POLDER_RESUME (R71): A HALTED polder becomes RUNNING, replaying a pending frame or starting the next. -/
  | polderResume (q : Nat)
  /-- POLDER_RESET (R71): A polder is reset and reloaded from its active configuration. -/
  | polderReset (q : Nat)
  /-- POLDER_RELEASE (R71): A polder with only FREE or SEALED contexts becomes VACANT. -/
  | polderRelease (q : Nat)
  /-- POLDER_STAGE (R395): A bitstream is verified and written into a configuration slot of the polder's MUs. -/
  | polderStage (q : Nat)
  /-- POLDER_SWAP (R398): A slot is staged and activated at the polder's activation tick. -/
  | polderSwap (q : Nat)
  /-- ROUTE_LOAD (R402): Route tables are verified, checked and installed through a route epoch change. -/
  | routeLoad (q : Nat)
  /-- CTX_OPEN (R79): A FREE context becomes OPEN with its settings, and its digest and page-table mirror are started. -/
  | ctxOpen (q : Nat)
  /-- CTX_SUBMIT (R79): An OPEN context becomes READY with frames to run. -/
  | ctxSubmit (q : Nat)
  /-- CTX_PARK (R79): A context is parked, or PARK_PEND is set while it runs. -/
  | ctxPark (q : Nat)
  /-- CTX_UNPARK (R79): A PARKED context returns to READY or OPEN. -/
  | ctxUnpark (q : Nat)
  /-- CTX_PRIO (R79): A context's priority is set. -/
  | ctxPrio (q : Nat)
  /-- CTX_CLOSE (R79): A context becomes CLOSING and its record is sealed. -/
  | ctxClose (q : Nat)
  /-- CTX_RECORD (R543): The treatment record of a SEALED context is copied into a DRAM buffer. -/
  | ctxRecord (q : Nat)
  /-- CTX_FREE (R79): A SEALED context is zeroed and becomes FREE. -/
  | ctxFree (q : Nat)
  /-- TREATMENT_ENTRY (R541): Shallot applies a queued event's entries to the digests of the contexts it reaches. -/
  | treatmentEntry
  /-- SEAL (R542): Shallot applies the CLOSE entry and signs the record, and the context becomes SEALED. -/
  | sealRecord (c : Nat)
  /-- PWR_DOMAIN (R459): A power domain is switched on or off. -/
  | pwrDomain (q : Nat) (differs : Bool)
  /-- PWR_CEIL (R485): A field's throttle ceiling is set, stepping or evacuating the field. -/
  | pwrCeil (q : Nat)
  /-- PWR_HINT (R485): A polder's hint for a field is set for a run of frames. -/
  | pwrHint (q : Nat)
  /-- PWR_TRUST (R485): A domain's SUSPECT flag is cleared and its counts restarted. -/
  | pwrTrust (q : Nat)
  /-- BRN_READ (R485): A section of the newest committed brownout save is copied into DRAM. -/
  | brnRead (q : Nat)
  /-- BRN_CLEAR (R485): Both save slots are erased. -/
  | brnClear (q : Nat)
  /-- RST_UNIT (R508): A unit returns to its state at activation of its active configuration. -/
  | rstUnit (q : Nat)
  /-- RST_CLUSTER (R508): Every non-fenced unit of a cluster is reset. -/
  | rstCluster (q : Nat)
  /-- RST_FIELD (R509): A field is taken down, reset and restored. -/
  | rstField (q : Nat)
  /-- FIELD_RESET_DISCARD (R509): 10 µs into a field reset, the field's routers discard the packets they still hold. -/
  | fieldResetDiscard (f : Nat)
  /-- RST_WAFER (R510): A wafer reset halts polders, seals contexts, powers off domains and reboots from step 3. -/
  | rstWafer (q : Nat)
  /-- RPR_IMAGE (R518): A polder's image map is registered or removed. -/
  | rprImage (q : Nat)
  /-- RPR_RESTORE (R522): Image map records for units in the named fields are written into unit memory. -/
  | rprRestore (q : Nat)
  /-- RPR_FENCE (R514): A unit is fenced as a fault of cause HOST and repaired. -/
  | rprFence (q : Nat)
  /-- RPR_CLEAR (R507): A non-factory fault bit is tested and cleared if the test passes. -/
  | rprClear (q : Nat) (pass : Bool)
  /-- RPR_MAP_READ (R523): The working fault map is copied into DRAM. -/
  | rprMapRead (q : Nat)
  /-- CAL_WRITE (R503): A user calibration table is checked and written to flash. -/
  | calWrite (q : Nat)
  /-- CAL_READ (R523): The factory block or user table is copied into DRAM. -/
  | calRead (q : Nat)
  /-- SEC_CERT_READ (R547): The device certificate is copied into DRAM. -/
  | secCertRead (q : Nat)
  /-- SEC_ENROL (R532): An enrolment request enrols or revokes an owner key slot. -/
  | secEnrol (q : Nat)
  /-- SEC_FW_UPDATE (R534): A Marrow image is verified and written over the flash copy that is not running. -/
  | secFwUpdate (q : Nat)
  /-- SEC_FW_COMMIT (R535): SVN_MIN is raised to the running image's SVN. -/
  | secFwCommit (q : Nat)
  /-- SEC_MEASURE (R536): Shallot computes a polder's weight digest and enters WEIGHTS entries. -/
  | secMeasure (q : Nat)
  /-- SEC_JOURNAL (R545): The journal ring is set, emptied or disabled. -/
  | secJournal (q : Nat)
  /-- SEC_KEY_READ (R547): The owner key slots are copied into DRAM. -/
  | secKeyRead (q : Nat)
  /-- SPAN_TABLE (R455): The span route table is installed and every fallback cleared. -/
  | spanTable (q : Nat)
  /-- SPAN_SLUICE (R455): Sluice mode is set or cleared. -/
  | spanSluice (q : Nat)
  /-- DBG_SNAPSHOT (R563): One space of every unit of a type in a polder is copied into DRAM. -/
  | dbgSnapshot (q : Nat)
  /-- SQ_TAIL (R427): A write of SQ_TAIL rings a command queue's doorbell. -/
  | sqTail (h : Req) (q : Nat) (v : W32)
  /-- CQ_HEAD (R427): A write of CQ_HEAD releases completion entries. -/
  | cqHead (h : Req) (q : Nat) (v : W32)
  /-- MBX_LOCK_READ (R434): A read of MBX_LOCK locks an unlocked mailbox to the reader or returns its owner. -/
  | mbxLockRead (h : Req) (n : Nat)
  /-- MBX_LOCK_WRITE (R434): The owner's write of its number to MBX_LOCK releases the lock. -/
  | mbxLockWrite (h : Req) (n : Nat) (v : W32)
  /-- MBX_SLOT_WRITE (R435): The owner writes message bytes into the mailbox slot. -/
  | mbxSlotWrite (h : Req) (n : Nat) (off : Nat) (data : List W64)
  /-- MBX_SEND (R435): The owner's write of MBX_SEND marks the mailbox FULL and notifies the receiver. -/
  | mbxSend (h : Req) (n : Nat) (v : W32)
  /-- MBX_EMPTY (R435): The receiving field controller empties the mailbox, clearing FULL and raising MBX_EMPTY. -/
  | mbxEmpty (n : Nat)
  /-- TICK_PERIOD_WRITE (R45): A write of TICK_PERIOD sets a new tick period from the next wafer tick. -/
  | tickPeriodWrite (h : Req) (v : W32)
  /-- TICK_RUN_SET (R48): Setting TICK_CTRL.RUN stops idle ticks and starts wafer ticks. -/
  | tickRunSet (h : Req)
  /-- TICK_RUN_CLEAR (R47): Clearing TICK_CTRL.RUN stops wafer ticks and starts idle ticks. -/
  | tickRunClear (h : Req)
  /-- MEM_CFG_WRITE (R335): A write of MEM_CFG sets the interleave granule while every polder is VACANT. -/
  | memCfgWrite (h : Req) (v : W32)
  /-- MEM_TLB_INV_CTX (R351): A write of MEM_TLB_INV drops one context's translations in every MEC. -/
  | memTlbInvCtx (h : Req) (c : Nat)
  /-- MEM_TLB_INV_ALL (R351): A write of MEM_TLB_INV with ALL drops every context's translations. -/
  | memTlbInvAll (h : Req)
  /-- NL_CTRL_EN (R406): A write of NL_CTRL.EN enables training or takes the link DOWN. -/
  | nlCtrlEn (h : Req) (port : Nat) (en : Bool)
  /-- NL_CTRL_RETRAIN (R406): A write of 1 to NL_CTRL.RETRAIN takes the link DOWN and trains again. -/
  | nlCtrlRetrain (h : Req) (port : Nat)
  /-- NL_MODE_WRITE (R420): A write of NL_MODE selects load-shared or active/standby operation. -/
  | nlModeWrite (h : Req) (v : W32)
  /-- SPAN_CFG_WRITE (R442): A write of SPAN_CFG sets the wafer ID and enables span training. -/
  | spanCfgWrite (h : Req) (v : W32)
  /-- SP_CTRL_RETRAIN (R456): A write of 1 to SP_CTRL.RETRAIN takes a span link DOWN and trains again. -/
  | spCtrlRetrain (h : Req) (p : Nat)
  /-- PWR_CAP_WRITE (R486): A write of PWR_CAP sets the power cap from the next governor tick. -/
  | pwrCapWrite (h : Req) (v : W64)
  /-- SEC_JNL_HEAD_WRITE (R548): The host advances the journal head, freeing journal space. -/
  | secJnlHeadWrite (h : Req) (v : W64)
  /-- TAGC_CFG_WRITE (R556): A write of TAGC_CFG sets a tag counter slot and clears both its counters. -/
  | tagcCfgWrite (u : Nat) (i : Nat) (v : W64)
  /-- WC_CTL_RESET (R213): A write of 1 to WC_CTL.RESET returns a work counter to its configured state. -/
  | wcCtlReset (u : Nat) (c : Nat)
  /-- WIN_BASE_WRITE (R195): A write of a bank's window base writes back and invalidates the bank before the new base applies. -/
  | winBaseWrite (u : Nat) (b : Nat) (v : W64)
  /-- DEBUG_WINDOW_ACCESS (R554): A host access to a debug window is carried as a DBG packet to the unit DBG_SEL names. -/
  | debugWindowAccess (h : Req) (wr : Bool) (off : Nat) (words : Nat) (data : List W64)
  /-- RC_READ (R12): A read of an RC field returns its value and clears or re-arms it. -/
  | rcRead (h : Req) (addr : Nat) (size : Nat)
  /-- REGISTER_WRITE (R12): A write to a register with no behaviour of its own applies under the field access codes. -/
  | registerWrite (h : Req) (addr : Nat) (size : Nat) (v : W64)
  /-- JTAG_DBG_ADDR (R562): Update-DR of DBG_ADDR with WRITE 0 starts a host-space read. -/
  | jtagDbgAddr (v : W64)
  /-- JTAG_DBG_DATA (R562): Update-DR of DBG_DATA starts a host-space write. -/
  | jtagDbgData (v : W64)
  /-- SMBUS_BLOCK_READ (R572): An SMBus Block Read returns the selected status register. -/
  | smbusBlockRead (cmd : Nat)
  /-- REQUEST_DATAGRAM (R573): A management Ethernet request datagram is answered with the selected register's value. -/
  | requestDatagram (cmd : Nat)
  /-- GOVERNOR_TICK (R469): At a governor tick the governor evaluates the critical, ceiling, thermal, hint, cap and step-up rules. -/
  | governorTick (temps : List Reading) (differs : List Decision)
  /-- REGULATOR_REPORT (R464): A regulator reports its domain's voltage and current to the management complex. -/
  | regulatorReport (d : Nat) (mv : Nat) (da : Nat)
  /-- REGULATOR_STALE (R465): A regulator sends no report for 100 µs and is marked stale. -/
  | regulatorStale (d : Nat)
  /-- REG_FAULT (R465): A regulator reports a fault and switches its domain off at once. -/
  | regFault (d : Nat)
  /-- DRAIN_DONE (R475): An evacuating field's drain completes, the field goes down and its domain switches off. -/
  | drainDone (f : Nat)
  /-- FIELD_UP (R461): A starting field completes its power-up and restore and is up at S3. -/
  | fieldUp (f : Nat)
  /-- THERMAL_RESTART (R477): A field at S4 for heat has read below T_COOL for 1 s and comes back on. -/
  | thermalRestart (f : Nat)
  /-- THERMAL_TRIP (R478): A sensor passes its trip temperature and the brownout sequence runs with cause THERM_TRIP. -/
  | thermalTrip
  /-- COOLANT_WARN (R479): Coolant inlet or flow has been out of limit for 1 s and the thermal thresholds are lowered. -/
  | coolantWarn (inlet : Nat) (outlet : Nat) (flow : Nat)
  /-- COOLANT_CLEAR (R479): Both coolant conditions have cleared for 10 s and the warning ends. -/
  | coolantClear
  /-- INPUT_LOW (R457): The bus has held below 40.0 V for 100 µs and INPUT_LOW is raised. -/
  | inputLow (mv : Nat)
  /-- BROWNOUT (R480): The bus crosses 39.0 V, polders halt at the brownout tick, domains shed and the save begins. -/
  | brownout
  /-- SAVE_COMMIT (R481): The brownout save's sections and commit block finish writing to flash. -/
  | saveCommit
  /-- INPUT_OVERVOLTAGE (R567): The bus exceeds 52.0 V for 5 µs and the input stage opens. -/
  | inputOvervoltage
  /-- AO_LOCKOUT (R482): The bus falls to the always-on undervoltage lockout and AO loses power. -/
  | aoLockout
  /-- POWER_UP (R492): The bus holds the start threshold for 100 ms and a power-up boot starts. -/
  | powerUp
  /-- RESET_INPUT (R511): RESET_N is released after at least 10 µs and a wafer reset without KEEP_SPAN runs. -/
  | resetInput
  /-- STACK_TRAINING (R495): A MEC completes training of its stack, or fails and switches the stack's domain off. -/
  | stackTraining (n : Nat) (ok : Bool)
  /-- FC_START_TIMEOUT (R496): A field controller fails to start within 20 ms of its firmware load and its field is fenced. -/
  | fcStartTimeout (f : Nat)
  /-- BOOT_DONE (R493): The boot completes, READY is set and BOOT_DONE is raised. -/
  | bootDone (faults : List SiteFault)
  /-- HEARTBEAT (R489): Each M-core writes its heartbeat and reads the other's every 100 µs. -/
  | heartbeat
  /-- MGC_CORE_LOST (R489): An M-core's heartbeat has not changed for 1 ms, so the other takes over and restarts it. -/
  | mgcCoreLost (m : Nat)
  /-- MGC_CORE_RESTART (R489): A restarted M-core writes its heartbeat within 100 ms and dual operation resumes. -/
  | mgcCoreRestart (m : Nat)
  /-- FAULT_MAP_WRITE (R505): The working fault map is written to flash after a change. -/
  | faultMapWrite (ok : Bool)
  /-- MAP_WRITE_RETRY (R505): A failed fault map flash write is retried every second. -/
  | mapWriteRetry (ok : Bool)
  /-- LANE_TRANSFER (R218): A static-fabric lane moves one transfer, or in its sync slot one slot token, from a sender into the receiving skid or slot buffer or unit queue under the valid/ready handshake. -/
  | laneTransfer (u : Nat) (fab : Fab) (k : Nat)
  /-- JOIN_MOVE (R234): An enabled join moves both FIFO heads at once, IN0's to OUT0 and IN1's to OUT1. -/
  | joinMove (u : Nat) (j : Nat)
  /-- ROUTER_HEAD (R261): A router takes a packet head and routes it by its tables: forwarding, entering a causeway, copying a multicast, or answering NO_ROUTE, DIKE_DENY or TARGET_RESET at a dike port. -/
  | routerHead (net : Net) (h : HeadAt)
  /-- TMMA_STEP (R159): A running TMMA performs its next step once its operand bytes have arrived or been read, accumulating into the bank, with the bank final 6 cclk after the last step. -/
  | tmmaStep (u : Nat)
  /-- QUEUE_MOVER_ENTRY (R161): A running QMOVIN or QMOVOUT moves its next 64-byte entry between a VEC queue and local SRAM, completing when its last entry has moved. -/
  | queueMoverEntry (u : Nat) (out : Bool)
  /-- DESCRIPTOR_ENTRY (R191): An MU stream descriptor moves its next 64-byte entry between its bank and its queue, requesting cache fills ahead as needed. -/
  | descriptorEntry (u : Nat) (d : Nat)
  /-- RING_REPLY (R340): A reply-class message on the edge ring, such as a page-table walk read's result, reaches the translating MEC, which completes the translation and forwards the request or faults it. -/
  | ringReply (r : RingAt)
  deriving DecidableEq, Repr

end Sys2Proof
end

