-- ==== Sys2Proof/Decode.lean ====
section
/-! DEFINITION. The command a word spells by the bits of spec/opcode_table.json. The table gives none of its 241 rows
any bits (a command of this block is no instruction word), so that no word spells a command. -/

namespace Sys2Proof

/-- The command a word of nbits bits spells: none, for any word. -/
def decodeTableWord (_nbits _w : Nat) : Option Instr := none

end Sys2Proof
end

