-- ==== Sys2Proof/Config.lean ====
section
/-! DEFINITION. What the spec leaves to the implementation, to the module at hand, or to a standard it names:
constants with no body, so that no proof can lean on a value of theirs. -/

namespace Sys2Proof.Config

open Sys2Proof

/-- Free values: the n-th value that the spec leaves open (log 3, DESIGN CHOICE). State counts how many have been used. -/
opaque freeValue : Nat → W64

/-- SHAKE256 with 64 bytes of output over a byte string (11 R379, 16 R538); byte 0 of the output at bits [7:0].
FIPS 202 defines it, not the spec (log 4, DESIGN CHOICE). -/
opaque shake256 : List Byte → W512

/-- Ed448 and Ed448ph verification of RFC 8032: key, context string, prehash or not, message, signature (log 4, DESIGN CHOICE). -/
opaque ed448Verify : BitVec 456 → String → Bool → List Byte → List Byte → Bool

/-- The Ed448 or Ed448ph signature of RFC 8032 (16 R529): private key, context string, prehash, message; 114 bytes (log 4, DESIGN
CHOICE). -/
opaque ed448Sign : List Byte → String → Bool → List Byte → BitVec 912

/-- The Ed448 public key of a private key, 57 bytes, by RFC 8032 (16 R529; log 4, DESIGN CHOICE). -/
opaque ed448Public : List Byte → BitVec 456

/-- Byte i of the fused 57-byte secret (16 R529). -/
opaque fuseSecret : Nat → Byte

/-- Koenong's firmware public key, part of Shallot's second stage (16 R533). -/
opaque firmwareKey : BitVec 456

/-- The device certificate of the module at hand: byte i of its 256 bytes (16 R530). -/
opaque certByte : Nat → Byte

/-- Owner key slot s as fused when the module was last off: 0 EMPTY, 1 ACTIVE, 2 REVOKED (16 R531). -/
opaque fuseSlotState : Nat → Fin 3

/-- The key fused in owner key slot s (16 R531). -/
opaque fuseSlotKey : Nat → BitVec 456

/-- The set bits of the SVN fuse field (16 R533). -/
opaque fuseSvnMin : BitVec 6

/-- The nonce fuses (16 R532). -/
opaque fuseNonce : W64

/-- The list of faults found at manufacture (15 R501): is slot `slot` of chain `chain` (0 CC, 1 MU, 2 SFU, 3 the row)
of physical row `prow` of field `field` on it. -/
opaque factoryFault : Nat → Nat → Nat → Nat → Bool

/-- Byte i of the factory calibration block (15 R491, R501), 1 MiB. -/
opaque factoryByte : Nat → Byte

/-- The factory value of a calibration item, as trimmed at manufacture, and its lower and upper factory limit (15 R501, R502): class,
index; of class 1 in mV above the set point of 14 R462. -/
opaque factoryValue : Nat → Nat → Int
opaque factoryLimits : Nat → Nat → Int × Int

/-- The faults found at manufacture beside those of rows (15 R501, R504): field, stack, port. -/
opaque factoryField : Nat → Bool
opaque factoryStack : Nat → Bool

/-- Does M-core m run Marrow at a boot (15 R499). -/
opaque mcoreGood : Nat → Bool

/-- The field-controller image of the Marrow image that stands in flash, 0 A, 1 B, in words (15 R496, 16 R533). -/
opaque fcImage : Nat → List W64

/-- The straps of the SMBus address (18 R570). -/
opaque smbStraps : BitVec 2

/-- The Marrow images as they stand in flash (16 R533): 0 A, 1 B. Is its structure and signature good. -/
opaque imageGood : Nat → Bool

/-- The SVN of Marrow image A or B in flash. -/
opaque imageSvn : Nat → BitVec 6

/-- The VERSION of Marrow image A or B in flash. -/
opaque imageVersion : Nat → W64

/-- Does the flash answer and the second stage match the fused hash, and the factory block its digest (15 R493, R499, R501). -/
opaque shallotGood : Bool

/-- Do the base-wafer PLLs lock at boot (15 R499). -/
opaque pllGood : Bool

/-- Does field F's domain and PLL come up at step 3 of a boot (15 R496). -/
opaque fieldGood : Nat → Bool

/-- Byte i of the image of cluster (number c of its polder) that Marrow writes into a configuration slot (11 R395): the
spec gives the image no byte format. -/
opaque imageByte : W512 → Nat → Nat → Byte

/-- Does an uncorrectable error show in the bank of a memory unit as a configuration store is written there, at a count of free values
(05 R202; log 36, DESIGN CHOICE). -/
opaque storeUe : Nat → Nat → Bool

/-- The bytes in which Shallot keeps its open-record state, section 2 of a brownout save (14 R481), and their number: no format
is given. -/
opaque openRecordState : List Nat → Nat → Byte
opaque openRecordLength : List Nat → Fin 524289

/-- Byte i of a record of a save's event log that holds no event (14 R481): the spec states no contents. -/
opaque blankEvent : Nat → Byte

/-- Lanes repaired in stack n, and FACTORY and the faulty lanes of port p, of the fault map (15 R504): what the module at hand
found. -/
opaque stackLanes : Nat → BitVec 8
opaque portFactory : Nat → Bool
opaque portLanes : Nat → BitVec 16

/-- Byte i of the header, section 0 of a brownout save, for a cause, a tick and a slot sequence number (14 R481): what it
holds is given, not where. -/
opaque saveHeader : Nat → Nat → Nat → Nat → Byte

/-- Byte i of the commit block, section 7 of a brownout save, for the digest of sections 0 to 6 and its signature (14 R481): where
they stand in it is not given. -/
opaque commitBlock : W512 → BitVec 912 → Nat → Byte

/-- UNIT_ID of the unit that a spare-row DBG packet reaches (17 R550): it has no logical unit ID, and the spec names none. -/
opaque spareUnitId : Nat → BitVec 20

/-- Result of an SFU function where the spec states none: function code and operand (log 3, DESIGN CHOICE). -/
opaque sfuOpen : Nat → W32 → W32

/-- Is the last bit of the 96-bit constant of SIN and COS rounded up (05 R175; log 45, DESIGN CHOICE). -/
opaque quarterUp : Bool

/-- Is the FP32 constant log2 e of TANH and SIGMOID out of range rounded up (05 R177; log 45, DESIGN CHOICE). -/
opaque log2eUp : Bool

/-- Does a fused multiply-add of infinity and zero with a quiet NaN as addend set NV: IEEE 754 leaves it to the
implementation, and 03 R107 says no more (log 17, PRESUMED). -/
opaque fmaInvalidQuiet : Bool

/-- Bus voltage and input current that the input monitor finds in its n-th sample (14 R464). -/
opaque inputVoltage : Nat → BitVec 16
opaque inputCurrent : Nat → BitVec 16

end Sys2Proof.Config
end

