-- ==== Sys2Proof/Machine/Map.lean ====
section
/-! DEFINITION. Sparse maps and sparse bytes: reading and writing one key. -/

namespace Sys2Proof.Machine

open Sys2Proof

/-- The value at key k, or d where none is listed. -/
def mget {α : Type} (d : α) : Map α → Nat → α
  | [], _ => d
  | (k', v) :: m, k => if k' = k then v else mget d m k

/-- The value at key k, if one is listed. -/
def mget? {α : Type} : Map α → Nat → Option α
  | [], _ => none
  | (k', v) :: m, k => if k' = k then some v else mget? m k

/-- Write key k, keeping the keys in rising order. -/
def mput {α : Type} : Map α → Nat → α → Map α
  | [], k, v => [(k, v)]
  | (k', v') :: m, k, v =>
    if k < k' then (k, v) :: (k', v') :: m
    else if k' = k then (k, v) :: m
    else (k', v') :: mput m k v

/-- Remove key k. -/
def merase {α : Type} (m : Map α) (k : Nat) : Map α := m.filter (fun e => e.1 != k)

/-- Apply f to the value at key k (d where none is listed). -/
def mmod {α : Type} (d : α) (m : Map α) (k : Nat) (f : α → α) : Map α := mput m k (f (mget d m k))

/-- Keys strictly rising. -/
def keysRise {α : Type} : Map α → Bool
  | [] => true
  | [_] => true
  | e :: e' :: m => decide (e.1 < e'.1) && keysRise (e' :: m)

/-- The byte at address a; an unlisted address reads as zero. -/
def rd8 : Bytes → Nat → Byte
  | [], _ => 0
  | (a', b) :: m, a => if a' = a then b else rd8 m a

/-- Write one byte; a zero byte is taken off the list. -/
def wr8 (m : Bytes) (a : Nat) (b : Byte) : Bytes := if b = 0 then merase m a else mput m a b

/-- n bytes from address a up. -/
def rdN (m : Bytes) (a : Nat) : Nat → List Byte
  | 0 => []
  | n + 1 => rd8 m a :: rdN m (a + 1) n

/-- Write a list of bytes from address a up. -/
def wrN (m : Bytes) (a : Nat) : List Byte → Bytes
  | [] => m
  | b :: bs => wrN (wr8 m a b) (a + 1) bs

/-- Clear the addresses from a to a + n - 1 (they read as zero). -/
def clearN (m : Bytes) (a n : Nat) : Bytes := m.filter (fun e => e.1 < a || e.1 ≥ a + n)

/-- The canonical form of sparse bytes: addresses strictly rising, no zero byte. -/
def Memory.wf (m : Bytes) : Bool := keysRise m && m.all (fun e => e.2 != 0)

/-- A list of bytes read as a little-endian number (00 R10). -/
def leNat : List Byte → Nat
  | [] => 0
  | b :: bs => b.toNat + 256 * leNat bs

/-- The n low bytes of a number, little-endian (00 R10). -/
def toLe : Nat → Nat → List Byte
  | 0, _ => []
  | n + 1, x => BitVec.ofNat 8 x :: toLe n (x / 256)

/-- The words of a list of bytes, 8 bytes each. -/
def bytesWords : Nat → List Byte → List W64
  | 0, _ => []
  | n + 1, bs => BitVec.ofNat 64 (leNat (bs.take 8)) :: bytesWords n (bs.drop 8)

/-- The bytes of a list of words. -/
def wordsBytes : List W64 → List Byte
  | [] => []
  | w :: ws => toLe 8 w.toNat ++ wordsBytes ws

/-- Read a little-endian number of n bytes. -/
def rdLe (m : Bytes) (a n : Nat) : Nat := leNat (rdN m a n)

/-- Write a number as n little-endian bytes. -/
def wrLe (m : Bytes) (a n x : Nat) : Bytes := wrN m a (toLe n x)

/-- Replace position i of a list; past its end nothing changes. -/
def lset {α : Type} (l : List α) (i : Nat) (a : α) : List α := l.set i a

/-- Apply f at position i of a list. -/
def lmod {α : Type} : List α → Nat → (α → α) → List α
  | [], _, _ => []
  | a :: l, 0, f => f a :: l
  | a :: l, i + 1, f => a :: lmod l i f

/-- Bits hi down to lo of a number. -/
def bitsOf (x hi lo : Nat) : Nat := (x / 2 ^ lo) % 2 ^ (hi + 1 - lo)

/-- A field of w bits at bit lo of a number, read as a signed number. -/
def sbitsOf (x hi lo : Nat) : Int :=
  let v := bitsOf x hi lo
  if v < 2 ^ (hi - lo) then (v : Int) else (v : Int) - 2 ^ (hi + 1 - lo)

/-- A Bool as a number. -/
def b2n (b : Bool) : Nat := if b then 1 else 0

end Sys2Proof.Machine
end

