-- ==== Sys2Proof/Machine/Flags.lean ====
section
/-! DEFINITION. Arithmetic (03): formats, exact values, rounding, the flags an operation sets, the vector operations,
conversions, the tensor step and the random words. A finite value is a sign, a magnitude m and an exponent e: m * 2^e.
Readings: log 14, DEDUCED; log 17, PRESUMED; log 18, DEDUCED. -/

namespace Sys2Proof.Machine

open Sys2Proof

/-! ## AFLAGS (03 R118) -/

/-- A set of arithmetic flags, in the bit order of AFLAGS. -/
abbrev Fl := BitVec 8

/-- NV. -/
def fNV : Fl := 0x01
/-- DZ. -/
def fDZ : Fl := 0x02
/-- OF. -/
def fOF : Fl := 0x04
/-- UF. -/
def fUF : Fl := 0x08
/-- NX. -/
def fNX : Fl := 0x10
/-- SAT. -/
def fSAT : Fl := 0x20
/-- IOV. -/
def fIOV : Fl := 0x40
/-- SRNS. -/
def fSRNS : Fl := 0x80

/-- A flag where a condition holds. -/
def fIf (b : Bool) (f : Fl) : Fl := if b then f else 0

/-! ## Values -/

/-- A value of a floating-point format. -/
inductive Num where
  | nan (signalling : Bool)
  | inf (neg : Bool)
  | fin (neg : Bool) (m : Nat) (e : Int)
  deriving DecidableEq, Repr

/-- How a format uses its largest exponent (03 R89). -/
inductive Top where
  | ieee
  | e4m3
  | finite
  deriving DecidableEq, Repr

/-- An element encoding (03 R89). -/
structure Fmt where
  eb : Nat
  fb : Nat
  bias : Nat
  top : Top
  deriving DecidableEq, Repr

/-- FP32. -/
def fp32 : Fmt := ⟨8, 23, 127, .ieee⟩
/-- FP16. -/
def fp16 : Fmt := ⟨5, 10, 15, .ieee⟩
/-- BF16. -/
def bf16 : Fmt := ⟨8, 7, 127, .ieee⟩
/-- E4M3. -/
def e4m3 : Fmt := ⟨4, 3, 7, .e4m3⟩
/-- E5M2. -/
def e5m2 : Fmt := ⟨5, 2, 15, .ieee⟩
/-- E3M2. -/
def e3m2 : Fmt := ⟨3, 2, 3, .finite⟩
/-- E2M3. -/
def e2m3 : Fmt := ⟨2, 3, 1, .finite⟩
/-- E2M1. -/
def e2m1 : Fmt := ⟨2, 1, 1, .finite⟩

/-- The exponent of a format's lowest place of a subnormal. -/
def minExp (f : Fmt) : Int := 1 - (f.bias : Int) - f.fb

/-- Read an encoding (03 R89, R91). -/
def decodeF (f : Fmt) (x : Nat) : Num :=
  let frac := x % 2 ^ f.fb
  let ex := (x / 2 ^ f.fb) % 2 ^ f.eb
  let neg := (x / 2 ^ (f.fb + f.eb)) % 2 == 1
  let value := if ex = 0 then Num.fin neg frac (minExp f)
    else Num.fin neg (2 ^ f.fb + frac) ((ex : Int) - f.bias - f.fb)
  if ex = 2 ^ f.eb - 1 then
    match f.top with
    | .ieee => if frac = 0 then .inf neg else .nan (frac < 2 ^ (f.fb - 1))
    | .e4m3 => if frac = 2 ^ f.fb - 1 then .nan false else value
    | .finite => value
  else value

/-- The largest finite magnitude of a format: m, e. -/
def maxFin (f : Fmt) : Nat × Int :=
  match f.top with
  | .ieee => (2 ^ (f.fb + 1) - 1, ((2 ^ f.eb - 2 : Nat) : Int) - f.bias - f.fb)
  | .e4m3 => (2 ^ (f.fb + 1) - 2, ((2 ^ f.eb - 1 : Nat) : Int) - f.bias - f.fb)
  | .finite => (2 ^ (f.fb + 1) - 1, ((2 ^ f.eb - 1 : Nat) : Int) - f.bias - f.fb)

/-- m * 2^e as a multiple of 2^q, for q at most e. -/
def scaleTo (m : Nat) (e q : Int) : Nat := m * 2 ^ (e - q).toNat

/-- Is m * 2^e greater than m' * 2^e'. -/
def magGt (m : Nat) (e : Int) (m' : Nat) (e' : Int) : Bool :=
  let q := min e e'
  decide (scaleTo m e q > scaleTo m' e' q)

/-- The exponent of the leading significant bit of m * 2^e, m not zero. -/
def leadExp (m : Nat) (e : Int) : Int := (Nat.log2 m : Int) + e

/-- A rounded magnitude: n * 2^q, whether it differs from the exact one, whether that was tiny (03 R582). -/
structure Rounded where
  n : Nat
  q : Int
  inexact : Bool
  tiny : Bool
  deriving DecidableEq, Repr

/-- Divide by 2^sh and round: to nearest even, or stochastically with r (03 R113). -/
def divRound (m sh : Nat) (r : Option Nat) : Nat :=
  match r with
  | none =>
    let n := m / 2 ^ sh
    let rem := m % 2 ^ sh
    if 2 * rem > 2 ^ sh || (2 * rem == 2 ^ sh && n % 2 == 1) then n + 1 else n
  | some r =>
    let ext := if sh ≥ 16 then m / 2 ^ (sh - 16) else m * 2 ^ (16 - sh)
    (ext + r) / 65536

/-- Round an exact magnitude to a format's precision, subnormal places included. -/
def roundMag (f : Fmt) (m : Nat) (e : Int) (r : Option Nat) : Rounded :=
  if m = 0 then ⟨0, minExp f, false, false⟩
  else
    let tiny := decide (leadExp m e < 1 - (f.bias : Int))
    let q := max (leadExp m e - f.fb) (minExp f)
    if q ≤ e then ⟨scaleTo m e q, q, false, tiny⟩
    else
      let sh := (q - e).toNat
      let n := divRound m sh r
      ⟨n, q, decide (n * 2 ^ sh ≠ m), tiny⟩

/-- Does a rounded magnitude exceed the format's largest finite value. -/
def overflows (f : Fmt) (x : Rounded) : Bool := magGt x.n x.q (maxFin f).1 (maxFin f).2

/-- The code of sign and magnitude n * 2^q, which the format holds. -/
def encodeF (f : Fmt) (neg : Bool) (n : Nat) (q : Int) : Nat :=
  b2n neg * 2 ^ (f.eb + f.fb) + ((q + f.fb + f.bias - 1).toNat * 2 ^ f.fb + n)

/-- The code of infinity in an IEEE format. -/
def infCode (f : Fmt) (neg : Bool) : Nat := b2n neg * 2 ^ (f.eb + f.fb) + (2 ^ f.eb - 1) * 2 ^ f.fb

/-- The canonical quiet NaN (03 R91). -/
def nanCode (f : Fmt) : Nat :=
  match f.top with
  | .ieee => (2 ^ f.eb - 1) * 2 ^ f.fb + 2 ^ (f.fb - 1)
  | _ => 2 ^ (f.eb + f.fb) - 1

/-- The code of the largest finite value. -/
def maxCode (f : Fmt) (neg : Bool) : Nat := encodeF f neg (maxFin f).1 (maxFin f).2

/-- Flags of rounding alone: UF (03 R582), NX. -/
def roundFlags (x : Rounded) : Fl := fIf (x.tiny && x.inexact) fUF ||| fIf x.inexact fNX

/-- Round an exact value to FP32 to nearest even, with the flags of 03 R107; overflow is inexact too (log 17, PRESUMED). -/
def toFp32 (neg : Bool) (m : Nat) (e : Int) : W32 × Fl :=
  let x := roundMag fp32 m e none
  if overflows fp32 x then (BitVec.ofNat 32 (infCode fp32 neg), fOF ||| fNX)
  else (BitVec.ofNat 32 (encodeF fp32 neg x.n x.q), roundFlags x)

/-- The canonical FP32 NaN. -/
def nan32 : W32 := 0x7FC00000

/-- FP32 infinity. -/
def inf32 (neg : Bool) : W32 := BitVec.ofNat 32 (infCode fp32 neg)

/-- Read FP32. -/
def rd32 (x : W32) : Num := decodeF fp32 x.toNat

/-- Is a value a signalling NaN. -/
def isSig (a : Num) : Bool := match a with | .nan s => s | _ => false

/-- Is a value a NaN. -/
def isNan (a : Num) : Bool := match a with | .nan _ => true | _ => false

/-- A magnitude with its sign. -/
def signed (neg : Bool) (m : Nat) : Int := if neg then -(m : Int) else m

/-- The exact sum of two finite values; a zero sum is +0 unless both are -0. -/
def addFin (na : Bool) (ma : Nat) (ea : Int) (nb : Bool) (mb : Nat) (eb : Int) : Bool × Nat × Int :=
  let q := min ea eb
  let s := signed na (scaleTo ma ea q) + signed nb (scaleTo mb eb q)
  if s = 0 then (na && nb && ma == 0 && mb == 0, 0, q) else (decide (s < 0), s.natAbs, q)

/-! ## Vector unit (03 R107) -/

/-- FP32 addition of two values. -/
def addNum (a b : Num) : W32 × Fl :=
  match a, b with
  | .nan s, y => (nan32, fIf (s || isSig y) fNV)
  | x, .nan s => (nan32, fIf (s || isSig x) fNV)
  | .inf na, .inf nb => if na = nb then (inf32 na, 0) else (nan32, fNV)
  | .inf na, .fin _ _ _ => (inf32 na, 0)
  | .fin _ _ _, .inf nb => (inf32 nb, 0)
  | .fin na ma ea, .fin nb mb eb =>
    let r := addFin na ma ea nb mb eb
    toFp32 r.1 r.2.1 r.2.2

/-- The negative of a value. -/
def negNum (a : Num) : Num := match a with | .nan s => .nan s | .inf n => .inf (!n) | .fin n m e => .fin (!n) m e

/-- VADD. -/
def fadd (a b : W32) : W32 × Fl := addNum (rd32 a) (rd32 b)

/-- VSUB. -/
def fsub (a b : W32) : W32 × Fl := addNum (rd32 a) (negNum (rd32 b))

/-- The exact product of two values; .nan true where it is invalid. -/
def mulNum (a b : Num) : Num :=
  match a, b with
  | .nan s, y => .nan (s || isSig y)
  | x, .nan s => .nan (s || isSig x)
  | .inf na, .inf nb => .inf (na != nb)
  | .inf na, .fin nb mb _ => if mb = 0 then .nan true else .inf (na != nb)
  | .fin na ma _, .inf nb => if ma = 0 then .nan true else .inf (na != nb)
  | .fin na ma ea, .fin nb mb eb => .fin (na != nb) (ma * mb) (ea + eb)

/-- Round a value to FP32; an invalid or signalling NaN sets NV. -/
def roundNum (a : Num) : W32 × Fl :=
  match a with
  | .nan s => (nan32, fIf s fNV)
  | .inf n => (inf32 n, 0)
  | .fin n m e => toFp32 n m e

/-- VMUL. -/
def fmul (a b : W32) : W32 × Fl := roundNum (mulNum (rd32 a) (rd32 b))

/-- VFMA: A * B + C, rounded once. Infinity times zero with a quiet NaN as C sets NV as Config says (log 17, PRESUMED). -/
def ffma (a b c : W32) : W32 × Fl :=
  let x := rd32 a
  let y := rd32 b
  let z := rd32 c
  let p := mulNum x y
  let invalid := isNan p && !isNan x && !isNan y
  if invalid && isNan z && !isSig z then (nan32, fIf Config.fmaInvalidQuiet fNV)
  else addNum p z

/-- Is a below b, with -0 below +0. -/
def numLt (a b : Num) : Bool :=
  match a, b with
  | .inf na, .inf nb => na && !nb
  | .inf na, .fin _ _ _ => na
  | .fin _ _ _, .inf nb => !nb
  | .fin na ma ea, .fin nb mb eb =>
    if ma = 0 && mb = 0 then na && !nb
    else
      let q := min ea eb
      decide (signed na (scaleTo ma ea q) < signed nb (scaleTo mb eb q))
  | _, _ => false

/-- VMIN (03 R107). -/
def fmin (a b : W32) : W32 × Fl :=
  let x := rd32 a
  let y := rd32 b
  if isNan x || isNan y then (nan32, fIf (isSig x || isSig y) fNV) else (if numLt y x then b else a, 0)

/-- VMAX (03 R107). -/
def fmax (a b : W32) : W32 × Fl :=
  let x := rd32 a
  let y := rd32 b
  if isNan x || isNan y then (nan32, fIf (isSig x || isSig y) fNV) else (if numLt x y then b else a, 0)

/-- Are two values that are no NaN equal; zeros are, whatever their sign. -/
def numEq (a b : Num) : Bool :=
  match a, b with
  | .inf na, .inf nb => na == nb
  | .fin na ma ea, .fin nb mb eb =>
    let q := min ea eb
    signed na (scaleTo ma ea q) == signed nb (scaleTo mb eb q)
  | _, _ => false

/-- VCMP (03 R107, 04 R152): FN 0 EQ, 1 NE, 2 LT, 3 LE. -/
def fcmp (fn : Nat) (a b : W32) : Bool × Fl :=
  let x := rd32 a
  let y := rd32 b
  let fl := fIf (isSig x || isSig y) fNV
  if isNan x || isNan y then (fn == 1, fl)
  else
    let eq := numEq x y
    let lt := numLt x y && !eq
    (if fn = 0 then eq else if fn = 1 then !eq else if fn = 2 then lt else lt || eq, fl)

/-! ## Conversions (03 R109 to R113) -/

/-- The element format of a format code (04 R151); none for the integers and the reserved codes. -/
def codeFmt (c : Nat) : Option Fmt :=
  if c = 0 || c = 2 then some e4m3
  else if c = 1 || c = 3 then some e5m2
  else if c = 4 then some e3m2
  else if c = 5 then some e2m3
  else if c = 6 then some e2m1
  else if c = 7 then some bf16
  else if c = 8 then some fp16
  else if c = 15 then some fp32
  else none

/-- Is a format code an MX format. -/
def isMx (c : Nat) : Bool := decide (2 ≤ c) && decide (c ≤ 6)

/-- Bits of an element of a format code (03 R88). -/
def codeBits (c : Nat) : Nat :=
  if c = 4 || c = 5 then 6 else if c = 6 then 4 else if c = 7 || c = 8 then 16 else if c = 10 || c = 15 then 32 else 8

/-- Flush an FP8 subnormal to a zero of its sign where FTZ8 is set (03 R106). -/
def flush8 (ftz8 : Bool) (c : Nat) (a : Num) : Num :=
  match a with
  | .fin n m e => if ftz8 && decide (c ≤ 3) && decide (m < 2 ^ (if c = 0 || c = 2 then 3 else 2)) then .fin n 0 e else a
  | _ => a

/-- An element of a tensor operand or a widening source (03 R89, R106). -/
def readElem (ftz8 : Bool) (c x : Nat) : Num :=
  match codeFmt c with
  | some f => flush8 ftz8 c (decodeF f x)
  | none => .fin false 0 0

/-- A signed number of w bits. -/
def toInt (w x : Nat) : Int := if x % 2 ^ w < 2 ^ (w - 1) then ((x % 2 ^ w : Nat) : Int) else ((x % 2 ^ w : Nat) : Int) - 2 ^ w

/-- Widen one element to FP32 (03 R109); s is the scale byte of an MX source. -/
def widen (ftz8 : Bool) (c x s : Nat) : W32 × Fl :=
  if c = 9 || c = 10 then
    let v := toInt (codeBits c) x
    toFp32 (decide (v < 0)) v.natAbs 0
  else
    match readElem ftz8 c x with
    | .nan sg => (nan32, fIf sg fNV)
    | a =>
      if isMx c && s = 255 then (nan32, 0)
      else
        match a with
        | .fin n m e => toFp32 n m (if isMx c then e + (s : Int) - 127 else e)
        | a => roundNum a

/-- Narrow one FP32 value (03 R109 to R111): destination code, E5SAT, random value. -/
def narrow (e5sat : Bool) (c : Nat) (r : Option Nat) (x : W32) : Nat × Fl :=
  if c = 9 then
    match rd32 x with
    | .nan _ => (0, fNV)
    | .inf n => (if n then 0x80 else 0x7F, fSAT)
    | .fin n m e =>
      let k := if 0 ≤ e then m * 2 ^ e.toNat else divRound m (-e).toNat r
      let inexact := decide (e < 0) && decide (k * 2 ^ (-e).toNat ≠ m)
      let fl := fIf inexact fNX
      if n && k > 128 then (0x80, fl ||| fSAT)
      else if !n && k > 127 then (0x7F, fl ||| fSAT)
      else ((signed n k % 256).toNat, fl)
  else
    match codeFmt c with
    | none => (0, 0)
    | some f =>
      let saturates := c == 0 || (c == 1 && e5sat)
      match rd32 x with
      | .nan s => (nanCode f, fIf s fNV)
      | .inf n => if saturates then (maxCode f n, fSAT) else (infCode f n, 0)
      | .fin n m e =>
        let y := roundMag f m e r
        if overflows f y then
          (if saturates then (maxCode f n, roundFlags y ||| fSAT) else (infCode f n, fOF ||| fNX))
        else (encodeF f n y.n y.q, roundFlags y)

/-- INT32 to INT8 (03 R109). -/
def int32to8 (x : W32) : Nat × Fl :=
  let v := x.toInt
  if v > 127 then (0x7F, fSAT) else if v < -128 then (0x80, fSAT) else ((v % 256).toNat, 0)

/-- emax of an element format (03 R112). -/
def emaxOf (c : Nat) : Int := if c = 2 then 8 else if c = 3 then 15 else if c = 4 then 4 else 2

/-- One element of an MX block: the value divided by 2^X and rounded, saturating (03 R112 step 5). -/
def mxElem (c : Nat) (xp : Int) (r : Option Nat) (a : Num) : Nat × Fl :=
  match codeFmt c, a with
  | some f, .fin n m e =>
    let y := roundMag f m (e - xp) r
    if overflows f y then (maxCode f n, roundFlags y ||| fSAT) else (encodeF f n y.n y.q, roundFlags y)
  | _, _ => (0, 0)

/-- The value of largest magnitude of a list, as a magnitude and exponent. -/
def maxMag (l : List Num) : Nat × Int :=
  l.foldl (fun b a => match a with | .fin _ m e => if magGt m e b.1 b.2 then (m, e) else b | _ => b) (0, 0)

/-- Run a function with each value and its random value, if any; flags are joined. -/
def mapRand (f : Option Nat → Num → Nat × Fl) : List Num → List Nat → List Nat × Fl
  | [], _ => ([], 0)
  | a :: l, rs =>
    let y := f rs.head? a
    let z := mapRand f l rs.tail
    (y.1 :: z.1, y.2 ||| z.2)

/-- Convert FP32 values into one MX block (03 R112): the element codes, the scale, the flags; rs holds the random
values under stochastic rounding and is empty under rounding to nearest. -/
def toMx (c : Nat) (rs : List Nat) (xs : List W32) : List Nat × Nat × Fl :=
  let ns := xs.map rd32
  if ns.any isNan then (ns.map (fun _ => 0), 255, fIf (ns.any isSig) fNV)
  else if ns.any (fun a => match a with | .inf _ => true | _ => false) then (ns.map (fun _ => 0), 255, fSAT)
  else
    let mx := maxMag ns
    if mx.1 = 0 then
      (ns.map (fun a => match a with | .fin n _ _ => b2n n * 2 ^ (codeBits c - 1) | _ => 0), 0, 0)
    else
      let xp := max (-127) (min 127 (leadExp mx.1 mx.2 - emaxOf c))
      let y := mapRand (mxElem c xp) ns rs
      (y.1, (xp + 127).toNat, y.2)

/-! ## Random words (03 R117) -/

/-- mix64. -/
def mix64 (x : W64) : W64 :=
  let x := (x ^^^ (x >>> 30)) * 0xBF58476D1CE4E5B9
  let x := (x ^^^ (x >>> 27)) * 0x94D049BB133111EB
  x ^^^ (x >>> 31)

/-- word(j) of a seed, unit and frame. -/
def randWord (seed : W64) (unit : Nat) (frameLo : W32) (j : W32) : W64 :=
  let key := mix64 (seed ^^^ BitVec.ofNat 64 (unit * 2 ^ 40))
  mix64 (key + BitVec.ofNat 64 (frameLo.toNat * 2 ^ 32) + BitVec.ofNat 64 j.toNat + 0x9E3779B97F4A7C15)

/-- The four values of a random word: bits [15:0] first. -/
def randParts (w : W64) : List Nat := (List.range 4).map (fun i => bitsOf w.toNat (16 * i + 15) (16 * i))

/-- The values of the next n random words. -/
def randValues (seed : W64) (unit : Nat) (frameLo j : W32) (n : Nat) : List Nat :=
  (List.range n).flatMap (fun i => randParts (randWord seed unit frameLo (j + BitVec.ofNat 32 i)))

/-! ## Tensor step (03 R98, R103 to R105) -/

/-- A product of the tensor datapath with its MX scales (03 R98): the exact value, whether a signalling NaN or a 0xFF
scale took part or the product is infinity times zero. -/
def tensorProduct (mx : Bool) (sa sw : Nat) (a w : Num) : Num :=
  if mx && (sa = 255 || sw = 255) then .nan true
  else
    match mulNum a w with
    | .fin n m e => .fin n m (if mx then e + (sa : Int) + (sw : Int) - 254 else e)
    | p => p

/-- Truncate a magnitude to a multiple of 2^q, as a number of 2^q. -/
def truncTo (m : Nat) (e q : Int) : Nat := if q ≤ e then scaleTo m e q else m / 2 ^ (q - e).toNat

/-- The exact sum of truncated addends, in multiples of 2^q. -/
def sumTrunc (q : Int) (l : List Num) : Int :=
  l.foldl (fun s a => match a with | .fin n m e => s + signed n (truncTo m e q) | _ => s) 0

/-- The largest leading exponent among the non-zero finite addends. -/
def topExp (l : List Num) : Option Int :=
  l.foldl (fun o a => match a with
    | .fin _ m e => if m = 0 then o else (match o with | some x => some (max x (leadExp m e)) | none => some (leadExp m e))
    | _ => o) none

/-- One accumulation of a cell (03 R103, R104): the new accumulator and the flags. -/
def accumulate (acc : W32) (products : List Num) : W32 × Fl :=
  let l := rd32 acc :: products
  if l.any isNan then (nan32, fIf (l.any isSig) fNV)
  else
    let pinf := l.any (fun a => a == .inf false)
    let ninf := l.any (fun a => a == .inf true)
    if pinf && ninf then (nan32, fNV)
    else if pinf then (inf32 false, 0)
    else if ninf then (inf32 true, 0)
    else
      match topExp l with
      | none => (if l.all (fun a => match a with | .fin n _ _ => n | _ => false) then 0x80000000 else 0, 0)
      | some x =>
        let q := x - 30
        let t := sumTrunc q l
        let y := toFp32 (decide (t < 0)) t.natAbs q
        (y.1, y.2 &&& fOF)

/-- One accumulation of INT8 products (03 R105). -/
def accumulateInt (acc : W32) (products : List Int) : W32 × Fl :=
  let t := products.foldl (· + ·) acc.toInt
  if t > 2147483647 then (0x7FFFFFFF, fIOV)
  else if t < -2147483648 then (0x80000000, fIOV)
  else (BitVec.ofInt 32 t, 0)

end Sys2Proof.Machine
end

