-- ==== Sys2Proof/Machine/State.lean ====
section
/-! DEFINITION. The state of the module as plain data: every register, queue, store and mode that spec/ gives it,
with the values of reset. A field's comment names the register or the requirement that gives it. A sparse map lists
only the objects that differ from their reset value. Readings: log 2, DESIGN CHOICE; log 13, DESIGN CHOICE. -/

namespace Sys2Proof.Machine

open Sys2Proof

/-! ## Outcomes -/

/-- Why the machine stops. -/
inductive Fault where
  /-- A command names a unit, field, port, queue or other object that the device does not have (00 R3 to R7).
  Raised by every meaning whose operand is outside the device. Safe: the device never takes such a command. -/
  | noSuchObject (n : Nat)
  deriving DecidableEq, Repr

/-- Why a command has no meaning. -/
inductive Refusal where
  /-- The command is not modelled yet. Raised by an arm of Dispatch alone. Safe. -/
  | notModelled (mnemonic : String)
  deriving DecidableEq, Repr

/-! ## Common parts -/

/-- An event counter: 48 bits and a sticky WRAP bit (00 R13). -/
structure Cnt where
  count : BitVec 48 := 0
  wrap  : Bool := false
  deriving DecidableEq, Repr

/-- A transfer of the static fabric with its FLAGS (06 R216); a scalar uses bits [31:0], a token bits [3:0]. -/
structure Xfer where
  bits  : BitVec 128
  flags : BitVec 4 := 0
  deriving DecidableEq, Repr

/-- An entry of a unit's queue (04 R133) with the flags that came with it (05 R181). -/
structure QEnt where
  bits  : W512
  flags : BitVec 4 := 0
  deriving DecidableEq, Repr

/-- A queue on the static fabric: visible entries, oldest first; bytes of the head already taken as a stream (04 R136);
transfers of an entry still arriving on each lane; transfers of the head already sent on each lane (06 R216). -/
structure Queue where
  ents  : List QEnt := []
  taken : Nat := 0
  fill0 : List Xfer := []
  fill1 : List Xfer := []
  sent0 : Nat := 0
  sent1 : Nat := 0
  deriving DecidableEq, Repr

/-! ## Configurations (11) -/

/-- The body of a CC record (11 R386). -/
structure CcCfg where
  qkind : BitVec 16 := 0
  pinit : BitVec 8 := 0
  splBase : Nat := 0
  splSize : Nat := 0
  meshCfg : W32 := 0
  sinit : List W32 := List.replicate 32 0
  slots : List W64 := []
  deriving DecidableEq, Repr

/-- An operation descriptor of an SFU (05 R171). -/
structure SfuDesc where
  func : Nat := 31
  inQ : Nat := 0
  outQ : Nat := 0
  rowop : Nat := 0
  sq : Nat := 0
  ctxq : Nat := 0
  a : W32 := 0
  b : W32 := 0
  c : W32 := 0
  rowlen : Nat := 0
  keep : Nat := 0
  frameEntries : Nat := 0
  deriving DecidableEq, Repr

/-- The body of an SFU record (11 R387). -/
structure SfuCfg where
  qkind : BitVec 16 := 0
  descs : List SfuDesc := List.replicate 8 {}
  table : List (BitVec 128) := []
  deriving DecidableEq, Repr

/-- A stream descriptor of an MU (05 R190). -/
structure MuSd where
  dir : Bool := false
  q : Nat := 0
  bank : Nat := 0
  gate : Nat := 0
  rep : Nat := 0
  addr : Nat := 0
  len : Nat := 0
  pitch : Nat := 0
  deriving DecidableEq, Repr

/-- A work-counter record (05 R204, 11 R388). -/
structure WcCfg where
  idx : Nat
  mode : Nat
  auto : Bool
  freset : Bool
  limit : Nat
  base : Nat
  deriving DecidableEq, Repr

/-- The body of an MU record (11 R388). -/
structure MuCfg where
  modes : List Nat := [0, 0, 0, 0]
  qkind : BitVec 16 := 0
  meshCfg : W32 := 0
  win : List W64 := [0, 0, 0, 0]
  sds : List MuSd := []
  wcs : List WcCfg := []
  deriving DecidableEq, Repr

/-- A unit's configuration. -/
inductive UnitCfg where
  | cc (c : CcCfg)
  | sfu (c : SfuCfg)
  | mu (c : MuCfg)
  deriving DecidableEq, Repr

/-- A rectangle of clusters (02 R64): cluster columns, rows. -/
structure Rect where
  c0 : Nat
  c1 : Nat
  r0 : Nat
  r1 : Nat
  deriving DecidableEq, Repr

/-- A stream engine descriptor (10 R354). -/
structure SeDesc where
  store : Bool := false
  paged : Bool := false
  ctxsel : Bool := false
  rowsel : Nat := 0
  gateEn : Bool := false
  doneEn : Bool := false
  ubufs : Nat := 0
  ctx : Nat := 0
  unit : Nat := 0
  dbase : Nat := 0
  rowb : Nat := 0
  rows : Nat := 0
  planes : Nat := 0
  rstride : Int := 0
  pstride : Int := 0
  bstride : Int := 0
  padl : Nat := 0
  padr : Nat := 0
  uaddr : Nat := 0
  urstride : Nat := 0
  upstride : Nat := 0
  ubstride : Nat := 0
  gateObj : Nat := 0
  doneObj : Nat := 0
  gateVal : Nat := 0
  deriving DecidableEq, Repr

/-- A stream engine record (11 R381). -/
structure SeRec where
  engine : Nat
  pfdepth : Nat
  descs : List SeDesc
  deriving DecidableEq, Repr

/-- A DRAM range granted to a polder (10 R346). -/
structure Grant where
  base : Nat
  size : Nat
  wr : Bool
  deriving DecidableEq, Repr

/-- A heavy-phase record (11 R381). -/
structure Heavy where
  field : Nat
  hint : Nat
  lead : Nat
  period : Nat
  phase : Nat
  deriving DecidableEq, Repr

/-- A sync allocation record (08 R294). -/
structure SyncAlloc where
  obj : Nat
  freset : Bool
  init : W32
  deriving DecidableEq, Repr

/-- The verified contents of a POLDER bitstream (11 R376 to R390). -/
structure PolderCfg where
  digest : W512 := 0
  buildId : W64 := 0
  length : Nat := 0
  budget : W32 := 0
  divM1 : BitVec 8 := 0
  mshare : Nat := 3
  wM1 : BitVec 4 := 0
  replayable : Bool := false
  pmode : W32 := 0
  maxBatch : Nat := 0
  batchSync : Nat := 0
  batchMu : Nat := 0
  batchOff : Nat := 0
  mcValid : W64 := 0
  admitted : BitVec 256 := 0
  rects : List Rect := []
  hint : List Nat := []
  mcast : List W64 := []
  grants : List Grant := []
  heavy : List Heavy := []
  sync : List SyncAlloc := []
  engines : List SeRec := []
  units : Map UnitCfg := []
  switches : Map (BitVec 768) := []
  deriving DecidableEq, Repr

/-! ## Mesh interface and in-flight requests (07) -/

/-- What a source remembers of a request it has outstanding (07 R253, R282). `use` says what completes it. -/
inductive Use where
  /-- An MPUT (04 R162): predicate to set, if any. -/
  | put (pd : Option Nat)
  /-- An MGET (04 R162): local landing address, predicate. -/
  | get (addr : Nat) (pd : Option Nat)
  /-- A SYNC (04 R162): is it a wait, predicate. -/
  | sync (wait : Bool) (pd : Option Nat)
  /-- A WCLAIM: destination specifier, predicate. -/
  | claim (sd : Nat) (pd : Option Nat)
  /-- A WDONE: predicate. -/
  | done (pd : Option Nat)
  /-- A multicast MPUT (07 R278): rows still unanswered, targets to resend, the lowest failing target and its code, predicate. -/
  | mput (rows : List Nat) (resend : List Nat) (sent : List Nat) (fail : Option (Nat × Nat)) (pd : Option Nat)
  /-- A unicast resend of a multicast (07 R278): the SEQ of the multicast it belongs to. -/
  | mresend (of : Nat)
  /-- A trace record of a core (17 R558). -/
  | trace
  /-- A cache fill of a memory unit: line key (10 R362). -/
  | fill (line : Nat)
  /-- A cache write-back of a memory unit (10 R362): line key, window line. -/
  | wback (line : Nat) (wline : Nat)
  /-- A part of a host access: access number, first word of the part within the access (12 R415). -/
  | host (acc : Nat) (off : Nat)
  /-- A stream engine's WRITE (10 R358): engine, iteration (65,536·descriptor + i), transactions it carries. -/
  | seWrite (e : Nat) (it : Nat) (n : Nat)
  /-- A stream engine's READ of a unit for a STORE: engine, iteration, the context where it is paged, the physical address of each
  word. -/
  | seRead (e : Nat) (it : Nat) (ctx : Option Nat) (addrs : List Nat)
  /-- A WRITE or READ of an engine whose list has been abandoned since (10 R359): engine, transactions it carries, addresses of the
  words of a STORE. -/
  | seLeft (e : Nat) (n : Nat) (addrs : List Nat)
  /-- A stream engine's READ of the batch list (10 R356): engine, first word. -/
  | seList (e : Nat) (word : Nat)
  /-- A stream engine's wait or DONE signal (10 R357): engine; is it the gate, is it the batch wait. -/
  | seSync (e : Nat) (gate : Bool) (batch : Bool)
  /-- A relayed request of an ingress port (13 R445): source wafer, the egress port's SEQ, the egress port. -/
  | relay (swafer : Nat) (eseq : Nat) (eport : Nat)
  /-- A WRITE of the batch list of a polder's frame by the management complex (02 R58): polder, frame number. -/
  | mgcList (p num : Nat)
  /-- Its SET of the batch sync object of a polder. -/
  | mgcSet (p : Nat)
  deriving DecidableEq, Repr

/-- An outstanding request (04 R162, 07 R282): its packet, for resending; resends made; the last NACK; waiting the
4,096 cclk after a TARGET_RESET. -/
structure Outst where
  pkt : Packet
  use : Use
  /-- Of a WAIT: its arrival ACK has come. -/
  acked : Bool := false
  resends : Nat := 0
  /-- Code and responder of its last NACK. -/
  lastNack : Nat := 0
  lastResp : Nat := 0
  delayed : Bool := false
  deriving DecidableEq, Repr

/-- A mesh interface: the registers of 07 R291 and the outstanding requests of a source. -/
structure MeshIf where
  cfg : W32 := 0
  flags : BitVec 6 := 0
  lnCode : BitVec 5 := 0
  lnSeq : BitVec 12 := 0
  lnResp : BitVec 20 := 0
  nacks : Cnt := {}
  orderRisk : Cnt := {}
  timeouts : Cnt := {}
  resends : Cnt := {}
  stale : Cnt := {}
  seqNext : Nat := 0
  outst : List Outst := []
  /-- Requests of host accesses that wait to leave, oldest first (12 R416, R419). -/
  unsent : List (Packet × Use) := []
  held : Option Nat := none
  sendBlk : Bool := false
  recvBlk : Bool := false
  deriving DecidableEq, Repr

/-- Where a packet stands: in its sender's injection port; in a router, with the port it came in by; in the causeway
router under a field; at an endpoint's port. -/
inductive Loc where
  | inject
  | router (u : Nat) (via : Port)
  /-- A copy of a multicast in the replica buffer of router u, for output d (07 R276). -/
  | replica (u : Nat) (d : Dir)
  /-- The copy of a multicast in the replica buffer of router u for its own unit (07 R276). -/
  | own (u : Nat)
  /-- In the causeway router under field f, by the edge, ramp or port it came in by: edges 0 to 3 and ramps 4 to 7 in the order
  N, E, S, W; 8 an endpoint's causeway port (01 R34, 07 R265). -/
  | causeway (f : Nat) (via : Nat)
  | arrived (u : Nat)
  deriving DecidableEq, Repr

/-- A packet in a net (07 R246). -/
structure Flight where
  net : Net
  loc : Loc
  pkt : Packet
  /-- At an endpoint's port: the router at whose outward link a request waits. In an injection port: the endpoint whose it is, where the packet
  carries another's SRC (13 R445). -/
  via : Option Nat := none
  deriving DecidableEq, Repr

/-- A row of a multicast whose reply is still to come (07 R277): who sent it, the row's offset, the targets that hold a
copy they have not yet answered for, the numbers of those that refused it, and the router at the branch's east end once
the branch has arrived whole. -/
structure McRow where
  src : Nat
  seq : Nat
  ctx : Nat
  off : Nat
  /-- Targets in the row. -/
  n : Nat := 0
  waiting : List Nat := []
  refused : List Nat := []
  ended : Option Nat := none
  /-- A replica that would have covered the row was dropped. -/
  dropped : Bool := false
  deriving DecidableEq, Repr

/-- The tables a ROUTE record carries for one net (11 R391). -/
structure NetTab where
  fld : List (BitVec 8) := []
  ep : List (BitVec 8) := []
  row : List (BitVec 4) := []
  det : BitVec 16 := 0
  deriving DecidableEq, Repr

/-- A ROUTE record's body: request net, reply net. -/
structure RouteBody where
  req : NetTab := {}
  rpl : NetTab := {}
  deriving DecidableEq, Repr

/-- One bank of route tables of the whole wafer (07 R260): the tables of 15 R497 for a set of down or fenced fields, over
which the records installed since stand (11 R391): per field, per row of a field (64·row + field), per router, per
causeway router. `rowMap` is each field's row map as the bank was built with (15 R497, R498). -/
structure RouteBank where
  fenced : W64 := 0
  rowMap : Map (List Nat) := []
  fields : Map RouteBody := []
  rows : Map RouteBody := []
  routers : Map RouteBody := []
  cw : Map (List (BitVec 4)) := []
  deriving DecidableEq, Repr

/-- A router's registers (07 R292), held outputs (07 R270), and whose turn it is (07 R258), by a key of the output, the VC and
the net. -/
structure Router where
  down : BitVec 8 := 0
  heldOut : List (Port × Nat) := []
  flags : BitVec 6 := 0
  detours : Cnt := {}
  mcDrops : Cnt := {}
  linkCe : BitVec 16 := 0
  turns : Map Nat := []
  deriving DecidableEq, Repr

/-! ## Compute core (04) -/

/-- A message of the inbox (04 R138) with the context of its packet. -/
structure Msg where
  tag : Nat
  src : Nat
  words : List W64
  deriving DecidableEq, Repr

/-- A TMMA in the tensor datapath (04 R157 to R159): its fields as read at issue, and the steps done. -/
structure Tmma where
  acc : Nat
  sp : Bool
  afmt : Nat
  wfmt : Nat
  asram : Bool
  aq : Nat
  abase : Nat
  ascale : Nat
  wbase : Nat
  wscale : Nat
  wmeta : Nat
  k : Nat
  done : Nat := 0
  /-- Of an A stream (04 R158): the scale bytes of the present block, the panel bytes last taken, how many such pieces. -/
  sa : List Byte := []
  abuf : List Byte := []
  pieces : Nat := 0
  deriving DecidableEq, Repr

/-- A stochastic conversion that waits for its seed (03 R116): its word, operands and scale as read at issue. -/
structure Conv where
  word : W64
  src : List W512
  scale : Nat
  deriving DecidableEq, Repr

/-- A queue mover's work (04 R161). -/
structure Mover where
  q : Nat
  addr : Nat
  left : Nat
  deriving DecidableEq, Repr

/-- A compute core. -/
structure Core where
  cfg : CcCfg := {}
  s : List W32 := List.replicate 32 0
  v : List W512 := List.replicate 8 0
  acc : List (List W32) := List.replicate 4 (List.replicate 64 0)
  poison : BitVec 4 := 0
  pred : BitVec 8 := 0
  sram : Bytes := []
  iq : List Queue := List.replicate 4 {}
  oq : List Queue := List.replicate 4 {}
  inbox : List Msg := []
  ringHead : Nat := 0
  ringTail : Nat := 0
  ringUsed : Nat := 0
  ringHwm : Nat := 0
  trapCause : BitVec 4 := 0
  trapSlot : BitVec 8 := 0
  trapAddr : BitVec 16 := 0
  sramEcc : BitVec 16 := 0
  ftz8 : Bool := false
  e5sat : Bool := false
  aflags : BitVec 8 := 0
  srCtx : Nat := 0
  srValid : Bool := false
  srSet : Bool := false
  seed : W64 := 0
  drawn : W32 := 0
  frameLo : W32 := 0
  tensor : List Tmma := []
  inMover : Option Mover := none
  outMover : Option Mover := none
  conv : Option Conv := none
  fended : Bool := false
  ended : Bool := false
  fenced : Bool := false
  /-- It has trapped in the frame (08 R308). -/
  trapped : Bool := false
  /-- The bank that the last tensor step wrote (03 R121). -/
  stepBank : Option Nat := none
  /-- FCYCLE as an abrupt halt left it (04 R167); none: it runs. -/
  cycHold : Option Nat := none
  tagc : List (BitVec 14) := List.replicate 16 0
  tagMsgs : List Cnt := List.replicate 16 {}
  tagStall : List Cnt := List.replicate 16 {}
  afCnt : List Cnt := List.replicate 8 {}
  trcCfg : BitVec 51 := 0
  trcSent : Cnt := {}
  trcDrops : Cnt := {}
  trcSeq : BitVec 16 := 0
  trcDropped : Bool := false
  deriving DecidableEq, Repr

/-! ## Special-function unit and memory unit (05) -/

/-- Progress of an SFU descriptor (05 R178 to R182): entries taken in the frame, elements of the row, the held S, the
running reduction. -/
structure SdProg where
  count : W32 := 0
  row : Nat := 0
  sval : W32 := 0
  red : W32 := 0
  redFlags : BitVec 4 := 0
  deriving DecidableEq, Repr

/-- A special-function unit. -/
structure Sfu where
  cfg : SfuCfg := {}
  siq : List Queue := List.replicate 4 {}
  soq : List Queue := List.replicate 4 {}
  prog : List SdProg := List.replicate 8 {}
  sflags : BitVec 5 := 0
  sctx : Nat := 0
  svalid : Bool := false
  sfetch : Bool := false
  seed : W64 := 0
  drawn : W32 := 0
  /-- A frame has started since the activation (05 R183). -/
  framed : Bool := false
  ended : Bool := false
  fenced : Bool := false
  deriving DecidableEq, Repr

/-- Progress of an MU stream descriptor (05 R191): repetitions left, is one running, its number, bytes of it moved. -/
structure MsProg where
  left : Nat := 0
  running : Bool := false
  rep : Nat := 0
  moved : Nat := 0
  deriving DecidableEq, Repr

/-- A line of a stream cache (05 R193): the window line it holds, dirty, its fill outstanding, its fill failed (10 R362),
recency; `fresh` marks a line whose miss has been counted and not yet been served (05 R214). -/
structure Line where
  wline : Nat
  dirty : Bool := false
  fill : Bool := false
  err : Bool := false
  fresh : Bool := false
  age : Nat := 0
  deriving DecidableEq, Repr

/-- A FIFO bank (05 R197, R198): next entry to pop, entries held, entries free for pushes; and as recorded at the frame's start. -/
structure Fifo where
  rd : Nat := 0
  held : Nat := 0
  free : Nat := 3072
  rd0 : Nat := 0
  held0 : Nat := 0
  deriving DecidableEq, Repr

/-- A work counter (05 R204, R214). -/
structure Wc where
  mode : Nat := 0
  auto : Bool := false
  freset : Bool := false
  limit : Nat := 0
  base : Nat := 0
  /-- NEXT (SIMPLE) or CURSOR (LEASE). -/
  pos : Nat := 0
  pos0 : Nat := 0
  done : List Nat := []
  done0 : List Nat := []
  issued : List Nat := []
  doneCnt : Nat := 0
  rounds : Nat := 0
  recalls : Nat := 0
  deriving DecidableEq, Repr

/-- An entry of the replay table (05 R206). -/
structure Replay where
  c : Nat
  src : Nat
  seq : Nat
  val : W32
  deriving DecidableEq, Repr

/-- A memory unit. -/
structure Mu where
  cfg : MuCfg := {}
  mem : Bytes := []
  miq : List Queue := List.replicate 4 {}
  moq : List Queue := List.replicate 4 {}
  prog : List MsProg := List.replicate 8 {}
  flags : BitVec 4 := 0
  ecc : BitVec 16 := 0
  wcReplays : Cnt := {}
  win : List W64 := [0, 0, 0, 0]
  hits : List Cnt := List.replicate 4 {}
  misses : List Cnt := List.replicate 4 {}
  /-- Lines by 1,536·bank + 8·set + way. -/
  lines : Map Line := []
  clock : Nat := 0
  fifo : List Fifo := List.replicate 4 {}
  slots : BitVec 4 := 0
  lastSlot : BitVec 2 := 0
  wc : Map Wc := []
  replay : List Replay := []
  /-- WIN_BASE writes that wait for their bank's write-back (05 R195): the packet, bank, value. -/
  winPend : List (Option Packet × Nat × W64) := []
  flush : Bool := false
  /-- A write-back has been refused since the last frame start or activation (05 R196). -/
  lost : Bool := false
  wcFull : Bool := false
  ended : Bool := false
  fenced : Bool := false
  deriving DecidableEq, Repr

/-! ## Static fabric (06) -/

/-- A steering unit (06 R229 to R233): token queue, transfers of the group moved, the input or port of the group, the
input last chosen by a merge, the transfer waiting at each port, tokens waiting at the merge's token output. -/
structure Steer where
  tokq : List (BitVec 4) := []
  moved : Nat := 0
  chosen : Option Nat := none
  last : Option Nat := none
  out0 : Option Xfer := none
  out1 : Option Xfer := none
  deriving DecidableEq, Repr

/-- A join (06 R234), or one lane of a combining adder: two input FIFOs and the transfers waiting at its outputs. -/
structure Join where
  f0 : List Xfer := []
  f1 : List Xfer := []
  o0 : Option Xfer := none
  o1 : Option Xfer := none
  deriving DecidableEq, Repr

/-- A switch: its configuration word, lane buffers in the order N0, N1, E0, E1, S0, S1, W0, W1 (control N0-N3, E0-E3,
S0-S3, W0-W3), elements, and registers (06 R244). -/
structure Switch where
  word : BitVec 768 := 0
  /-- The settings of the polder in which the switch lies, kept under the transit selectors of another (02 R69, 11 R389). -/
  loc : BitVec 768 := 0
  vin : List (List Xfer) := List.replicate 8 []
  sin : List (List Xfer) := List.replicate 8 []
  cin : List (List Xfer) := List.replicate 16 []
  vslot : List (List (BitVec 4)) := List.replicate 8 []
  sslot : List (List (BitVec 4)) := List.replicate 8 []
  /-- Sinks that have already taken the head of a source (06 R228): 0 vector, 1 scalar, 2 control; source code; sink. -/
  taken : List (Nat × Nat × Nat) := []
  steer : List Steer := List.replicate 4 {}
  joins : List Join := List.replicate 4 {}
  /-- The adder's lane 0 (A0, B0) and lane 1 (A1, B1). -/
  ca0 : Join := {}
  ca1 : Join := {}
  flags : BitVec 5 := 0
  recElem : BitVec 3 := 0
  recSide : Bool := false
  recValid : Bool := false
  cmbExc : Cnt := {}
  steerErrs : Cnt := {}
  deriving DecidableEq, Repr

/-! ## Sync objects (08) -/

/-- A sync object (08 R293, R294, R310). -/
structure SyncObj where
  value : W32 := 0
  owner : BitVec 8 := 0
  alloc : Bool := false
  ovf : Bool := false
  unf : Bool := false
  freset : Bool := false
  init : W32 := 0
  snap : W32 := 0
  lastSrc : BitVec 20 := 0
  lastSop : BitVec 3 := 0
  lastValid : Bool := false
  lastFrame : BitVec 40 := 0
  deriving DecidableEq, Repr

/-- A queued waiter (08 R298). -/
structure Waiter where
  obj : Nat
  src : Nat
  seq : Nat
  ctx : Nat
  eq : Bool
  val : W32
  deriving DecidableEq, Repr

/-! ## Fields: clock, controller, throttle (01, 08, 14, 17) -/

/-- What took a field to S4 (14 R477). -/
inductive Down where
  | none | thermal | ceil | regulator | command
  deriving DecidableEq, Repr

/-- A decided step change (14 R474): the target, what decided it, and the nanoseconds of tick periods still to pass before
it may take effect. -/
structure StepChange where
  target : Nat
  why : Down
  wait : Nat
  deriving DecidableEq, Repr

/-- A field with its controller. -/
structure Field where
  /-- Base-clock remainder and cclk since the PLL locked (01 R27; the slot counter of 06 R220 is cclk mod 16). -/
  acc : Nat := 0
  cclk : Nat := 0
  up : Bool := false
  starting : Bool := false
  draining : Bool := false
  step : Nat := 0
  ceil : Nat := 0
  hold : Bool := false
  temp : BitVec 8 := 0
  ehint : BitVec 16 := 0
  ptick : BitVec 16 := 0
  steps : Cnt := {}
  change : Option StepChange := none
  why : Down := .none
  breachN : Nat := 0
  clearN : Nat := 0
  suspectN : Nat := 0
  hotN : Nat := 0
  /-- Held hints of frames to come, pre-positioned (14 R467): polder, frame, units of 4 W. -/
  prepos : List (Nat × Nat × Nat) := []
  /-- Field controller. -/
  waiters : List Waiter := []
  fcsFlags : BitVec 4 := 0
  fcsOps : Cnt := {}
  fcsSats : Cnt := {}
  fcsDrop : Cnt := {}
  fcsNacks : Cnt := {}
  fcsHwm : BitVec 13 := 0
  wqRaised : Bool := false
  saved : Bool := false
  fcSram : Bytes := []
  seeds : Map W64 := []
  probeMisses : Cnt := {}
  /-- The next probe goes to the first unit from this one on (15 R583). -/
  probeFrom : Nat := 0
  probes : List Nat := []
  sensNow : List (BitVec 8) := List.replicate 16 0
  sensMax : List (BitVec 8) := List.replicate 16 0
  baseTemp : BitVec 8 := 0
  /-- Physical row of each logical row present (01 R22). -/
  rowMap : List Nat := []
  /-- Slots and rows cleared by RPR_CLEAR since the field was last remapped (15 R507): physical row, chain, slot; for a row (chain
  3) what its ROW was. -/
  cleared : List (Nat × Nat × Nat) := []
  /-- Field reset in progress (15 R509): 0 none, 1 packets still move, 2 the packets are discarded. -/
  resetPhase : Nat := 0
  /-- Its regulator has switched the domain off and the evacuation tick is still to come (14 R465, R475). -/
  dark : Bool := false
  /-- The set point that the field regulator tile holds and the core supply, in mV (14 R462, R463). -/
  setPoint : Nat := 0
  supply : Nat := 0
  /-- Its units are held in reset by a boot (15 R493, R494). -/
  held : Bool := false
  /-- Its controller runs the firmware image of this digest (15 R496). -/
  firmware : Option W512 := none
  deriving DecidableEq, Repr

/-! ## Polders, frames, contexts (02) -/

/-- An entry of a batch (02 R87). -/
structure BatchEnt where
  ctx : Nat
  left : BitVec 16
  pos : W32
  deriving DecidableEq, Repr

/-- A dikewatch record (08 R309). -/
structure DwRec where
  cause : BitVec 3 := 0
  causes : BitVec 5 := 0
  valid : Bool := false
  pending : BitVec 20 := 0
  frame : W64 := 0
  tick : W64 := 0
  fields : W64 := 0
  pend : BitVec 20 := 0
  mss : BitVec 20 := 0
  mssValid : Bool := false
  obj : BitVec 16 := 0
  waiters : BitVec 13 := 0
  objValid : Bool := false
  reconv : BitVec 20 := 0
  reconvValid : Bool := false
  deriving DecidableEq, Repr

/-- A frame: in progress, or halted and awaiting replay (02 R52 to R63, R81). -/
structure Frame where
  num : W64
  start : Nat
  effDiv : Nat
  deadline : Nat
  dwTick : Nat
  batch : List BatchEnt := []
  listed : Bool := true
  /-- cclk of each field at the frame-start tick (02 R53). -/
  base : Map Nat := []
  late : Bool := false
  causes : BitVec 2 := 0
  throttled : Bool := false
  isReplay : Bool := false
  replays : Nat := 0
  /-- Switches that raised RECONV_STALL in the frame, element by element (06 R239): 8·unit + element. -/
  reconv : List Nat := []
  /-- The dikewatch has fired (08 R306), at this tick. -/
  dikewatched : Bool := false
  dwAt : Nat := 0
  /-- What the dikewatch found at that tick (08 R306 step 2, R308). -/
  dwRec : Option DwRec := none
  /-- HALT_CAUSE of the halt that ended it (16 R539). -/
  haltCause : BitVec 8 := 0
  /-- It had completed in the cclk of its dikewatch tick, which does not count (08 R305). -/
  tookBack : Bool := false
  deriving DecidableEq, Repr

/-- A polder: status block (02 R75), frame, configuration block (11 R404), weight measurement (16 R548), image map
(15 R518). STATE: 0 VACANT, 1 LOADED, 2 RUNNING, 3 HALTED, 4 RESETTING. -/
structure Polder where
  state : Nat := 0
  divM1 : BitVec 8 := 0
  effDiv : BitVec 10 := 0
  cause : BitVec 8 := 0
  frames : W64 := 0
  failed : Cnt := {}
  budget : W32 := 0
  last : W32 := 0
  /-- PST_LAST before the frame that completed last. -/
  priorLast : W32 := 0
  flags : BitVec 5 := 0
  batchN : BitVec 14 := 0
  maxBatch : BitVec 14 := 0
  cfg : Option PolderCfg := none
  frame : Option Frame := none
  await : Option Frame := none
  /-- The replay of the awaited frame has been decided (15 R517). -/
  replay : Bool := false
  /-- A POLDER_HALT has been taken (02 R73): the frame in progress is the last. -/
  halting : Bool := false
  /-- An abrupt halt is due at the next wafer tick (02 R72): its HALT_CAUSE. -/
  abrupt : List (BitVec 8) := []
  /-- TICK_COUNT from which the next frame may start. -/
  nextTick : Nat := 0
  /-- A frame of this polder was halted for good and its row is fenced (15 R519). -/
  dead : Bool := false
  /-- Lost the memory of an evacuated field (14 R476). -/
  evacUnits : Bool := false
  /-- A POLDER_RELEASE waits for the write-back of dirty lines (05 R196). -/
  releasing : Bool := false
  /-- The mclk in which POLDER_HALT halted the polder (02 R73). -/
  hostAt : Option Nat := none
  /-- The last frame to complete, until its deadline tick, with the cclk of each field at its completion as `base` (02 R54). -/
  doneF : Option Frame := none
  cfgActive : W512 := 0
  slotValid : BitVec 4 := 0
  active : BitVec 3 := 7
  swapPend : Bool := false
  swapSlot : BitVec 2 := 0
  /-- The pending swap has met a halted frame: it waits for a frame-start tick (11 R398 step 3). -/
  swapHeld : Bool := false
  /-- Staging of the pending load or swap has ended in every field (05 R199). -/
  staged : Bool := false
  activations : W32 := 0
  slotDigest : List W512 := List.replicate 4 0
  slotCfg : Map PolderCfg := []
  /-- A configuration verified and staged, not yet activated. -/
  staging : Option PolderCfg := none
  dw : DwRec := {}
  dwW : BitVec 4 := 0
  dwCount : Cnt := {}
  wgtDigest : W512 := 0
  wgtValid : Bool := false
  measures : W32 := 0
  image : Option (Nat × Nat) := none
  deriving DecidableEq, Repr

/-- Shallot's open-record state of a context (16 R543). -/
structure OpenRec where
  prio : BitVec 4 := 0
  pmode : W32 := 0
  openTick : W64 := 0
  unmeasured : Bool := false
  jnlGap : Bool := false
  lost : Cnt := {}
  configs : W32 := 0
  wgtChg : W32 := 0
  nrect : Nat := 0
  rects : List Rect := []
  cfgDigest : W512 := 0
  wgtDigest : W512 := 0
  dOpen : W512 := 0
  reason : BitVec 8 := 0
  deriving DecidableEq, Repr

/-- A context entry (02 R77), the tick at which it last became READY (02 R84), Shallot's record of it, and its signed
treatment record once SEALED. STATE: 0 FREE, 1 OPEN, 2 READY, 3 RUNNING, 4 PARKED, 5 CLOSING, 6 SEALED. -/
structure Ctx where
  state : Nat := 0
  parkPend : Bool := false
  prio : BitVec 4 := 0
  polder : BitVec 8 := 0
  left : BitVec 16 := 0
  pos : W32 := 0
  adv : BitVec 12 := 0
  ptBase : BitVec 29 := 0
  ptPages : BitVec 15 := 0
  frames : W64 := 0
  faults : Cnt := {}
  replays : Cnt := {}
  throttles : Cnt := {}
  overruns : Cnt := {}
  tag : W64 := 0
  digest : W512 := 0
  readyTick : Nat := 0
  /-- The seed write of 02 R114 is still to come. -/
  seedDue : Bool := false
  shRec : OpenRec := {}
  record : List Byte := []
  deriving DecidableEq, Repr

/-! ## Memory system (10) -/

/-- A ring message (10 R340): a request forwarded to its serving MEC with the physical address, or the result of a
page-table walk read on its way back. -/
structure RingMsg where
  dest : Nat
  reply : Bool
  pkt : Packet
  pa : Nat
  ok : Bool := true
  pte : W64 := 0
  origin : Nat := 0
  /-- A walk read, or a forwarded request. -/
  walk : Bool := false
  /-- The stream engine whose walk it is (R349). -/
  eng : Option Nat := none
  /-- Translations of its context have been dropped since: the entry it brings is not cached (R351). -/
  nocache : Bool := false
  deriving DecidableEq, Repr

/-- A memory edge controller (10 R374). -/
structure Mec where
  flags : BitVec 6 := 0
  ce : Cnt := {}
  ue : Cnt := {}
  ueAddr : BitVec 41 := 0
  ueValid : Bool := false
  pfVa : BitVec 30 := 0
  pfCtx : BitVec 13 := 0
  pfReason : BitVec 3 := 0
  pfValid : Bool := false
  pfRaised : Bool := false
  denys : Cnt := {}
  hits : Cnt := {}
  misses : Cnt := {}
  trkHwm : BitVec 15 := 0
  scrubPos : BitVec 24 := 0
  scrubPasses : W32 := 0
  calTick : W64 := 0
  calLeft : Nat := 0
  tempNow : BitVec 8 := 0
  tempMax : BitVec 8 := 0
  tempCal : BitVec 8 := 0
  rd : Cnt := {}
  wr : Cnt := {}
  /-- Refreshes issued since reset (R365). -/
  refreshes : Nat := 0
  /-- Time at which the stack was trained, and the granules scrubbed by then: the patrol scrub's schedule starts there (R368). -/
  scrubFrom : Nat := 0
  scrubBase : Nat := 0
  /-- The stack's on-die error reports as last read (R333, R369). -/
  odEcc : W64 := 0
  /-- Page-table mirror: PT_BASE and PT_PAGES by context (10 R351). -/
  mirror : Map (BitVec 29 × BitVec 15) := []
  /-- Translation cache, newest last: context, page, entry (10 R351). -/
  tlb : List (Nat × Nat × W64) := []
  deriving DecidableEq, Repr

/-- A stream engine (10 R353 to R360, R375). -/
structure Se where
  owner : BitVec 8 := 0
  assigned : Bool := false
  running : Bool := false
  desc : Nat := 0
  iter : Nat := 0
  err : Bool := false
  code : BitVec 5 := 0
  pf : Bool := false
  late : Bool := false
  lateCnt : Cnt := {}
  lists : Cnt := {}
  cfg : List SeDesc := []
  pfdepth : Nat := 0
  /-- Where the descriptor in progress stands: the batch wait sent and satisfied, the list's count and entries, the gate
  wait sent and satisfied, the present iteration's rows issued. -/
  batchSent : Bool := false
  batchOk : Bool := false
  listN : Option Nat := none
  list : List (Nat × Nat) := []
  gateSent : Bool := false
  gateOk : Bool := false
  /-- The next row of the present iteration, and the next byte of that row in the unit (R355). -/
  row : Nat := 0
  off : Nat := 0
  /-- Iterations begun whose DONE is still to come: 65,536·descriptor + i (R357). -/
  openIts : List Nat := []
  /-- Lists of later frames that are to start when this one ends (10 R359). -/
  again : Nat := 0
  halted : Bool := false
  /-- The walk that is on the edge ring: context and virtual address (10 R349). -/
  walk : Option (Nat × Nat) := none
  /-- Translations found for the words about to be moved: context, page, entry. -/
  got : List (Nat × Nat × W64) := []
  deriving DecidableEq, Repr

/-! ## Host interface (12) -/

/-- An event record (12 R423). -/
structure Event where
  code : BitVec 16
  polder : Option (BitVec 8) := none
  ctx : Option (BitVec 13) := none
  unit : Option (BitVec 20) := none
  seq : W32 := 0
  arg : W64 := 0
  tick : W64 := 0
  deriving DecidableEq, Repr

/-- A unit message for the host (12 R426). -/
structure Umsg where
  dest : Nat
  tag : Nat
  src : Nat
  ctx : Nat
  words : List W64
  deriving DecidableEq, Repr

/-- A sequenced frame from the device to the host (12 R408). -/
inductive TxFrame where
  | cpl (sender tag : Nat) (status : Nat) (data : List W64)
  | evt (recs : List Event)
  | umsg (m : Umsg)
  deriving DecidableEq, Repr

/-- A host access in progress over the mesh (12 R415): parts still outstanding, the words read, the lowest-addressed
failure. -/
structure Access where
  id : Nat
  req : Req
  read : Bool
  parts : Nat
  data : List W64
  fail : Option (Nat × Nat) := none
  /-- The host has lost the module since it was accepted: its completion is discarded (12 R422). -/
  lost : Bool := false
  deriving DecidableEq, Repr

/-- A Nimmos port (12 R438): STATE 0 DOWN, 1 TRAIN, 2 UP. -/
structure NPort where
  en : Bool := true
  st : Nat := 0
  lanes : BitVec 8 := 0
  flags : BitVec 4 := 0
  txNext : W32 := 0
  rxNext : W32 := 0
  fecCw : Cnt := {}
  fecUcw : Cnt := {}
  crc : Cnt := {}
  replays : Cnt := {}
  downs : Cnt := {}
  reqs : Cnt := {}
  /-- Replay buffer, oldest first, and the frames that wait for room in it or for credit (12 R410, R411). -/
  tx : List (W32 × TxFrame) := []
  txWait : List TxFrame := []
  ecredit : Nat := 0
  nakSent : Bool := false
  replayRun : Nat := 0
  /-- The last ACK frame sent: ACKSEQ, NAK (12 R409). -/
  ackSent : Option (W32 × Bool) := none
  /-- What a failed port still has to hand to the other, until the peer's FAILOVER tells what it has received (12 R421): its replay buffer, the
  frames that waited, and its RXNEXT. -/
  oldTx : List (W32 × TxFrame) := []
  oldWait : List TxFrame := []
  oldRx : W32 := 0
  /-- The FAILOVER frame sent on this port: FAILED, RXNEXT, CONFIRM (12 R421). -/
  failSent : Option (Nat × W32 × Bool) := none
  failDone : Bool := true
  deriving DecidableEq, Repr

/-- A command taken from a queue (12 R428). -/
structure Cmd where
  opc : BitVec 8
  flags : BitVec 8
  cid : W32
  a0 : W64
  a1 : W64
  a2 : W64
  a3 : W64
  deriving DecidableEq, Repr

/-- A refused command as it is logged (02 R51, R71, R79, 11 R398): opcode, ARG0, is the reason BUDGET, TICK_COUNT. -/
structure Refused where
  opc : BitVec 8
  a0 : W64
  budget : Bool
  tick : W64
  deriving DecidableEq, Repr

/-- A command queue (12 R427, R437): submission ring as 512 words, completion ring as 128 words. -/
structure CmdQ where
  sq : Map W64 := []
  cq : Map W64 := []
  sqTail : BitVec 6 := 0
  sqHead : BitVec 6 := 0
  cqHead : BitVec 6 := 0
  cqTail : BitVec 6 := 0
  phase : Bool := true
  cur : Option Cmd := none
  opc : BitVec 8 := 0
  cid : W32 := 0
  done : Cnt := {}
  deriving DecidableEq, Repr

/-- A mailbox (12 R433). -/
structure Mbx where
  data : Bytes := []
  owner : BitVec 8 := 0
  full : Bool := false
  len : BitVec 9 := 0
  deriving DecidableEq, Repr

/-! ## Span ports (13) -/

/-- An entry of an egress relay table (13 R445): the span SEQ; the source, its SEQ, its landing address and the request's VC. -/
structure Relay where
  seq : Nat
  src : Nat
  rseq : Nat
  land : Nat
  vc : Nat := 2
  deriving DecidableEq, Repr

/-- A sequenced span frame (13 R442). -/
inductive SpanFrame where
  | data (pkts : List SpanPkt)
  | reach (hops : Nat) (wmap : W64)
  deriving DecidableEq, Repr

/-- A span port (13 R456): STATE 0 DOWN, 1 TRAIN, 2 UP. -/
structure SpanPort where
  st : Nat := 0
  peer : BitVec 6 := 0
  peerV : Bool := false
  clash : Bool := false
  lanes : BitVec 16 := 0
  flags : BitVec 4 := 0
  replays : Cnt := {}
  crc : Cnt := {}
  lost : Cnt := {}
  stale : Cnt := {}
  msgNacks : Cnt := {}
  win : Map W64 := []
  txNext : W32 := 0
  rxNext : W32 := 0
  tx : List (W32 × SpanFrame) := []
  creditReq : Nat := 0
  creditRpl : Nat := 0
  nakSent : Bool := false
  /-- The last ACK frame sent: ACKSEQ, NAK (12 R409). -/
  ackSent : Option (W32 × Bool) := none
  /-- The buffer words of each class, request and reply, that it returned: CREQ, CRPL (13 R442). -/
  ackCredit : Nat × Nat := (0, 0)
  replayRun : Nat := 0
  /-- REACH frames that wait for room in the replay buffer: HOPS, map. -/
  reachQ : List (Nat × W64) := []
  egress : List Relay := []
  relayNext : Nat := 0
  /-- Packets that wait for credit or replay-buffer room (R442), and requests that wait for a relay entry (R445). -/
  outq : List SpanPkt := []
  hold : List SpanPkt := []
  deriving DecidableEq, Repr

/-- An entry of the span route table (13 R447). -/
structure SpanEnt where
  pri : BitVec 5 := 0
  alt : BitVec 5 := 0
  fell : Bool := false
  deriving DecidableEq, Repr

/-- A message on the span ring (13 R441): its packet; the port it has reached and the one it goes to; clockwise or not; base-clock periods to
the next port. -/
structure SpanRing where
  pkt : SpanPkt
  pos : Nat
  port : Nat
  cw : Bool
  left : Nat
  deriving DecidableEq, Repr

/-- The span registers of the module (13 R456). -/
structure Span where
  waferId : BitVec 6 := 0
  en : Bool := false
  sluice : Bool := false
  installs : W32 := 0
  table : List SpanEnt := List.replicate 64 {}
  imp : Map W64 := []
  impMask : Map W64 := []
  ports : Map SpanPort := []
  /-- The request class and the reply class of the span ring, each in the order in which its messages entered (13 R441). -/
  ringReq : List SpanRing := []
  ringRpl : List SpanRing := []
  deriving DecidableEq, Repr

/-! ## The fault map and the brownout save (15 R504, 14 R481) -/

/-- A row of the fault map (15 R504). -/
structure RowMap where
  cc : BitVec 84 := 0
  mu : BitVec 9 := 0
  sfu : BitVec 9 := 0
  row : BitVec 2 := 0
  factory : Bool := false
  bootSeq : W32 := 0
  deriving DecidableEq, Repr

/-- The fault map (15 R504): rows by 100·field + physical row; a stack's or port's FAILED; a field's FENCED. -/
structure FaultMap where
  bootSeq : W32 := 0
  updates : W64 := 0
  fenced : W64 := 0
  factoryF : W64 := 0
  rows : Map RowMap := []
  stackBits : W32 := 0
  factoryS : W32 := 0
  ports : BitVec 18 := 0
  factoryP : BitVec 18 := 0
  deriving DecidableEq, Repr

/-- A brownout save slot (14 R481): what it holds, as far as it has been written: the cause, the tick, the slot sequence
number, and what its sections 1 to 6 are made of. -/
structure Save where
  cause : BitVec 2
  tick : W64
  serial : Nat
  ctxs : Map Ctx
  events : List Event
  fmap : FaultMap
  polders : Map Polder
  objs : Map SyncObj
  waiters : List Waiter
  /-- SLOW_STEP of each polder's status block (02 R75). -/
  slow : Map Nat
  committed : Bool
  deriving DecidableEq, Repr

/-! ## Power (14) -/

/-- A power domain (14 R488): STATE 0 OFF, 1 ON, 2 DRAINING, 3 STARTING; samples since the last governor tick. -/
structure Dom where
  st : Nat := 0
  suspect : Bool := false
  regFault : Bool := false
  stale : Bool := false
  volt : BitVec 16 := 0
  curr : BitVec 16 := 0
  pnow : BitVec 16 := 0
  ptick : BitVec 16 := 0
  ppeak : BitVec 16 := 0
  sum : Nat := 0
  n : Nat := 0
  deriving DecidableEq, Repr

/-- A PWR_HINT in force (14 R485): hint in units of 4 W, first wafer tick, frames left. -/
structure Hint where
  p : Nat
  f : Nat
  hint : Nat
  start : Nat
  left : Nat
  deriving DecidableEq, Repr

/-- The power subsystem (14 R486). -/
structure Power where
  /-- Input power is applied and AO runs. -/
  ao : Bool := true
  /-- The module has been shed by a brownout or a thermal trip (14 R478, R480). -/
  shed : Bool := false
  tripped : Bool := false
  inputOpen : Bool := false
  vin : BitVec 16 := 0
  iin : BitVec 16 := 0
  pin : BitVec 16 := 0
  cap : BitVec 9 := 360
  proj : BitVec 16 := 0
  capLimited : Bool := false
  capUnmet : Bool := false
  gticks : W32 := 0
  flags : BitVec 9 := 0
  tHot : BitVec 8 := 95
  tCool : BitVec 8 := 85
  tEvac : BitVec 8 := 105
  inlet : BitVec 12 := 0
  outlet : BitVec 12 := 0
  flow : BitVec 12 := 0
  coolWarn : Bool := false
  inLow : Bool := false
  brnCause : BitVec 2 := 0
  brnSaved : Bool := false
  brnIncomplete : Bool := false
  brnSlot : Bool := false
  brnTick : W32 := 0
  /-- Nanoseconds of tick periods since the last governor tick (14 R468). -/
  lastGov : Nat := 0
  /-- A wafer or idle tick has passed for which the governor has not yet been evaluated (14 R468). -/
  govDue : Bool := false
  hints : List Hint := []
  save0 : Option Save := none
  save1 : Option Save := none
  doms : Map Dom := []
  /-- A release of RESET_N that fell in a save: it takes effect when the save ends (18 R571). -/
  resetHeld : Bool := false
  /-- The management complex's own sensor (14 R478). -/
  mgcTemp : BitVec 8 := 0
  /-- The model's own: samples that the input monitor has taken (14 R464); and those since the last governor tick: their number, the sum of
  their powers. -/
  inSeen : Nat := 0
  inN : Nat := 0
  inSum : Nat := 0
  /-- Pins (18 R571). -/
  pwrGood : Bool := false
  alert : Bool := false
  deriving DecidableEq, Repr

/-! ## Faults under repair, boot, flash (15) -/

/-- A detected fault under repair (15 R513, R514). -/
structure FaultRec where
  unit : Nat
  cause : Nat
  addr : Nat
  prow : Nat
  slot : Nat
  chain : Nat
  deriving DecidableEq, Repr

/-- Where a repair stands (15 R514): its faults; has it met its halting tick; has it been decided, what the decision was:
units whose slot changes, rows fenced, replay. -/
structure Repair where
  faults : List FaultRec
  ticked : Bool := false
  decided : Bool := false
  moved : List Nat := []
  fencedRows : List (Nat × Nat) := []
  replay : Bool := false
  deriving DecidableEq, Repr

/-- A Marrow image in flash (16 R533). -/
structure FwImage where
  good : Bool
  svn : BitVec 6
  version : W64
  /-- The field-controller image that it carries (15 R496), in words. -/
  fc : List W64 := []
  deriving DecidableEq, Repr

/-- Boot and repair (15 R524) with the flash. -/
structure Boot where
  phase : BitVec 3 := 0
  ready : Bool := false
  err : BitVec 3 := 0
  marrowAlt : Bool := false
  ucal : BitVec 2 := 0
  waves : BitVec 5 := 0
  mc0 : Bool := true
  mc1 : Bool := true
  single : Bool := false
  hbMisses : W32 := 0
  hb0 : W64 := 0
  hb1 : W64 := 0
  auto : Bool := true
  flags : BitVec 6 := 0
  lastUnit : BitVec 20 := 0
  lastCause : BitVec 4 := 0
  lastProw : BitVec 7 := 0
  lastSlot : BitVec 7 := 0
  lastChain : BitVec 2 := 0
  lastOutcome : BitVec 2 := 0
  lastCopied : Bool := false
  lastImaged : Bool := false
  lastValid : Bool := false
  tick : W64 := 0
  count : Cnt := {}
  fmap : FaultMap := {}
  /-- The map is written to flash after a change (15 R505): one write is due. -/
  mapDue : Bool := false
  /-- The last write of it failed: it is tried again every second. -/
  mapRetry : Bool := false
  /-- Unit and cluster resets that run: their units, and the queue of the command (15 R508). -/
  unitResets : List (List Nat × Nat) := []
  /-- The two copies of the fault map in flash, each valid or not; UPDATES is its update count (15 R491, R505). -/
  fmapA : Option FaultMap := none
  fmapB : Option FaultMap := none
  /-- The two copies of the user calibration table in flash, each with its update count (15 R491, R501). -/
  userCalA : Option (Nat × List Byte) := none
  userCalB : Option (Nat × List Byte) := none
  /-- The user calibration's deltas in force: ITEM and VALUE (15 R503). -/
  cal : List (Nat × Int) := []
  /-- Waves of the boot's compute step that have completed (15 R494). -/
  wave : Nat := 0
  imgA : FwImage := ⟨Config.imageGood 0, Config.imageSvn 0, Config.imageVersion 0, Config.fcImage 0⟩
  imgB : FwImage := ⟨Config.imageGood 1, Config.imageSvn 1, Config.imageVersion 1, Config.fcImage 1⟩
  /-- A firmware update that is writing its flash copy (16 R534): the queue it completes in, the copy (true B), the image. -/
  fwWrite : Option (Nat × Bool × FwImage) := none
  runB : Bool := false
  svnRun : BitVec 6 := 0
  repair : Option Repair := none
  /-- Faults detected after a repair was decided: the next repair's. -/
  later : List FaultRec := []
  deriving DecidableEq, Repr

/-! ## Security (16) -/

/-- An event that waits in Shallot's queue (16 R541): the entry's type and body, and the contexts it still reaches. -/
structure TrEvent where
  typ : Nat
  tick : W64
  /-- The mclk of the event (16 R540). -/
  mclk : Nat := 0
  ctxs : List (Nat × List Byte)
  deriving DecidableEq, Repr

/-- Security (16 R548). -/
structure Sec where
  slotState : List (BitVec 2) := (List.range 4).map (fun i => BitVec.ofNat 2 (Config.fuseSlotState i).val)
  slotKey : List (BitVec 456) := [Config.fuseSlotKey 0, Config.fuseSlotKey 1, Config.fuseSlotKey 2, Config.fuseSlotKey 3]
  svnMin : BitVec 6 := Config.fuseSvnMin
  nonce : W64 := Config.fuseNonce
  /-- The fused 57-byte secret, and the device identity key that Shallot derives from it at boot (16 R526, R529). -/
  secret : List Byte := (List.range 57).map Config.fuseSecret
  dik : List Byte := []
  /-- The crypto engine's key registers: the private key loaded (16 R526). -/
  keyRegs : List Byte := []
  flags : BitVec 3 := 0
  trStalls : Cnt := {}
  jnlBase : BitVec 41 := 0
  jnlSize : BitVec 31 := 0
  jnlHead : BitVec 30 := 0
  jnlTail : BitVec 30 := 0
  jnlLost : Cnt := {}
  jnlSeq : W32 := 0
  queue : List TrEvent := []
  deriving DecidableEq, Repr

/-! ## Configuration subsystem (11), ticks (02), debug (17) -/

/-- Configuration registers (11 R403), and the archive's copies: digest, DRAM address, length. -/
structure Conf where
  stageEn : Bool := false
  stageBase : BitVec 25 := 0
  archBase : BitVec 25 := 0
  archSize : BitVec 25 := 0
  busy : Bool := false
  op : BitVec 2 := 0
  phase : BitVec 2 := 0
  polder : BitVec 8 := 0
  queue : Nat := 0
  reason : BitVec 8 := 0
  reasonV : Bool := false
  whereOff : W32 := 0
  whereUnit : BitVec 20 := 0
  whereUnitV : Bool := false
  buildId : W64 := 0
  archUsed : BitVec 25 := 0
  digest : W512 := 0
  /-- LD_BUILD and LD_DIGEST before the command that runs, which a refusal leaves as they were (11 R397). -/
  priorBuild : W64 := 0
  priorDigest : W512 := 0
  archive : List (W512 × Nat × Nat) := []
  deriving DecidableEq, Repr

/-- The tick generator (02 R49). -/
structure Tick where
  period : BitVec 26 := 0x00F4240
  cur : BitVec 26 := 0x00F4240
  run : Bool := false
  pendingP : Bool := false
  count : W64 := 0
  time : W64 := 0
  deriving DecidableEq, Repr

/-- The route epoch (07 R269) and the two banks. -/
structure Epoch where
  epoch : Bool := false
  armed : Bool := false
  draining : Bool := false
  drained : Bool := false
  expired : Bool := false
  late : Bool := false
  changes : W32 := 0
  tick : W64 := 0
  bank0 : RouteBank := {}
  bank1 : RouteBank := {}
  queue : Option Nat := none
  /-- Marrow is to build tables for a following epoch once the unused bank is free (07 R268). -/
  due : Bool := false
  /-- The tables of a ROUTE_LOAD that wait for that bank (11 R402). -/
  built : Option RouteBank := none
  /-- Sender and DEST of packets that set DTR until the next flip (10 R338). -/
  dtrDests : List (Nat × Nat) := []
  /-- Outward links that have gone down since the last flip (10 R338), by net and router. -/
  fell : List (Net × Nat) := []
  /-- The fields that were down at the last flip and have stayed so (10 R339). -/
  downAtFlip : W64 := 0
  deriving DecidableEq, Repr

/-- A debug selector (17 R554). -/
structure DbgSel where
  unit : BitVec 20 := 0
  space : BitVec 3 := 0
  spare : Bool := false
  j : BitVec 2 := 0
  deriving DecidableEq, Repr

/-- Debug selectors, JTAG (17 R561), and the last answer of SMBus and management Ethernet (18 R572, R573). -/
structure Debug where
  sel : List DbgSel := [{}, {}, {}]
  /-- The instruction register of the test access port, IDCODE at Test-Logic-Reset, and its BYPASS register (17 R561). -/
  ir : BitVec 8 := 0x02
  bypass : Bool := false
  /-- The straps SMB_ADDR0 and SMB_ADDR1 (18 R570, R572). -/
  smbAddr : BitVec 2 := Config.smbStraps
  jAddr : BitVec 50 := 0
  jData : W64 := 0
  jStatus : BitVec 3 := 0
  jDone : Bool := false
  smb : Option W64 := none
  smbNack : Bool := false
  eth : List Byte := []
  deriving DecidableEq, Repr

/-- Host interface registers beside the ports (12 R438, R437, R433). -/
structure HostIf where
  na : NPort := {}
  nb : NPort := {}
  mode : Bool := false
  pref : Bool := false
  /-- The active port of active/standby operation (12 R420): false NA. -/
  activeB : Bool := false
  log : List Event := []
  /-- Refused commands, oldest first (02 R71, R79). -/
  refused : List Refused := []
  nextEvt : W32 := 0
  evtLost : Cnt := {}
  umsgLost : Cnt := {}
  hold : List Umsg := []
  accesses : List Access := []
  nextAcc : Nat := 0
  queues : Map CmdQ := []
  mbx : Map Mbx := []
  deriving DecidableEq, Repr

/-- A crossing between a field and its eastern or southern neighbour (01 R29 to R32). -/
inductive Crossing where
  | meso | ratio | stopped
  deriving DecidableEq, Repr

/-- The state of the module. -/
structure State where
  /-- The model's own: commands waiting, first in first out. -/
  pending : List Instr := []
  /-- The model's own: free values used so far. -/
  free : Nat := 0
  /-- Base-clock periods since power-up. -/
  now : Nat := 0
  tick : Tick := {}
  fields : Map Field := []
  /-- Crossings not in mesochronous mode, or re-timing: 4·field + side (east 1, south 2); mode, re-timing. -/
  crossings : Map (Crossing × Bool) := []
  polders : Map Polder := []
  ctxs : Map Ctx := []
  /-- Master copy of the seed table (03 R115). -/
  seeds : Map W64 := []
  cores : Map Core := []
  sfus : Map Sfu := []
  mus : Map Mu := []
  switches : Map Switch := []
  routers : Map Router := []
  /-- Mesh interfaces by unit ID: of cores and MUs, and the request bookkeeping of the fixed endpoints. -/
  mifs : Map MeshIf := []
  flights : List Flight := []
  mcRows : List McRow := []
  epoch : Epoch := {}
  /-- The management complex's multicast groups (07 R274). -/
  mgcGroups : Map W64 := []
  objs : Map SyncObj := []
  dram : Bytes := []
  /-- DRAM granules of 64 B that fail their check (10 R363): their number. -/
  badGranules : List Nat := []
  ilv : BitVec 2 := 1
  stackBits : W32 := 0
  tlbBusy : Bool := false
  mecs : Map Mec := []
  ses : Map Se := []
  ring : List RingMsg := []
  conf : Conf := {}
  host : HostIf := {}
  span : Span := {}
  power : Power := {}
  boot : Boot := {}
  sec : Sec := {}
  dbg : Debug := {}
  deriving DecidableEq, Repr

/-- Right after reset: input power is applied, the always-on domain is out of reset, and no boot step has run (15 R492,
R493). Every register is at the value its table gives; a register the spec gives none is zero (log 2, DESIGN CHOICE); the fuses and the
flash are those of the module at hand. -/
def State.reset : State := {}

end Sys2Proof.Machine
end

