-- ==== Sys2Proof/Machine/Ops.lean ====
section
/-! DEFINITION. The operations every command shares: where a unit lies, reading and writing one object of the state,
counters, events, completions of host accesses and commands, and entries of the treatment digest.
Readings: log 3, DESIGN CHOICE; log 7, DESIGN CHOICE; log 11, DESIGN CHOICE. -/

namespace Sys2Proof.Machine

open Sys2Proof

/-- The three outcomes of a command. -/
abbrev Out := Host.Outcome State Fault Refusal

/-! ## Geometry (00 R2 to R7, 01 R26) -/

/-- Column of a unit ID (00 R5). -/
def unitX (u : Nat) : Nat := u % 1024

/-- Row of a unit ID (00 R5). -/
def unitY (u : Nat) : Nat := u / 1024

/-- Does u name a logical unit (00 R5). -/
def isUnit (u : Nat) : Bool := decide (unitX u < 768) && decide (unitY u < 768)

/-- Is u a memory unit (00 R4). -/
def isMu (u : Nat) : Bool := isUnit u && unitX u % 12 == 5

/-- Is u a special-function unit (00 R4). -/
def isSfu (u : Nat) : Bool := isUnit u && unitX u % 12 == 6

/-- Is u a compute core (00 R4). -/
def isCc (u : Nat) : Bool := isUnit u && !(unitX u % 12 == 5) && !(unitX u % 12 == 6)

/-- The unit ID at column x, row y. -/
def unitAt (x y : Nat) : Nat := 1024 * y + x

/-- Field of a logical unit (00 R3). -/
def fieldOf (u : Nat) : Nat := 8 * (unitY u / 96) + unitX u / 96

/-- Local column of a unit in its field (01 R26). -/
def localX (u : Nat) : Nat := unitX u % 96

/-- Local row of a unit in its field (01 R26). -/
def localY (u : Nat) : Nat := unitY u % 96

/-- Unit ID of the field controller of field f (00 R5). -/
def fcId (f : Nat) : Nat := unitAt f 1022

/-- Unit ID of MEC n (00 R5). -/
def mecId (n : Nat) : Nat := unitAt n 1023

/-- Unit ID of span port p (00 R5). -/
def spId (p : Nat) : Nat := unitAt (32 + p) 1023

/-- Unit ID of Nimmos port p, 0 NA, 1 NB (00 R5). -/
def naId (p : Nat) : Nat := unitAt (48 + p) 1023

/-- Unit ID of the management complex (00 R5). -/
def mgcId : Nat := unitAt 50 1023

/-- Does u name a field controller. -/
def isFc (u : Nat) : Bool := unitY u == 1022 && decide (unitX u < 64)

/-- Does u name a MEC. -/
def isMec (u : Nat) : Bool := unitY u == 1023 && decide (unitX u < 32)

/-- Does u name a span port. -/
def isSp (u : Nat) : Bool := unitY u == 1023 && decide (32 ≤ unitX u) && decide (unitX u < 48)

/-- Does u name a Nimmos port. -/
def isNp (u : Nat) : Bool := unitY u == 1023 && (unitX u == 48 || unitX u == 49)

/-- Does u name a fixed endpoint (00 R5). -/
def isFixed (u : Nat) : Bool := isFc u || isMec u || isSp u || isNp u || u == mgcId

/-- Does u name any endpoint (00 R5). -/
def isEndpoint (u : Nat) : Bool := isUnit u || isFixed u

/-- The cluster of a unit: the unit ID of its first column (00 R4). -/
def clusterOf (u : Nat) : Nat := unitAt (12 * (unitX u / 12)) (unitY u)

/-! ## Objects of the state -/

/-- A compute core. -/
def getCore (s : State) (u : Nat) : Core := mget {} s.cores u
/-- Write a compute core. -/
def setCore (s : State) (u : Nat) (c : Core) : State := { s with cores := mput s.cores u c }
/-- A special-function unit. -/
def getSfu (s : State) (u : Nat) : Sfu := mget {} s.sfus u
/-- Write a special-function unit. -/
def setSfu (s : State) (u : Nat) (c : Sfu) : State := { s with sfus := mput s.sfus u c }
/-- A memory unit. -/
def getMu (s : State) (u : Nat) : Mu := mget {} s.mus u
/-- Write a memory unit. -/
def setMu (s : State) (u : Nat) (m : Mu) : State := { s with mus := mput s.mus u m }
/-- A switch. -/
def getSw (s : State) (u : Nat) : Switch := mget {} s.switches u
/-- Write a switch. -/
def setSw (s : State) (u : Nat) (w : Switch) : State := { s with switches := mput s.switches u w }
/-- A router. -/
def getRouter (s : State) (u : Nat) : Router := mget {} s.routers u
/-- Write a router. -/
def setRouter (s : State) (u : Nat) (r : Router) : State := { s with routers := mput s.routers u r }
/-- A mesh interface. -/
def getMif (s : State) (u : Nat) : MeshIf := mget {} s.mifs u
/-- Write a mesh interface. -/
def setMif (s : State) (u : Nat) (m : MeshIf) : State := { s with mifs := mput s.mifs u m }
/-- A field. -/
def getField (s : State) (f : Nat) : Field := mget {} s.fields f
/-- Write a field. -/
def setField (s : State) (f : Nat) (x : Field) : State := { s with fields := mput s.fields f x }
/-- A polder. -/
def getPolder (s : State) (p : Nat) : Polder := mget {} s.polders p
/-- Write a polder. -/
def setPolder (s : State) (p : Nat) (x : Polder) : State := { s with polders := mput s.polders p x }
/-- A context. -/
def getCtx (s : State) (c : Nat) : Ctx := mget {} s.ctxs c
/-- Write a context. -/
def setCtx (s : State) (c : Nat) (x : Ctx) : State := { s with ctxs := mput s.ctxs c x }
/-- A sync object. -/
def getObj (s : State) (o : Nat) : SyncObj := mget {} s.objs o
/-- Write a sync object. -/
def setObj (s : State) (o : Nat) (x : SyncObj) : State := { s with objs := mput s.objs o x }
/-- A memory edge controller. -/
def getMec (s : State) (n : Nat) : Mec := mget {} s.mecs n
/-- Write a memory edge controller. -/
def setMec (s : State) (n : Nat) (x : Mec) : State := { s with mecs := mput s.mecs n x }
/-- A stream engine. -/
def getSe (s : State) (e : Nat) : Se := mget {} s.ses e
/-- Write a stream engine. -/
def setSe (s : State) (e : Nat) (x : Se) : State := { s with ses := mput s.ses e x }
/-- A power domain. -/
def getDom (s : State) (d : Nat) : Dom := mget {} s.power.doms d
/-- Write a power domain. -/
def setDom (s : State) (d : Nat) (x : Dom) : State := { s with power := { s.power with doms := mput s.power.doms d x } }
/-- Is a power domain on: ON or DRAINING (14 R488). -/
def domOn (s : State) (d : Nat) : Bool := (getDom s d).st == 1 || (getDom s d).st == 2
/-- A command queue. -/
def getQ (s : State) (q : Nat) : CmdQ := mget {} s.host.queues q
/-- Write a command queue. -/
def setQ (s : State) (q : Nat) (x : CmdQ) : State := { s with host := { s.host with queues := mput s.host.queues q x } }
/-- A mailbox. -/
def getMbx (s : State) (n : Nat) : Mbx := mget {} s.host.mbx n
/-- Write a mailbox. -/
def setMbx (s : State) (n : Nat) (x : Mbx) : State := { s with host := { s.host with mbx := mput s.host.mbx n x } }
/-- A Nimmos port. -/
def getPort (s : State) (p : Nat) : NPort := if p = 0 then s.host.na else s.host.nb
/-- Write a Nimmos port. -/
def setPort (s : State) (p : Nat) (x : NPort) : State :=
  if p = 0 then { s with host := { s.host with na := x } } else { s with host := { s.host with nb := x } }
/-- A span port. -/
def getSpan (s : State) (p : Nat) : SpanPort := mget {} s.span.ports p
/-- Write a span port. -/
def setSpan (s : State) (p : Nat) (x : SpanPort) : State := { s with span := { s.span with ports := mput s.span.ports p x } }

/-- Apply f to a core. -/
def modCore (s : State) (u : Nat) (f : Core → Core) : State := setCore s u (f (getCore s u))
/-- Apply f to an SFU. -/
def modSfu (s : State) (u : Nat) (f : Sfu → Sfu) : State := setSfu s u (f (getSfu s u))
/-- Apply f to an MU. -/
def modMu (s : State) (u : Nat) (f : Mu → Mu) : State := setMu s u (f (getMu s u))
/-- Apply f to a switch. -/
def modSw (s : State) (u : Nat) (f : Switch → Switch) : State := setSw s u (f (getSw s u))
/-- Apply f to a router. -/
def modRouter (s : State) (u : Nat) (f : Router → Router) : State := setRouter s u (f (getRouter s u))
/-- Apply f to a mesh interface. -/
def modMif (s : State) (u : Nat) (f : MeshIf → MeshIf) : State := setMif s u (f (getMif s u))
/-- Apply f to a field. -/
def modField (s : State) (i : Nat) (f : Field → Field) : State := setField s i (f (getField s i))
/-- Apply f to a polder. -/
def modPolder (s : State) (p : Nat) (f : Polder → Polder) : State := setPolder s p (f (getPolder s p))
/-- Apply f to a context. -/
def modCtx (s : State) (c : Nat) (f : Ctx → Ctx) : State := setCtx s c (f (getCtx s c))
/-- Apply f to a MEC. -/
def modMec (s : State) (n : Nat) (f : Mec → Mec) : State := setMec s n (f (getMec s n))
/-- Apply f to a stream engine. -/
def modSe (s : State) (e : Nat) (f : Se → Se) : State := setSe s e (f (getSe s e))
/-- Apply f to a command queue. -/
def modQ (s : State) (q : Nat) (f : CmdQ → CmdQ) : State := setQ s q (f (getQ s q))
/-- Apply f to a Nimmos port. -/
def modPort (s : State) (p : Nat) (f : NPort → NPort) : State := setPort s p (f (getPort s p))
/-- Apply f to a span port. -/
def modSpan (s : State) (p : Nat) (f : SpanPort → SpanPort) : State := setSpan s p (f (getSpan s p))
/-- Apply f to a power domain. -/
def modDom (s : State) (d : Nat) (f : Dom → Dom) : State := setDom s d (f (getDom s d))
/-- Apply f to the boot and repair state. -/
def modBoot (s : State) (f : Boot → Boot) : State := { s with boot := f s.boot }
/-- Apply f to the security state. -/
def modSec (s : State) (f : Sec → Sec) : State := { s with sec := f s.sec }
/-- Apply f to the power state. -/
def modPower (s : State) (f : Power → Power) : State := { s with power := f s.power }
/-- Apply f to the configuration subsystem. -/
def modConf (s : State) (f : Conf → Conf) : State := { s with conf := f s.conf }
/-- Apply f to the host interface. -/
def modHost (s : State) (f : HostIf → HostIf) : State := { s with host := f s.host }

/-- Fold over a list, the state last. -/
def forEach {α : Type} (l : List α) (f : α → State → State) (s : State) : State := l.foldl (fun s a => f a s) s

/-! ## Counters and flags (00 R12, R13) -/

/-- Advance an event counter by n (00 R13). -/
def addCnt (c : Cnt) (n : Nat) : Cnt :=
  { count := BitVec.ofNat 48 (c.count.toNat + n), wrap := c.wrap || decide (c.count.toNat + n ≥ 2 ^ 48) }

/-- Advance an event counter by one (00 R13). -/
def incCnt (c : Cnt) : Cnt := addCnt c 1

/-- An event counter as a 64-bit word: COUNT, WRAP in bit 63 (00 R13). -/
def cntWord (c : Cnt) : W64 := BitVec.ofNat 64 (c.count.toNat + 2 ^ 63 * b2n c.wrap)

/-- Advance a 32-bit count that saturates. -/
def satInc (w : W32) : W32 := if w = BitVec.allOnes 32 then w else w + 1

/-- Set bit i. -/
def setBit {n : Nat} (w : BitVec n) (i : Nat) : BitVec n := w ||| BitVec.ofNat n (2 ^ i)

/-- Clear bit i. -/
def clrBit {n : Nat} (w : BitVec n) (i : Nat) : BitVec n := w &&& ~~~(BitVec.ofNat n (2 ^ i))

/-- Bit i. -/
def bit {n : Nat} (w : BitVec n) (i : Nat) : Bool := w.getLsbD i

/-! ## Free values -/

/-- Take a free value (log 3, DESIGN CHOICE). -/
def takeFree (s : State) : W64 × State := (Config.freeValue s.free, { s with free := s.free + 1 })

/-! ## Events (12 R423, R424) -/

/-- Raise an event: EVT_SEQ advances; the record is logged unless the log is full (12 R424). -/
def raise (code : Nat) (polder ctx unit : Option Nat) (arg : Nat) (s : State) : State :=
  let h := s.host
  let e : Event :=
    { code := BitVec.ofNat 16 code, polder := polder.map (BitVec.ofNat 8), ctx := ctx.map (BitVec.ofNat 13),
      unit := unit.map (BitVec.ofNat 20), seq := h.nextEvt, arg := BitVec.ofNat 64 arg, tick := s.tick.count }
  if h.log.length < 4096 then { s with host := { h with log := h.log ++ [e], nextEvt := h.nextEvt + 1 } }
  else { s with host := { h with evtLost := incCnt h.evtLost, nextEvt := h.nextEvt + 1 } }

/-- Place an event before those of a higher code. -/
def insertEvent (e : Event) : List Event → List Event
  | [] => [e]
  | x :: l => if e.code.toNat ≤ x.code.toNat then e :: x :: l else x :: insertEvent e l

/-- The events raised since state s0 take their EVT_SEQ values in ascending order of code (17 R560; log 41, DEDUCED). -/
def eventsByCode (s0 s : State) : State :=
  let n := s0.host.log.length
  let l := (s.host.log.drop n).foldr insertEvent []
  { s with host := { s.host with
      log := s.host.log.take n ++ l.zipIdx.map (fun x => { x.1 with seq := s0.host.nextEvt + BitVec.ofNat 32 x.2 }) } }

/-! ## Completions of host accesses (12 R412, R421, R422) -/

/-- Is a Nimmos port UP. -/
def portUp (s : State) (p : Nat) : Bool := (getPort s p).st == 2

/-- The port a frame leaves on: the port asked for, the other while only that one is UP (12 R421), none while neither is. -/
def outPort (s : State) (p : Nat) : Option Nat :=
  if portUp s p then some p else if portUp s (1 - p) then some (1 - p) else none

/-- Is a frame limited by ECREDIT (12 R411). -/
def creditFrame (f : TxFrame) : Bool := match f with | .cpl _ _ _ _ => false | _ => true

/-- EVT and UMSG frames of a port that are unacknowledged. -/
def creditUsed (x : NPort) : Nat := (x.tx.filter (fun e => creditFrame e.2)).length

/-- Send frames in order: each takes TX_NEXT and stands in the replay buffer, which never holds more than 2,048; one without room, or an
EVT or UMSG frame without credit, waits (12 R409 to R411). -/
def pumpTx : List TxFrame → NPort → NPort
  | [], x => x
  | f :: l, x =>
    if x.tx.length < 2048 && (!creditFrame f || decide (creditUsed x < x.ecredit)) then
      pumpTx l { x with tx := x.tx ++ [(x.txNext, f)], txNext := x.txNext + 1 }
    else pumpTx l { x with txWait := x.txWait ++ [f] }

/-- Send a sequenced frame on a port, behind those that wait. -/
def sendFrame (p : Nat) (f : TxFrame) (s : State) : State :=
  modPort s p (fun x => pumpTx (x.txWait ++ [f]) { x with txWait := [] })

/-- Complete a host access (12 R412); JTAG takes its data and status (17 R562). -/
def complete (h : Req) (status : Nat) (data : List W64) (s : State) : State :=
  if h.port = 2 then
    { s with dbg := { s.dbg with jData := data.headD 0, jStatus := BitVec.ofNat 3 status, jDone := true } }
  else
    match outPort s h.port with
    | some p => sendFrame p (.cpl h.sender h.tag status (if status = 0 then data else [])) s
    | none => s

/-! ## Completion of commands (12 R427 to R430) -/

/-- Statuses (12 R417). -/
def stOk : Nat := 0
/-- STATE. -/
def stState : Nat := 1
/-- PDOWN. -/
def stPdown : Nat := 2
/-- BUSY. -/
def stBusy : Nat := 3
/-- PERM. -/
def stPerm : Nat := 4
/-- ADDR. -/
def stAddr : Nat := 5
/-- INTEG. -/
def stInteg : Nat := 6

/-- The completion entry of a command (12 R428). -/
def cqEntry (c : Cmd) (phase : Bool) (head : Nat) (status : Nat) : W64 :=
  BitVec.ofNat 64 (c.cid.toNat + 2 ^ 32 * status + 2 ^ 40 * b2n phase + 2 ^ 48 * head)

/-- Write the completion of the command in progress in queue q (12 R427, R430): the entry at CQ_TAIL, Q_DONE, CMD_DONE where
asked for. -/
def finishOne (q status result : Nat) (s : State) : State :=
  let x := getQ s q
  match x.cur with
  | none => s
  | some c =>
    let t := x.cqTail.toNat
    let cq := mput (mput x.cq (2 * t) (cqEntry c x.phase x.sqHead.toNat status)) (2 * t + 1) (BitVec.ofNat 64 result)
    let x' := { x with cq := cq, cqTail := x.cqTail + 1, phase := if t = 63 then !x.phase else x.phase,
                       cur := none, done := incCnt x.done }
    let s' := setQ s q x'
    if c.flags.getLsbD 0 then raise 0x10 none none none (q + 2 ^ 32 * c.cid.toNat) s' else s'

/-- Words i to i + 7 of a submission ring: descriptor i (12 R428). -/
def descriptor (x : CmdQ) (i : Nat) : Cmd :=
  let w := fun k => mget (0 : W64) x.sq (8 * i + k)
  { opc := (w 0).extractLsb' 0 8, flags := (w 0).extractLsb' 8 8, cid := (w 0).extractLsb' 32 32,
    a0 := w 1, a1 := w 2, a2 := w 3, a3 := w 4 }

/-- Entries of a ring of 64 from a up to but not including b. -/
def ringCount (a b : Nat) : Nat := (b + 64 - a) % 64

/-- May queue q take a command (12 R427): a descriptor is pending, none is in progress, the completion ring has room. -/
def qReady (x : CmdQ) : Bool :=
  x.cur.isNone && decide (x.sqHead ≠ x.sqTail) && decide (ringCount x.cqHead.toNat x.cqTail.toNat < 63)

/-- Take the descriptor at SQ_HEAD (12 R427). -/
def takeCmd (q : Nat) (s : State) : State :=
  let x := getQ s q
  let c := descriptor x x.sqHead.toNat
  setQ s q { x with cur := some c, opc := c.opc, cid := c.cid, sqHead := x.sqHead + 1 }

/-- The opcodes that name a command (12 R429, 13 R455, 14 R485, 15 R523, 16 R547, 17 R563). -/
def knownOpc (o : Nat) : Bool :=
  (decide (0x01 ≤ o) && decide (o ≤ 0x09)) || (decide (0x10 ≤ o) && decide (o ≤ 0x17)) || (decide (0x20 ≤ o) && decide (o ≤ 0x25)) ||
    (decide (0x40 ≤ o) && decide (o ≤ 0x4A)) || (decide (0x60 ≤ o) && decide (o ≤ 0x66)) || o == 0x80 || o == 0x81 || o == 0xA0

/-- Commands at the head of queue q that carry a reserved opcode complete with PERM (12 R429); with BUSY until READY (15 R500). -/
def skipReserved : Nat → Nat → State → State
  | 0, _, s => s
  | n + 1, q, s =>
    let x := getQ s q
    if qReady x && !knownOpc (descriptor x x.sqHead.toNat).opc.toNat then
      skipReserved n q (finishOne q (if s.boot.ready then stPerm else stBusy) 0 (takeCmd q s))
    else s

/-- Complete the command in progress in queue q; reserved opcodes behind it complete too. -/
def finish (q status result : Nat) (s : State) : State := skipReserved 64 q (finishOne q status result s)

/-- The configuration command in queue q is refused with a code at an offset and a unit (11 R396, R397). -/
def refuseAt (q : Nat) (p : Option Nat) (code off : Nat) (unit : Option Nat) (s : State) : State :=
  let s := modConf s (fun k => { k with
    busy := false, reason := BitVec.ofNat 8 code, reasonV := true, whereOff := BitVec.ofNat 32 off,
    whereUnit := BitVec.ofNat 20 (unit.getD 0), whereUnitV := unit.isSome })
  finish q stInteg 0 (raise 0x23 p none none code s)

/-- The command row with opcode opc run from queue q: if the descriptor at the queue's head carries that opcode, it is
taken, and f gives its effect, which may complete it or leave it in progress; until READY it completes with BUSY (15 R500).
Else nothing happens. -/
def hostCmd (q opc : Nat) (f : Cmd → State → State) (s : State) : Out :=
  if q ≥ 8 then .fault (.noSuchObject q)
  else
    let x := getQ s q
    if qReady x && (descriptor x x.sqHead.toNat).opc == BitVec.ofNat 8 opc then
      if s.boot.ready then .next (f (descriptor x x.sqHead.toNat) (takeCmd q s)) else .next (finish q stBusy 0 (takeCmd q s))
    else .next s

/-! ## Polders: rectangles, units (02 R64, R65) -/

/-- Does a rectangle hold cluster column c, row y. -/
def inRect (r : Rect) (c y : Nat) : Bool :=
  decide (r.c0 ≤ c) && decide (c ≤ r.c1) && decide (r.r0 ≤ y) && decide (y ≤ r.r1)

/-- Does a list of rectangles hold unit u. -/
def inRects (rs : List Rect) (u : Nat) : Bool := rs.any (fun r => inRect r (unitX u / 12) (unitY u))

/-- The rectangles of a polder. -/
def rectsOf (x : Polder) : List Rect :=
  match x.cfg with
  | some c => c.rects
  | none => []

/-- The polder that unit u lies in; none: u is unassigned (02 R65). -/
def ownerOf (s : State) (u : Nat) : Option Nat :=
  if isUnit u then (s.polders.find? (fun e => e.2.state != 0 && inRects (rectsOf e.2) u)).map (·.1) else none

/-- Insert into a rising list without repeats. -/
def insertNat (n : Nat) : List Nat → List Nat
  | [] => [n]
  | m :: l => if n < m then n :: m :: l else if n = m then m :: l else m :: insertNat n l

/-- The numbers from a to b, both included. -/
def span (a b : Nat) : List Nat := (List.range (b + 1 - a)).map (· + a)

/-- The clusters of a list of rectangles, by the unit ID of their first column, rising: number c is cluster c of the polder (11 R395). -/
def rectClusters (rs : List Rect) : List Nat :=
  (rs.flatMap (fun r => (span r.r0 r.r1).flatMap (fun y => (span r.c0 r.c1).map (fun c => unitAt (12 * c) y)))).foldl
    (fun l n => insertNat n l) []

/-- The units of a list of rectangles, rising. -/
def rectUnits (rs : List Rect) : List Nat := (rectClusters rs).flatMap (fun k => span k (k + 11))

/-- The units of polder p. -/
def polderUnits (s : State) (p : Nat) : List Nat := rectUnits (rectsOf (getPolder s p))

/-- The fields that hold a unit of a list of rectangles, rising. -/
def rectFields (rs : List Rect) : List Nat :=
  (rs.flatMap (fun r =>
    (span (r.r0 / 96) (r.r1 / 96)).flatMap (fun fy => (span (12 * r.c0 / 96) (12 * r.c1 / 96)).map (fun fx => 8 * fy + fx)))).foldl
    (fun l n => insertNat n l) []

/-- The fields of polder p. -/
def polderFields (s : State) (p : Nat) : List Nat := rectFields (rectsOf (getPolder s p))

/-- The polders in a state, rising. -/
def poldersIn (s : State) (st : Nat) : List Nat := (s.polders.filter (fun e => e.2.state == st)).map (·.1)

/-! ## Entries of the treatment digest (16 R538 to R541) -/

/-- Zero bytes. -/
def zeros (n : Nat) : List Byte := List.replicate n 0

/-- A 512-bit digest as 64 bytes. -/
def digestBytes (d : W512) : List Byte := toLe 64 d.toNat

/-- The mclk of now: 800 MHz. -/
def mclk (s : State) : Nat := s.now * 8 / 17

/-- The order of an event among those of its mclk (16 R540), by type: FAULT, FRAME, then as the types are numbered; an OPEN, which
the rule does not name, stands where it came. -/
def trRank (typ : Nat) : Nat := if typ = 3 then 2 else if typ = 2 then 3 else typ

/-- Does event e, the later of the two, go before event x: both in one mclk, and its rank lower (16 R540). -/
def trBefore (e x : TrEvent) : Bool :=
  e.mclk == x.mclk && x.typ != 1 && e.typ != 1 && decide (trRank e.typ < trRank x.typ)

/-- Take event e into the queue, which is given newest first. -/
def trInsert (e : TrEvent) : List TrEvent → List TrEvent
  | [] => [e]
  | x :: l => if trBefore e x then x :: trInsert e l else e :: x :: l

/-- Queue an event for the digests of contexts, in ascending context number (16 R541); an event that reaches none is none. -/
def trEvent (typ : Nat) (ctxs : List (Nat × List Byte)) (s : State) : State :=
  if ctxs.isEmpty then s
  else
    let sorted := ctxs.foldl (fun m e => mput m e.1 e.2) ([] : Map (List Byte))
    modSec s (fun x => { x with
      queue := (trInsert { typ := typ, tick := s.tick.count, mclk := mclk s, ctxs := sorted } x.queue.reverse).reverse })

/-- The contexts of polder p in one of the given states, rising. -/
def ctxsOf (s : State) (p : Nat) (states : List Nat) : List Nat :=
  (s.ctxs.filter (fun e => e.2.polder.toNat == p && states.contains e.2.state)).map (·.1)

/-- The frame an abrupt halt left, or the frame in progress. -/
def frameOf (x : Polder) : Option Frame := match x.frame with | some f => some f | none => x.await

/-- FLAGS of a FRAME or LOST entry (16 R539). -/
def frameFlags (f : Frame) : Nat :=
  f.causes.toNat + 4 * b2n f.throttled + 8 * b2n f.isReplay + 16 * b2n f.dikewatched

/-- The batch of a frame, by context. -/
def batchCtxs (f : Frame) : List Nat := f.batch.map (·.ctx)

/-- LOST entries for a frame (16 R539). -/
def lostEvent (f : Frame) (cause : Nat) (s : State) : State :=
  trEvent 4 ((batchCtxs f).map (fun c => (c, toLe 8 f.num.toNat ++ [BitVec.ofNat 8 cause, BitVec.ofNat 8 (frameFlags f)] ++ zeros 6))) s

/-- A fault event in the batch of a frame (02 R78, 16 R539): FAULTS of each context advances and FAULT entries are queued. -/
def faultEvent (f : Frame) (unit cause arg : Nat) (s : State) : State :=
  let s := forEach (batchCtxs f) (fun c s => modCtx s c (fun x => { x with faults := incCnt x.faults })) s
  trEvent 3 ((batchCtxs f).map (fun c =>
    (c, toLe 4 unit ++ [BitVec.ofNat 8 cause] ++ zeros 3 ++ toLe 8 f.num.toNat ++ toLe 8 arg))) s

/-- The states in which a context takes CONFIG and WEIGHTS entries: OPEN, READY, RUNNING, PARKED (02 R83, 16 R536). -/
def liveStates : List Nat := [1, 2, 3, 4]

/-- WEIGHTS entries for every live context of polder p (16 R536, R537). -/
def weightsEvent (p : Nat) (digest : W512) (unmeasured : Bool) (s : State) : State :=
  trEvent 7 ((ctxsOf s p liveStates).map (fun c =>
    (c, (if unmeasured then zeros 64 else digestBytes digest) ++ toLe 4 (b2n unmeasured) ++ zeros 4))) s

/-- WGT_STAT.VALID of polder p returns to 0 (16 R537). -/
def weightsInvalid (p : Nat) (s : State) : State :=
  let x := getPolder s p
  if x.wgtValid then
    weightsEvent p 0 true (raise 0x83 (some p) none none 0 (setPolder s p { x with wgtValid := false }))
  else s

/-! ## An ended frame's contexts (02 R81) -/

/-- A frame reported lost (02 R81): each context of its batch goes to PARKED with PARK_PEND clear, and the loss enters its digest with
the HALT_CAUSE of the halt that ended the frame (16 R539). -/
def loseFrame (f : Frame) (s : State) : State :=
  let s := lostEvent f f.haltCause.toNat s
  forEach (batchCtxs f) (fun c s => modCtx s c (fun x => { x with state := 4, parkPend := false })) s

/-! ## An empty queue (log 1, DESIGN CHOICE) -/

/-- A field's cclk as a number of 10 MHz by throttle step (01 R27, 02 R60). -/
def stepFreq (step : Nat) : Nat := if step = 0 then 170 else if step = 1 then 145 else if step = 2 then 120 else 85

/-- One base-clock period in a field: at step S0 one cclk, at slower steps a cclk whenever 170 units of 10 MHz are full. -/
def idleField (x : Field) : Field :=
  if (x.up || x.resetPhase != 0) && !x.dark && x.step < 4 then
    let a := x.acc + stepFreq x.step
    if a ≥ 170 then { x with acc := a - 170, cclk := x.cclk + 1 } else { x with acc := a }
  else x

/-- One base-clock period in which no command is given (log 1, DESIGN CHOICE): the fields' clocks run. -/
def idle (s : State) : State :=
  { s with now := s.now + 1, tlbBusy := false, fields := s.fields.map (fun e => (e.1, idleField e.2)) }

end Sys2Proof.Machine
end

