-- ==== Sys2Proof/Machine/MeshOps.lean ====
section
/-! DEFINITION. The routed mesh (07): opcodes, replies, where an endpoint injects, the route tables, and one hop of a
packet. A packet moves whole, one hop at a time (log 9, DESIGN CHOICE). Readings: log 24, DEDUCED. -/

namespace Sys2Proof.Machine

open Sys2Proof

/-! ## Opcodes and NACK codes (07 R252, R254) -/

/-- MSG. -/
def opMsg : Nat := 0x01
/-- WRITE. -/
def opWrite : Nat := 0x02
/-- READ. -/
def opRead : Nat := 0x03
/-- SYNC. -/
def opSync : Nat := 0x04
/-- WCLAIM. -/
def opWclaim : Nat := 0x05
/-- WDONE. -/
def opWdone : Nat := 0x06
/-- RELEASE. -/
def opRelease : Nat := 0x07
/-- DREAD. -/
def opDread : Nat := 0x08
/-- DWRITE. -/
def opDwrite : Nat := 0x09
/-- DBG. -/
def opDbg : Nat := 0x0A
/-- ACK. -/
def opAck : Nat := 0x10
/-- RDATA. -/
def opRdata : Nat := 0x11
/-- WVAL. -/
def opWval : Nat := 0x12
/-- WSAT. -/
def opWsat : Nat := 0x13
/-- NACK. -/
def opNack : Nat := 0x14
/-- MC_ACK. -/
def opMcAck : Nat := 0x15
/-- MC_NACK. -/
def opMcNack : Nat := 0x16

/-- TARGET_RESET. -/
def nkReset : Nat := 1
/-- DIKE_DENY. -/
def nkDike : Nat := 2
/-- BAD_ADDR. -/
def nkAddr : Nat := 3
/-- RDONLY. -/
def nkRdonly : Nat := 4
/-- NO_UNIT. -/
def nkNoUnit : Nat := 5
/-- TARGET_OFF. -/
def nkOff : Nat := 6
/-- BAD_OP. -/
def nkBadOp : Nat := 7
/-- FIFO_FULL. -/
def nkFull : Nat := 8
/-- FIFO_EMPTY. -/
def nkEmpty : Nat := 9
/-- WC_FULL. -/
def nkWcFull : Nat := 10
/-- NO_ROUTE. -/
def nkNoRoute : Nat := 11
/-- TIMEOUT. -/
def nkTimeout : Nat := 12

/-- The status of a host access that a NACK ends (12 R418). -/
def nackStatus (code : Nat) : Nat :=
  if code = nkDike || code = nkRdonly || code = nkBadOp then stPerm
  else if code = nkAddr || code = nkNoUnit then stAddr
  else if code = nkOff then stPdown
  else stBusy

/-- The virtual channel of a request (07 R252, R256). -/
def vcOf (op : Nat) (hold : Bool) : Nat :=
  if op = opSync then 0
  else if op = opMsg then 1
  else if op = opRelease then 3
  else if op = opWrite && hold then 3
  else 2

/-- The net an opcode travels on (07 R246). -/
def netOf (op : Nat) : Net := if op ≥ 0x10 then .rpl else .req

/-- Does LEN agree with the payload that the opcode carries (07 R250, R252). -/
def lenOk (p : Packet) : Bool :=
  if p.op = opMsg then decide (p.len < 4) && p.payload.length == p.len + 1
  else if p.op = opWrite then decide (p.len < 32) && p.payload.length == p.len + 1
  else if p.op = opRead then decide (p.len < 32) && p.payload.isEmpty
  else if p.op = opSync || p.op = opWclaim || p.op = opWdone then p.len == 0 && p.payload.length == 1
  else if p.op = opRelease then p.len == 0 && p.payload.isEmpty
  else true

/-- A reply to a request (07 R253). -/
def replyTo (p : Packet) (responder op : Nat) (len daddr arg : Nat) (payload : List W64) : Packet :=
  { dest := p.src, op := op, tag := p.tag, len := len, daddr := daddr, src := responder, seq := p.seq, ctx := p.ctx,
    vc := if op = opMcAck || op = opMcNack then 2 else p.vc, arg := arg, payload := payload }

/-- Flits of a packet (07 R249): head, route, payload. -/
def flitsOf (p : Packet) : Nat := 2 + p.payload.length

/-! ## Fields down, links down -/

/-- Do the routers of field f forward what they hold: it is up, or in the first steps of a field reset (15 R509). -/
def forwards (s : State) (f : Nat) : Bool := ((getField s f).up && !(getField s f).dark) || (getField s f).resetPhase == 1

/-- Does the logic of field f run: it is up and its regulator has not switched it off (14 R465). -/
def lit (s : State) (f : Nat) : Bool := (getField s f).up && !(getField s f).dark

/-- Is field f powered: up, or in a field reset, in which its crossings keep running (01 R14). -/
def powered (s : State) (f : Nat) : Bool := (getField s f).up || (getField s f).resetPhase != 0

/-- Physical row of local row j of field f: the j-th row of the map, or j where none is recorded. -/
def physRow (s : State) (f j : Nat) : Nat := (getField s f).rowMap.getD j j

/-- ROW of the physical row that serves the row of unit u (15 R504): a row that RPR_CLEAR has cleared stays as it was until the
field is next remapped (15 R507). -/
def rowMark (s : State) (u : Nat) : Nat :=
  let f := fieldOf u
  let r := physRow s f (localY u)
  match (getField s f).cleared.find? (fun c => c.1 == r && c.2.1 == 3) with
  | some c => c.2.2
  | none => (mget ({} : RowMap) s.boot.fmap.rows (100 * f + r)).row.toNat

/-- Is field f fenced whole (01 R25). -/
def fieldFenced (s : State) (f : Nat) : Bool := s.boot.fmap.fenced.getLsbD f

/-- Is field f down (07 R261): at S4, its domain off or starting, or fenced whole. -/
def fieldDown (s : State) (f : Nat) : Bool := !(getField s f).up || fieldFenced s f

/-- The set of fields that are down, as a 64-bit map. -/
def downSet (s : State) : W64 :=
  BitVec.ofNat 64 ((List.range 64).foldl (fun n f => n + 2 ^ f * b2n (fieldDown s f)) 0)

/-- Bit of a side in RT_STAT.DOWN (07 R292): N, E, S, W. -/
def dirBit (d : Dir) : Nat := match d with | .n => 0 | .e => 1 | .s => 2 | .w => 3

/-- The opposite side. -/
def dirOpp (d : Dir) : Dir := match d with | .n => .s | .e => .w | .s => .n | .w => .e


/-- The neighbour of a unit position on side d, if it is in the grid (01 R26). -/
def neighbour (u : Nat) (d : Dir) : Option Nat :=
  match d with
  | .n => if unitY u = 0 then none else some (u - 1024)
  | .s => if unitY u ≥ 767 then none else some (u + 1024)
  | .w => if unitX u = 0 then none else some (u - 1)
  | .e => if unitX u ≥ 767 then none else some (u + 1)

/-- Is the link of router u on side d down in a net (07 R279): it has failed, its field crossing has stopped, or a row at either
end is fenced with ROW = 2. -/
def linkDown (s : State) (net : Net) (u : Nat) (d : Dir) : Bool :=
  bit (getRouter s u).down (dirBit d + (match net with | .req => 0 | .rpl => 4)) || rowMark s u == 2 ||
    (match neighbour u d with
     | some v => rowMark s v == 2 || (fieldOf v != fieldOf u && !(powered s (fieldOf u) && powered s (fieldOf v)))
     | none => false)

/-- The neighbour of a field on side d. -/
def fieldNbr (f : Nat) (d : Dir) : Option Nat :=
  match d with
  | .n => if f < 8 then none else some (f - 8)
  | .s => if f ≥ 56 then none else some (f + 8)
  | .w => if f % 8 = 0 then none else some (f - 1)
  | .e => if f % 8 = 7 then none else some (f + 1)

/-! ## Edge positions (07 R263) -/

/-- The side and the global clockwise position, 96 k + e, that a router holds on side d, if it lies on that edge. -/
def edgePos (u : Nat) (d : Dir) : Option Nat :=
  match d with
  | .n => if unitY u = 0 then some (unitX u) else none
  | .e => if unitX u = 767 then some (unitY u) else none
  | .s => if unitY u = 767 then some (767 - unitX u) else none
  | .w => if unitX u = 0 then some (767 - unitY u) else none

/-- The router at a global clockwise position of a side. -/
def edgeRouter (d : Dir) (g : Nat) : Nat :=
  match d with
  | .n => unitAt g 0
  | .e => unitAt 767 g
  | .s => unitAt (767 - g) 767
  | .w => unitAt 0 (767 - g)

/-- Sides by number: north 0, east 1, south 2, west 3 (07 R263). -/
def sideOf (n : Nat) : Dir := if n = 0 then .n else if n = 1 then .e else if n = 2 then .s else .w

/-- The side of an endpoint with y = 1023, by its x: MECs and span ports by number, the rest north. -/
def epSide (x : Nat) : Dir :=
  if x < 32 then sideOf (x / 8) else if x < 48 then sideOf ((x - 32) / 4) else .n

/-- The global positions that an endpoint with y = 1023 owns on its side (07 R263). -/
def epPositions (x : Nat) : List Nat :=
  if x < 32 then span (96 * (x % 8) + 8) (96 * (x % 8) + 87)
  else if x < 48 then
    let k := 2 * ((x - 32) % 4)
    span (96 * k) (96 * k + 7) ++ span (96 * (k + 1)) (96 * (k + 1) + 7)
  else if x = 48 then span (96 + 88) (96 + 95) ++ span (192 + 88) (192 + 95)
  else if x = 49 then span (288 + 88) (288 + 95) ++ span (384 + 88) (384 + 95)
  else span 88 95

/-- The edge fields of an endpoint with y = 1023, the lower k first. -/
def epFields (x : Nat) : List Nat :=
  (epPositions x).foldl (fun l g =>
    let f := fieldOf (edgeRouter (epSide x) g)
    if l.contains f then l else l ++ [f]) []

/-- The index among an endpoint's positions at which it injects a packet to dest (07 R580, 10 R338, 12 R416, 13 R440). -/
def epIndex (x dest : Nat) : Nat :=
  if x < 32 then (if isUnit dest then (unitX dest + unitY dest) % 80 else 40)
  else
    let n := if x = 50 then 8 else 16
    if isUnit dest then (unitX dest + unitY dest) % n else unitX dest % n

/-- Where an endpoint injects: a router, with DTR where it is not the first choice, or its causeway port (10 R338, R339). -/
inductive Entry where
  | router (u : Nat) (dtr : Bool)
  | causeway (f : Nat)
  deriving DecidableEq, Repr

/-- The router of an endpoint's position i, on its side. -/
def epRouter (x i : Nat) : Nat := edgeRouter (epSide x) ((epPositions x).getD i 0)

/-- The router of an endpoint's position j past its first choice for dest, wrapping. -/
def epNext (x dest j : Nat) : Nat := epRouter x ((epIndex x dest + j) % (epPositions x).length)

/-- How many positions endpoint x passes over for dest: the first whose link is up; none: it uses its causeway port. -/
def epSkip (s : State) (net : Net) (x dest : Nat) : Option Nat :=
  if (epFields x).all (fun f => fieldDown s f) then none
  else (List.range (epPositions x).length).find? (fun j =>
    let r := epNext x dest j
    !fieldDown s (fieldOf r) && !linkDown s net r (epSide x))

/-- The router of unit u, or that at local (48, 48) of a field controller (07 R262). -/
def homeRouter (u : Nat) : Nat := if isFc u then unitAt (96 * (unitX u % 8) + 48) (96 * (unitX u / 8) + 48) else u

/-- The injection of a packet to dest by the sender src in a net: a unit and a field controller inject at their own router. -/
def entryOf (s : State) (net : Net) (src dest : Nat) : Entry :=
  if unitY src = 1023 then
    match epSkip s net (unitX src) dest with
    | some j => .router (epNext (unitX src) dest j) (j != 0)
    | none => .causeway ((epFields (unitX src)).headD 0)
  else .router (homeRouter src) false

/-! ## Route tables (07 R260, R265; 15 R497; 11 R391) -/

/-- Codes 1 to 4 by side; causeway codes 5 to 8. -/
def dirCode (d : Dir) : Nat := 1 + dirBit d

/-- The side of a code 1 to 4. -/
def codeDir (c : Nat) : Dir := if c = 1 then .n else if c = 2 then .e else if c = 3 then .s else .w

/-- The side of the next field from g toward t under the turn rule (15 R497): the row first; none at t. -/
def toward (g t : Nat) : Option Dir :=
  if g / 8 > t / 8 then some .n
  else if g / 8 < t / 8 then some .s
  else if g % 8 > t % 8 then some .w
  else if g % 8 < t % 8 then some .e
  else none

/-- The field at which a route from field g reaches the side of endpoint x (07 R264): its own column or row. -/
def edgeFieldFrom (g x : Nat) : Nat :=
  match epSide x with
  | .n => g % 8
  | .s => 56 + g % 8
  | .e => 8 * (g / 8) + 7
  | .w => 8 * (g / 8)

/-- Is field f in a set. -/
def inSet (w : W64) (f : Nat) : Bool := w.getLsbD f

/-- Are an endpoint's edge fields all in the down set: its causeway port carries its traffic (10 R339). -/
def epByCauseway (down : W64) (x : Nat) : Bool := (epFields x).all (inSet down)

/-- Boot field table of a router in field g, for target field t (15 R497): PRIMARY by the turn rule, ALT the causeway of the same direction. -/
def bootField (g t : Nat) : Nat :=
  match toward g t with
  | some d => dirCode d + 16 * (dirCode d + 4)
  | none => 0

/-- Boot endpoint table of a router in field g, for endpoint x (15 R497). -/
def bootEp (down : W64) (g x : Nat) : Nat :=
  if epByCauseway down x then
    match toward g ((epFields x).headD 0) with
    | some d => (dirCode d + 4) + 16 * (dirCode d + 4)
    | none => 15 + 16 * 15
  else
    match toward g (edgeFieldFrom g x) with
    | some d => dirCode d + 16 * (dirCode d + 4)
    | none => 9 + 16 * 9

/-- The physical rows that the logical rows of a field are mapped to, by its row map; before its first, each to its own (01 R22). -/
def mappedRows (m : List Nat) : List Nat := if m.isEmpty then List.range 96 else m

/-- The j-th physical row of a field, counting from the north, that no logical row is mapped to (15 R498). -/
def spareRow (m : List Nat) (j : Nat) : Nat :=
  ((List.range 100).filter (fun r => !(mappedRows m).contains r)).getD j 99

/-- Boot row table of the router at local row ly of a field with row map m (15 R497, R498): entry i. -/
def bootRow (m : List Nat) (ly i : Nat) : Nat :=
  if i < 96 then (if i = ly then 0 else if i < ly then 1 else 2)
  else
    let p := spareRow m (i - 96)
    let rows := mappedRows m
    if p < rows.getD ly ly then (if ly = 0 || rows.getD (ly - 1) 0 < p then 0 else 1)
    else match rows[ly + 1]? with | some r => if r > p then 0 else 2 | none => 0

/-- The route tables of a net in a ROUTE body. -/
def netTab (b : RouteBody) (net : Net) : NetTab := match net with | .req => b.req | .rpl => b.rpl

/-- The ROUTE record that applies to router u, the narrowest first (11 R391). -/
def routeRec (b : RouteBank) (u : Nat) : Option RouteBody :=
  match mget? b.routers u with
  | some r => some r
  | none =>
    match mget? b.rows (64 * unitY u + fieldOf u) with
    | some r => some r
    | none => mget? b.fields (fieldOf u)

/-- The bank an EPOCH bit names. -/
def bankOf (s : State) (e : Bool) : RouteBank := if e then s.epoch.bank1 else s.epoch.bank0

/-- Field-table entry of router u. -/
def fieldEntry (b : RouteBank) (net : Net) (u t : Nat) : Nat :=
  match routeRec b u with
  | some r => ((netTab r net).fld.getD t 0xFF).toNat
  | none => bootField (fieldOf u) t

/-- Endpoint-table entry of router u. -/
def epEntry (b : RouteBank) (net : Net) (u x : Nat) : Nat :=
  match routeRec b u with
  | some r => ((netTab r net).ep.getD x 0xFF).toNat
  | none => bootEp b.fenced (fieldOf u) x

/-- Row-table entry of router u. -/
def rowEntry (b : RouteBank) (net : Net) (u i : Nat) : Nat :=
  match routeRec b u with
  | some r => ((netTab r net).row.getD i 0xF).toNat
  | none => bootRow (mget [] b.rowMap (fieldOf u)) (localY u) i

/-- Detour register of router u for a failed output; the boot tables name no detour (log 24, DEDUCED). -/
def detourEntry (b : RouteBank) (net : Net) (u : Nat) (d : Dir) : Nat :=
  match routeRec b u with
  | some r => bitsOf (netTab r net).det.toNat (4 * dirBit d + 3) (4 * dirBit d)
  | none => 15

/-- Boot causeway entry under field g for target field t (15 R497). -/
def bootCwField (down : W64) (g t : Nat) : Nat :=
  match toward g t with
  | none => 8
  | some d =>
    match fieldNbr g d with
    | none => 15
    | some n => if inSet down g || inSet down n then dirCode d else dirCode (dirOpp d) + 4

/-- Causeway entry under field g for a destination: field t (code below 64) or endpoint x (64 + x) (07 R265, 15 R497, 10 R339). -/
def cwEntry (b : RouteBank) (g i : Nat) : Nat :=
  match mget? b.cw g with
  | some l => (l.getD i 15).toNat
  | none =>
    if i < 64 then bootCwField b.fenced g i
    else if epByCauseway b.fenced (i - 64) then
      match toward g ((epFields (i - 64)).headD 0) with
      | some d => dirCode d
      | none => dirCode (epSide (i - 64))
    else bootCwField b.fenced g (edgeFieldFrom g (i - 64))

/-- Index of a destination in a causeway table. -/
def cwIndex (dest : Nat) : Nat :=
  if unitY dest = 1023 then 64 + unitX dest else if unitY dest = 1022 then unitX dest else fieldOf dest

/-- The router of the ramp on side d of field f (01 R35). -/
def rampRouter (f : Nat) (d : Dir) : Nat :=
  let x := 96 * (f % 8)
  let y := 96 * (f / 8)
  match d with
  | .n => unitAt (x + 48) y
  | .e => unitAt (x + 95) (y + 48)
  | .s => unitAt (x + 48) (y + 95)
  | .w => unitAt x (y + 48)

/-! ## What a router does with a head (07 R261, R264) -/

/-- Where a head goes from a router. -/
inductive Hop where
  | out (d : Dir)
  | cw
  | here
  | noRoute
  deriving DecidableEq, Repr

/-- Route within the field to column tx of the row whose row-table index is rowIdx, the last part of 07 R261: rows first, then code
E or W, then columns; a row code CW_N to CW_W leads to that ramp. The fuel bounds how many ramps one head may be sent on to. -/
def hopLocal : Nat → State → RouteBank → Net → Nat → Nat → Nat → Nat → Hop → Hop
  | 0, _, _, _, _, _, _, _, _ => .noRoute
  | n + 1, s, b, net, u, tx, rowIdx, code, atTarget =>
    let r := rowEntry b net u rowIdx
    if r = 15 then .noRoute
    else if r = 1 then .out .n
    else if r = 2 then .out .s
    else if 5 ≤ r && r ≤ 8 then
      let ramp := rampRouter (fieldOf u) (codeDir (r - 4))
      hopLocal n s b net u (localX ramp) (localY ramp) 0 .cw
    else if code = 2 then .out .e
    else if code = 4 then .out .w
    else if tx > localX u then .out .e
    else if tx < localX u then .out .w
    else atTarget

/-- The hop to the ramp on side d of router u's field, and into the causeway. -/
def hopRamp (s : State) (b : RouteBank) (net : Net) (u : Nat) (d : Dir) : Hop :=
  let ramp := rampRouter (fieldOf u) d
  hopLocal 5 s b net u (localX ramp) (localY ramp) 0 .cw

/-- Position of DEST in its field: a unit's own, or (48, 48) for a field controller (07 R261). -/
def targetLocal (dest : Nat) : Nat × Nat := if unitY dest = 1022 then (48, 48) else (localX dest, localY dest)

/-- 07 R264: toward the endpoint's side, then along the edge to the nearest position it owns. -/
def hopEdge (u x : Nat) : Hop :=
  let d := epSide x
  match edgePos u d with
  | none => .out d
  | some g =>
    let ps := epPositions x
    if ps.contains g then .out d
    else
      let dist := fun p => if p ≥ g then p - g else g - p
      let best := ps.foldl (fun q p => if dist p < dist q then p else q) (ps.headD 0)
      if best > g then
        .out (match d with | .n => .e | .e => .s | .s => .w | .w => .n)
      else
        .out (match d with | .n => .w | .e => .n | .s => .e | .w => .s)

/-- Is the field beyond a PRIMARY code's side down (07 R261). -/
def beyondDown (s : State) (u code : Nat) : Bool :=
  if code = 1 || code = 2 || code = 3 || code = 4 then
    match fieldNbr (fieldOf u) (codeDir code) with
    | some f => fieldDown s f
    | none => false
  else false

/-- The entry of router u's tables for a destination: PRIMARY in [3:0], ALT in [7:4]. -/
def routeEntry (b : RouteBank) (net : Net) (u dest : Nat) : Nat :=
  if unitY dest = 1023 then epEntry b net u (unitX dest)
  else fieldEntry b net u (if unitY dest = 1022 then unitX dest else fieldOf dest)

/-- The hop toward a destination by one code of its entry. `spare`: a DBG packet to spare row j of DEST's field, which uses row
entry 96 + j there (17 R550). -/
def hopBy (s : State) (b : RouteBank) (net : Net) (u dest : Nat) (spare : Option Nat) (code : Nat) : Hop :=
  if code = 15 then .noRoute
  else if code = 1 then .out .n
  else if code = 3 then .out .s
  else if 5 ≤ code && code ≤ 8 then hopRamp s b net u (codeDir (code - 4))
  else if code = 9 && unitY dest = 1023 then hopEdge u (unitX dest)
  else
    let t := targetLocal dest
    let row := match spare with | some j => if code = 0 then 96 + j else t.2 | none => t.2
    hopLocal 5 s b net u t.1 row code .here

/-- The spare row that a packet names, if one. -/
def spareOf (p : Packet) : Option Nat := if p.op = opDbg && bitsOf p.arg 4 4 = 1 then some (bitsOf p.arg 6 5) else none

/-- The hop of a packet at router u (07 R261): by ALT where the field beyond PRIMARY's side is down. -/
def hopOf (s : State) (net : Net) (u : Nat) (p : Packet) : Hop :=
  let b := bankOf s p.epoch
  let e := routeEntry b net u p.dest
  hopBy s b net u p.dest (spareOf p) (if beyondDown s u (e % 16) then e / 16 else e % 16)

/-! ## Sending -/

/-- Has the input buffer of a VC at a place room for n flits: 4 of VC0, 8 of each other VC (07 R257); a longer packet takes an empty
buffer (log 9, DESIGN CHOICE). -/
def placeFree (s : State) (net : Net) (l : Loc) (vc n : Nat) : Bool :=
  let k := s.flights.foldl (fun a f => if f.net == net && f.loc == l && f.pkt.vc == vc then a + flitsOf f.pkt else a) 0
  k == 0 || decide (k + n ≤ if vc = 0 then 4 else 8)

/-- Has router u room for a reply of its own on a VC. -/
def answerRoom (s : State) (u vc : Nat) : Bool := placeFree s .rpl (.router u .unit) vc 2

/-- Put a packet with another's SRC in the injection port of endpoint u (13 R445). -/
def injectAt (u : Nat) (p : Packet) (s : State) : State :=
  { s with flights := s.flights ++ [{ net := netOf p.op, loc := .inject, pkt := p, via := some u }] }

/-- The endpoint in whose injection port a flight stands. -/
def sender (f : Flight) : Nat := f.via.getD f.pkt.src

/-- Put a packet in its sender's injection port. -/
def inject (p : Packet) (s : State) : State :=
  { s with flights := s.flights ++ [{ net := netOf p.op, loc := .inject, pkt := p }] }

/-- Place a packet at the port of an endpoint. -/
def arrive (p : Packet) (at_ : Nat) (s : State) : State :=
  { s with flights := s.flights ++ [{ net := netOf p.op, loc := .arrived at_, pkt := p }] }

/-- Answer a request with a reply from a router or a port inside it. -/
def routerReply (u : Nat) (p : Packet) (s : State) : State :=
  { s with flights := s.flights ++ [{ net := .rpl, loc := .router u .unit, pkt := { p with epoch := s.epoch.epoch } }] }

/-- Is the power domain of an endpoint off, or its field at S4 (07 R255). -/
def targetOff (s : State) (d : Nat) : Bool :=
  if isUnit d then !domOn s (fieldOf d) || decide ((getField s (fieldOf d)).step ≥ 4)
  else if isFc d then !domOn s (unitX d)
  else if isMec d then !domOn s (96 + unitX d / 8)
  else if isSp d then !domOn s (96 + (unitX d - 32) / 4)
  else if isNp d then !domOn s 100
  else false

/-- A request offered to its source's injection port (07 R255): NO_UNIT and TARGET_OFF are answered there; a RELEASE gets no reply
(07 R272). -/
def send (p : Packet) (s : State) : State :=
  let nack := fun code => if p.op = opRelease then s else { s with flights := s.flights ++
    [{ net := .rpl, loc := .arrived p.src, pkt := replyTo p p.src opNack 0 0 code [] }] }
  if isUnit p.src && !isEndpoint p.dest then nack nkNoUnit
  else if isEndpoint p.dest && targetOff s p.dest then nack nkOff
  else inject p s

/-- The next SEQ of a source, none of whose outstanding requests carries it (07 R253); a fixed endpoint keeps at most
4,095 outstanding and a core 32, so that one is found. -/
def nextSeq (m : MeshIf) : Nat :=
  ((List.range 4096).map (fun i => (m.seqNext + i) % 4096)).find? (fun q => !m.outst.any (fun o => o.pkt.seq == q)) |>.getD m.seqNext

/-- Issue a request from source u: it takes the next SEQ, is remembered as outstanding with its use, and is sent. -/
def request (u : Nat) (p : Packet) (use : Use) (s : State) : State :=
  let m := getMif s u
  let q := nextSeq m
  let p' := { p with src := u, seq := q, vc := vcOf p.op p.hold }
  let s := setMif s u { m with seqNext := (q + 1) % 4096, outst := m.outst ++ [{ pkt := p', use := use }] }
  send p' s

/-- Do two requests touch a word of one target. -/
def sameWord (p q : Packet) : Bool := p.dest == q.dest && decide (p.daddr ≤ q.daddr + q.len) && decide (q.daddr ≤ p.daddr + p.len)

/-- May a request of a host access leave: fewer than 4,095 are outstanding (12 R416), none that touches a word of it (R419). -/
def hostMay (m : MeshIf) (p : Packet) : Bool := decide (m.outst.length < 4095) && !m.outst.any (fun o => sameWord p o.pkt)

/-- Issue the requests of host accesses that wait at endpoint u, oldest first, as far as they may leave. -/
def sendWaiting (u : Nat) : Nat → State → State
  | 0, s => s
  | n + 1, s =>
    let m := getMif s u
    match m.unsent with
    | x :: l => if hostMay m x.1 then sendWaiting u n (request u x.1 x.2 (setMif s u { m with unsent := l })) else s
    | [] => s

/-- A request of a host access has ended at endpoint u: those that wait go on. -/
def hostEnded (u : Nat) (s : State) : State := sendWaiting u (getMif s u).unsent.length s

/-- A request of a host access: issued, or kept behind those that wait. -/
def hostRequest (u : Nat) (p : Packet) (use : Use) (s : State) : State :=
  let m := getMif s u
  if m.unsent.isEmpty && hostMay m p then request u p use s else setMif s u { m with unsent := m.unsent ++ [(p, use)] }

/-- Issue a request that awaits no reply: a MSG (07 R253, R282). -/
def requestOnly (u : Nat) (p : Packet) (s : State) : State :=
  let m := getMif s u
  let q := nextSeq m
  let p' := { p with src := u, seq := q, vc := vcOf p.op p.hold }
  send p' (setMif s u { m with seqNext := (q + 1) % 4096 })

/-- The outstanding request of source u with a SEQ (07 R283). -/
def findOut (s : State) (u q : Nat) : Option Outst := (getMif s u).outst.find? (fun o => o.pkt.seq == q)

/-- Forget an outstanding request. -/
def dropOut (u q : Nat) (s : State) : State :=
  modMif s u (fun m => { m with outst := m.outst.filter (fun o => o.pkt.seq != q) })

/-- Change an outstanding request. -/
def modOut (u q : Nat) (f : Outst → Outst) (s : State) : State :=
  modMif s u (fun m => { m with outst := m.outst.map (fun o => if o.pkt.seq == q then f o else o) })

/-- The first flight that a test picks, and the list without it. -/
def takeFlight (t : Flight → Bool) : List Flight → Option (Flight × List Flight)
  | [] => none
  | f :: l => if t f then some (f, l) else (takeFlight t l).map (fun r => (r.1, f :: r.2))

/-- Is flight f the oldest of its net, source and VC at the port of endpoint u (07 R285). -/
def oldestFrom (s : State) (u : Nat) (f : Flight) : Bool :=
  (s.flights.find? (fun g => g.loc == .arrived u && g.net == f.net && g.pkt.src == f.pkt.src && g.pkt.vc == f.pkt.vc)) == some f

/-- The oldest packet at the port of endpoint u with opcode op, none of whose source and VC came before it. -/
def arrivedWith (s : State) (u op : Nat) : Option (Packet × State) :=
  (takeFlight (fun f => f.loc == .arrived u && f.pkt.op == op && oldestFrom s u f) s.flights).map
    (fun r => (r.1.pkt, { s with flights := r.2 }))

/-- MESH_ORDER_RISK of a unit that takes a packet with DTR = 1 (07 R284). -/
def orderRisk (u : Nat) (p : Packet) (s : State) : State :=
  if p.dtr then modMif s u (fun m => { m with orderRisk := incCnt m.orderRisk, flags := setBit m.flags 2 }) else s

/-- Send a reply from a responder. -/
def reply (p : Packet) (responder op len daddr arg : Nat) (payload : List W64) (s : State) : State :=
  inject (replyTo p responder op len daddr arg payload) s

/-- Set a flag of RT_FLAGS. -/
def rtFlag (u i : Nat) (s : State) : State := modRouter s u (fun r => { r with flags := setBit r.flags i })

/-- Answer with a NACK (07 R254); the router of a unit or a field controller notes a BAD_OP (07 R292). -/
def nack (p : Packet) (responder code : Nat) (s : State) : State :=
  reply p responder opNack 0 0 code []
    (if code = nkBadOp && (isUnit responder || isFc responder) then rtFlag (homeRouter responder) 5 s else s)

end Sys2Proof.Machine
end

