-- ==== Sys2Proof/Machine/Operands.lean ====
section
/-! DEFINITION. A core's instruction word and its operands (04 R148 to R150): fields, sources, destinations, queues and
special registers. Readings: log 19, DEDUCED. -/

namespace Sys2Proof.Machine

open Sys2Proof

/-- Bits hi down to lo of an instruction word. -/
def fld (w : W64) (hi lo : Nat) : Nat := bitsOf w.toNat hi lo

/-- OPC. -/
def opcOf (w : W64) : Nat := fld w 63 58
/-- DST, DATA, VD, PD and ACC's place: bits [28:23]. -/
def fA (w : W64) : Nat := fld w 28 23
/-- SA or VA: bits [22:17]. -/
def fB (w : W64) : Nat := fld w 22 17
/-- VB: bits [16:11]. -/
def fC (w : W64) : Nat := fld w 16 11
/-- VC: bits [10:5]. -/
def fD (w : W64) : Nat := fld w 10 5

/-! ## Queues of the static fabric (04 R133 to R136) -/

/-- Kind of input queue i (11 R386): 0 OFF, 1 VEC, 2 SCL, 3 CTL. -/
def iqKind (k : BitVec 16) (i : Nat) : Nat := bitsOf k.toNat (2 * i + 1) (2 * i)

/-- Kind of output queue i (11 R386). -/
def oqKind (k : BitVec 16) (i : Nat) : Nat := bitsOf k.toNat (2 * i + 9) (2 * i + 8)

/-- Depth of a queue by its kind (04 R133). -/
def qDepth (kind : Nat) : Nat := if kind = 1 then 4 else if kind = 0 then 0 else 8

/-- The queue at place i of a unit's four. -/
def qAt (l : List Queue) (i : Nat) : Queue := l.getD i {}

/-- The head of queue i as it reads: zero where the queue holds no visible entry (04 R149). -/
def qHead (l : List Queue) (i : Nat) : W512 := match (qAt l i).ents with | e :: _ => e.bits | [] => 0

/-- Remove the head of a queue; the bytes of a partly consumed head go with it (04 R136). Answers its flags. -/
def qPop (q : Queue) : Queue × BitVec 4 :=
  match q.ents with
  | e :: es => ({ q with ents := es, taken := 0, sent0 := 0, sent1 := 0 }, e.flags)
  | [] => (q, 0)

/-- Add an entry to a queue. -/
def qPush (q : Queue) (e : QEnt) : Queue := { q with ents := q.ents ++ [e] }

/-- The 64 bytes of an entry. -/
def entBytes (e : QEnt) : List Byte := toLe 64 e.bits.toNat

/-- The 512-bit value of 64 bytes. -/
def bytes512 (bs : List Byte) : W512 := BitVec.ofNat 512 (leNat bs)

/-- Bytes of a VEC queue that a stream consumer can take. -/
def streamAvail (q : Queue) : Nat := 64 * q.ents.length - q.taken

/-- Take n bytes of a VEC queue as a stream, entry by entry (04 R136): the bytes, the queue, the flags of the entries that left. -/
def streamTake : Nat → Nat → Queue → List Byte × Queue × BitVec 4
  | 0, _, q => ([], q, 0)
  | fuel + 1, n, q =>
    if n = 0 then ([], q, 0)
    else
      match q.ents with
      | [] => ([], q, 0)
      | e :: es =>
        let k := min n (64 - q.taken)
        let bs := ((entBytes e).drop q.taken).take k
        if q.taken + k = 64 then
          let r := streamTake fuel (n - k) { q with ents := es, taken := 0 }
          (bs ++ r.1, r.2.1, e.flags ||| r.2.2)
        else (bs, { q with taken := q.taken + k }, 0)

/-! ## Sources -/

/-- A 64-bit word of the inbox's head message; a word it does not carry reads as zero (04 R149). -/
def inboxWord (c : Core) (k : Nat) : W64 := match c.inbox with | m :: _ => m.words.getD k 0 | [] => 0

/-- A scalar source by its specifier (04 R149). -/
def scalarSrc (c : Core) (n : Nat) : W32 :=
  if n < 0x20 then c.s.getD n 0
  else if n < 0x24 then
    let h := (qHead c.iq (n - 0x20)).toNat
    BitVec.ofNat 32 (if iqKind c.cfg.qkind (n - 0x20) = 3 then h % 16 else h)
  else if n = 0x24 then
    match c.inbox with
    | m :: _ => BitVec.ofNat 32 (m.tag % 4096 + 4096 * ((m.words.length + 3) % 4))
    | [] => 0
  else if n = 0x25 then match c.inbox with | m :: _ => BitVec.ofNat 32 (m.src % 2 ^ 20) | [] => 0
  else if n ≤ 0x2D then
    let v := (inboxWord c ((n - 0x26) / 2)).toNat
    BitVec.ofNat 32 (if n % 2 = 0 then v else v / 2 ^ 32)
  else 0

/-- A vector source by its specifier (04 R149). -/
def vectorSrc (c : Core) (n : Nat) : W512 :=
  if n < 8 then c.v.getD n 0
  else if 0x20 ≤ n && n < 0x24 then qHead c.iq (n - 0x20)
  else if n = 0x24 then BitVec.ofNat 512 ((List.range 4).foldl (fun a k => a + 2 ^ (64 * k) * (inboxWord c k).toNat) 0)
  else 0

/-- SB or the immediate of formats S and C: sign-extended, or zero-extended for logical operations, shifts and MOVH (04 R150). -/
def srcB (c : Core) (w : W64) (zeroExt : Bool) : W32 :=
  if fld w 16 16 = 1 then
    if zeroExt then BitVec.ofNat 32 (fld w 15 0) else (BitVec.ofNat 16 (fld w 15 0)).signExtend 32
  else scalarSrc c (fld w 5 0)

/-- Lane i of a vector. -/
def lane (v : W512) (i : Nat) : W32 := v.extractLsb' (32 * i) 32

/-- The sixteen lanes of a vector. -/
def lanes (v : W512) : List W32 := (List.range 16).map (lane v)

/-- The vector of a list of lanes, lane 0 first. -/
def ofLanes (l : List W32) : W512 := BitVec.ofNat 512 (l.foldr (fun x a => x.toNat + 2 ^ 32 * a) 0)

/-- A value of 2^b bits places: numbers of b bits packed from bit 0 up. -/
def packBits (b : Nat) (l : List Nat) : Nat := l.foldr (fun x a => x + 2 ^ b * a) 0

/-! ## Destinations -/

/-- Write a scalar destination (04 R149): a register, an output queue (a CTL queue takes bits [3:0]), or nothing. -/
def setScalar (c : Core) (n : Nat) (x : W32) : Core :=
  if n < 0x20 then { c with s := lset c.s n x }
  else if 0x30 ≤ n && n < 0x34 then
    let v := if oqKind c.cfg.qkind (n - 0x30) = 3 then x.toNat % 16 else x.toNat
    { c with oq := lmod c.oq (n - 0x30) (fun q => qPush q { bits := BitVec.ofNat 512 v }) }
  else c

/-- Write a vector destination (04 R149). -/
def setVector (c : Core) (n : Nat) (x : W512) : Core :=
  if n < 8 then { c with v := lset c.v n x }
  else if 0x30 ≤ n && n < 0x34 then { c with oq := lmod c.oq (n - 0x30) (fun q => qPush q { bits := x }) }
  else c

/-! ## What an instruction reads and writes (04 R143, R146) -/

/-- Specifiers: scalar sources and destinations, vector sources and destinations. -/
structure Uses where
  ss : List Nat := []
  sd : List Nat := []
  vs : List Nat := []
  vd : List Nat := []
  deriving DecidableEq, Repr

/-- Is a format code an MX format (04 R151). -/
def mxCode (c : Nat) : Bool := decide (2 ≤ c) && decide (c ≤ 6)

/-- The specifiers of an instruction (04 R150, R155 to R162). -/
def usesOf (w : W64) : Uses :=
  let o := opcOf w
  if 0x08 ≤ o && o ≤ 0x15 then { ss := fB w :: (if fld w 16 16 = 0 then [fld w 5 0] else []), sd := [fA w] }
  else if o = 0x16 then { ss := fB w :: (if fld w 16 16 = 0 then [fld w 5 0] else []) }
  else if o = 0x05 then { sd := [fA w] }
  else if o = 0x06 then { ss := [fB w] }
  else if o = 0x18 then { ss := [fld w 22 18], sd := [fA w] }
  else if o = 0x19 then { ss := [fld w 22 18, fA w] }
  else if o = 0x1A then { ss := [fld w 22 18], vd := [fA w] }
  else if o = 0x1B then { ss := [fld w 22 18], vs := [fA w] }
  else if o = 0x20 || o = 0x21 || o = 0x22 || o = 0x24 || o = 0x25 || o = 0x2A then { vs := [fB w, fC w], vd := [fA w] }
  else if o = 0x23 then { vs := [fB w, fC w, fD w], vd := [fA w] }
  else if o = 0x26 then { vs := [fB w, fC w], sd := [fA w] }
  else if o = 0x27 then { vs := [fB w, fC w], ss := [fD w], vd := [fA w] }
  else if o = 0x28 then { ss := [fB w], vd := [fA w] }
  else if o = 0x29 then { vs := [fB w], sd := [fA w] }
  else if o = 0x2B then { vs := [fB w], vd := [fA w], ss := if mxCode (fld w 16 13) then [fld w 7 2] else [] }
  else if o = 0x2C then { vs := [fB w, fB w + 1], vd := [fA w], sd := [fC w] }
  else if o = 0x30 then
    { ss := (if fld w 16 16 = 1 then fld w 15 11 :: (if mxCode (fld w 24 21) then [fld w 15 11 + 1] else []) else []) ++
        [fld w 10 6, fld w 5 1] ++ (if mxCode (fld w 20 17) then [fld w 10 6 + 1] else []) ++
        (if fld w 25 25 = 1 then [fld w 10 6 + 2] else []) }
  else if o = 0x32 then { vd := [fA w] }
  else if o = 0x33 then { vs := [fA w] }
  else if o = 0x34 then { ss := if fld w 18 18 = 1 then [fld w 17 13] else [] }
  else if o = 0x36 || o = 0x37 then { ss := [fld w 26 22, fld w 21 17] }
  else if o = 0x38 then { ss := [fld w 28 24], vs := [fld w 11 6] }
  else if o = 0x39 || o = 0x3A then { ss := [fld w 28 24, fld w 23 19, fld w 18 14, fld w 13 9] }
  else if o = 0x3B then { ss := [fld w 25 20, fld w 19 14] }
  else if o = 0x3C then { ss := [fB w], sd := [fA w] }
  else if o = 0x3D then { ss := [fB w, fld w 5 0] }
  else {}

/-- Does an instruction stream input queue q (04 R137): a TMMA with AS = 0, a QMOVIN. -/
def streamsOf (w : W64) : List Nat :=
  if opcOf w = 0x30 && fld w 16 16 = 0 then [fld w 15 11]
  else if opcOf w = 0x36 then [fld w 28 27]
  else []

/-- The input queues iq0 to iq3 that an instruction reads or dequeues (04 R137). -/
def readsOf (w : W64) : List Nat :=
  let u := usesOf w
  ((u.ss ++ u.vs).filter (fun n => 0x20 ≤ n && n < 0x24)).map (· - 0x20) ++
    (List.range 4).filter (fun i => fld w (29 + i) (29 + i) = 1)

/-- The input queues iq0 to iq3 that an instruction reads, dequeues or streams (04 R137). -/
def queuesOf (w : W64) : List Nat := readsOf w ++ streamsOf w

/-- How many entries an instruction writes to output queue q at issue (04 R135). -/
def outEntries (w : W64) (q : Nat) : Nat :=
  let u := usesOf w
  ((u.sd ++ u.vd).filter (fun n => n = 0x30 + q)).length +
    (if opcOf w = 0x34 && fld w 18 18 = 0 && fld w 17 13 = q then 4 else 0)

/-! ## Special registers (04 R168, 03 R118) -/

/-- QSTAT (04 R168). -/
def qstat (c : Core) : Nat :=
  packBits 4 ((c.iq.map (fun q => q.ents.length)) ++ (c.oq.map (fun q => q.ents.length)))

/-- The outstanding requests of a core that count (04 R162): not trace records, not unicast resends of a multicast. -/
def coreOut (m : MeshIf) : Nat :=
  (m.outst.filter (fun o => match o.use with | .trace => false | .mresend _ => false | _ => true)).length

/-- cclk since the current frame's start, saturating (04 R168). While no frame is in progress it reads zero (log 46, DESIGN CHOICE). -/
def fcycle (s : State) (u : Nat) : Nat :=
  match ownerOf s u with
  | none => 0
  | some p =>
    match frameOf (getPolder s p) with
    | none => 0
    | some f => min ((getField s (fieldOf u)).cclk - mget 0 f.base (fieldOf u)) 0xFFFFFFFF

/-- FCYCLE of core u: an abrupt halt holds it (04 R167). -/
def coreCycle (s : State) (u : Nat) : Nat := (getCore s u).cycHold.getD (fcycle s u)

/-- A special register by number; none where neither 03 R118 nor 04 R168 defines it. -/
def sprRead (s : State) (u n : Nat) : Option Nat :=
  let c := getCore s u
  if n = 0x00 then some u
  else if n = 0x01 then some ((ownerOf s u).getD 0)
  else if n = 0x02 then some c.frameLo.toNat
  else if n = 0x03 then some (coreCycle s u)
  else if n = 0x04 then some c.pred.toNat
  else if n = 0x05 then some c.cfg.pinit.toNat
  else if n = 0x08 then some (c.trapCause.toNat + 2 ^ 8 * c.trapSlot.toNat)
  else if n = 0x09 then some c.trapAddr.toNat
  else if n = 0x10 then some (b2n c.ftz8 + 2 * b2n c.e5sat)
  else if n = 0x11 then some c.aflags.toNat
  else if n = 0x12 then some (c.srCtx + 2 ^ 13 * b2n c.srValid + 2 ^ 14 * b2n c.srSet)
  else if n = 0x18 then some c.cfg.splBase
  else if n = 0x19 then some c.cfg.splSize
  else if n = 0x1A then some c.ringHead
  else if n = 0x1B then some c.ringTail
  else if n = 0x1C then some c.ringUsed
  else if n = 0x1D then some c.ringHwm
  else if n = 0x20 then some (qstat c)
  else if n = 0x21 then some c.inbox.length
  else if n = 0x22 then some (coreOut (getMif s u))
  else if n = 0x23 then some c.sramEcc.toNat
  else none

/-- What a read does to an RC register (00 R12): SPL_HWM takes the present SPL_USED, SRAM_ECC clears. -/
def sprReadEffect (c : Core) (n : Nat) : Core :=
  if n = 0x1D then { c with ringHwm := c.ringUsed } else if n = 0x23 then { c with sramEcc := 0 } else c

/-- A write to a special register under its access code (03 R116, R118): AFLAGS is W1C; a write of SR_CTX sets SET,
clears VALID and starts the fetch. Every other register is read-only. -/
def sprWrite (c : Core) (n : Nat) (x : W32) : Core :=
  if n = 0x11 then { c with aflags := c.aflags &&& ~~~(x.truncate 8) }
  else if n = 0x12 then { c with srCtx := x.toNat % 2 ^ 13, srValid := false, srSet := true, drawn := 0 }
  else c

/-- Set arithmetic flags of a core, each counted (03 R119, 17 R555). -/
def setAflags (c : Core) (f : BitVec 8) : Core :=
  { c with aflags := c.aflags ||| f,
           afCnt := (List.range 8).map (fun k => if f.getLsbD k then incCnt (c.afCnt.getD k {}) else c.afCnt.getD k {}) }

/-- The flags that come with an entry of an SFU, as AFLAGS bits: NV, DZ, OF, UF (05 R181). -/
def entFlags (f : BitVec 4) : BitVec 8 := f.zeroExtend 8

end Sys2Proof.Machine
end

