-- ==== Sys2Proof/Machine/CoreOps.lean ====
section
/-! DEFINITION. Triggered execution of a compute core (04): when a slot is ready, what issues, traps, local SRAM, trace
records, the inbox and the spill ring. Readings: log 6, DESIGN CHOICE; log 19, DEDUCED. -/

namespace Sys2Proof.Machine

open Sys2Proof

/-! ## Local SRAM and the spill ring (04 R127, R139 to R141) -/

/-- Bytes of local SRAM: 48 KiB (04 R125). -/
def sramSize : Nat := 0xC000

/-- Does the range of n bytes from a include a byte of the spill ring region (04 R139). -/
def inRing (c : Core) (a n : Nat) : Bool :=
  decide (c.cfg.splSize > 0) && decide (n > 0) && decide (a < c.cfg.splBase + c.cfg.splSize) && decide (c.cfg.splBase < a + n)

/-- Does the range of n bytes from a leave local SRAM. -/
def outSram (a n : Nat) : Bool := decide (n > 0) && decide (a + n > sramSize)

/-- Advance SPL_HWM to the present SPL_USED (04 R168). -/
def ringUse (c : Core) : Core := { c with ringHwm := max c.ringHwm c.ringUsed }

/-- Bytes of a message's record (07 R288). -/
def recordLen (m : Msg) : Nat := 8 + 8 * m.words.length

/-- The header of a message's record (07 R288). -/
def recordHead (m : Msg) : Nat :=
  m.tag % 4096 + 2 ^ 12 * (m.words.length - 1) + 2 ^ 16 * m.src + 2 ^ 48 * recordLen m

/-- The record of a message (07 R288). -/
def recordBytes (m : Msg) : List Byte := toLe 8 (recordHead m) ++ wordsBytes m.words

/-- Place a message in the spill ring (07 R289); none: it waits. -/
def ringPlace (c : Core) (m : Msg) : Option Core :=
  let base := c.cfg.splBase
  let e := base + c.cfg.splSize
  let need := recordLen m
  if c.cfg.splSize = 0 then none
  else
    let h := if c.ringUsed = 0 then base else c.ringHead
    let t := if c.ringUsed = 0 then base else c.ringTail
    let put := fun (mem : Bytes) (at_ extra : Nat) =>
      let t' := at_ + need
      some (ringUse { c with sram := wrN mem at_ (recordBytes m), ringHead := h, ringTail := if t' = e then base else t',
                             ringUsed := c.ringUsed + need + extra })
    if c.ringUsed = 0 || t > h then
      if e - t ≥ need then put c.sram t 0
      else if h - base ≥ need then put (wrN c.sram t (toLe 8 (2 ^ 14 + 2 ^ 48 * (e - t)))) base (e - t)
      else none
    else if h - t ≥ need then put c.sram t 0
    else none

/-- A message arrives at a core (04 R139): into the inbox while the ring holds no record and an entry is free, else into
the ring; none: it waits in the router. -/
def acceptMsg (c : Core) (m : Msg) : Option Core :=
  if c.ringUsed = 0 && decide (c.inbox.length < 16) then some { c with inbox := c.inbox ++ [m] } else ringPlace c m

/-- Pass over a PAD at the ring's head (07 R289). -/
def ringSkipPad (c : Core) : Core :=
  let hd := rdLe c.sram c.ringHead 8
  if c.ringUsed > 0 && bitsOf hd 14 14 = 1 then
    { c with ringHead := c.cfg.splBase, ringUsed := c.ringUsed - bitsOf hd 63 48 }
  else c

/-- The oldest record moves into the inbox and its space is freed (04 R140, 07 R289). -/
def ringToInbox (c : Core) : Core :=
  let c := ringSkipPad c
  let hd := rdLe c.sram c.ringHead 8
  let n := bitsOf hd 13 12 + 1
  let m : Msg := { tag := bitsOf hd 11 0, src := bitsOf hd 35 16, words := bytesWords n (rdN c.sram (c.ringHead + 8) (8 * n)) }
  let h := c.ringHead + bitsOf hd 63 48
  let e := c.cfg.splBase + c.cfg.splSize
  ringSkipPad { c with inbox := c.inbox ++ [m], ringHead := if h = e then c.cfg.splBase else h,
                       ringUsed := c.ringUsed - bitsOf hd 63 48 }

/-! ## Engines (04 R146, R147) -/

/-- Products per cell of a step (03 R97). -/
def perStep (t : Tmma) : Nat := if t.afmt = 6 && t.wfmt = 6 then 2 else 1

/-- Stored elements of W per column. -/
def storedK (t : Tmma) : Nat := if t.sp then t.k / 2 else t.k

/-- Steps of a TMMA (03 R97, R102). -/
def stepsOf (t : Tmma) : Nat := (storedK t + perStep t - 1) / perStep t

/-- Steps a TMMA has left. -/
def stepsLeft (t : Tmma) : Nat := stepsOf t - t.done

/-- May the tensor engine accept an instruction (04 R147): idle, or its only TMMA about to do its last step. -/
def tensorFree (c : Core) : Bool :=
  match c.tensor with
  | [] => true
  | [t] => decide (stepsLeft t ≤ 1)
  | _ => false

/-- Is a write of accumulator bank b pending (04 R146). -/
def bankPending (c : Core) (b : Nat) : Bool := c.tensor.any (fun t => t.acc == b)

/-- The requests in a unit's injection port that hold its mesh engine (04 R147): all but RELEASE and trace records. -/
def inPort (s : State) (u : Nat) : List Packet :=
  (s.flights.filter (fun f => f.net == .req && f.loc == .inject && f.pkt.src == u && f.pkt.op != opRelease &&
    !(getMif s u).outst.any (fun o => o.pkt.seq == f.pkt.seq && f.pkt.op != opMsg &&
        (match o.use with | .trace => true | .mresend _ => true | .fill _ => true | .wback _ _ => true | _ => false)))).map (·.pkt)

/-- Is the mesh engine free (04 R147). -/
def meshFree (s : State) (u : Nat) : Bool := (inPort s u).isEmpty

/-- The destinations of a core's outstanding claims. -/
def claimDests (s : State) (u : Nat) : List Nat :=
  (getMif s u).outst.filterMap (fun o => match o.use with | .claim sd _ => some sd | _ => none)

/-- Scalar registers awaiting a write: a claim's destination, a waiting conversion's scale. A claim for a queue or for
nothing is not scoreboarded (04 R146). -/
def pendScalar (s : State) (u : Nat) : List Nat :=
  (claimDests s u ++ (match (getCore s u).conv with | some v => (usesOf v.word).sd | none => [])).filter (fun n => decide (n < 32))

/-- Places of output queue q that results still to come will take: a waiting conversion's, outstanding claims' (04 R134, R135). -/
def heldPlaces (s : State) (u q : Nat) : Nat :=
  (match (getCore s u).conv with | some v => outEntries v.word q | none => 0) +
    ((claimDests s u).filter (fun n => n = 0x30 + q)).length

/-- Vector registers awaiting a write. -/
def pendVector (c : Core) : List Nat := match c.conv with | some v => (usesOf v.word).vd | none => []

/-- Does any register an instruction reads or writes await a write (04 R143 item 5). -/
def regsPending (s : State) (u : Nat) (w : W64) : Bool :=
  let x := usesOf w
  (x.ss ++ x.sd).any (fun n => decide (n < 32) && (pendScalar s u).contains n) ||
    (x.vs ++ x.vd).any (fun n => decide (n < 8) && (pendVector (getCore s u)).contains n)

/-- The input queues that a TMMA or QMOVIN in progress is consuming (04 R137). -/
def consuming (c : Core) : List Nat :=
  (c.tensor.filter (fun t => !t.asram)).map (·.aq) ++ (match c.inMover with | some m => [m.q] | none => [])

/-- The queues whose consumer bars an instruction (04 R137): a TMMA may stream the queue of a TMMA that is about to do its last
step, after which it starts (04 R147). -/
def barred (c : Core) (w : W64) : Bool :=
  (queuesOf w).any (fun q => (consuming c).contains q) &&
    !(opcOf w == 0x30 && c.inMover.all (fun m => !(queuesOf w).contains m.q) &&
      (readsOf w).all (fun q => !(consuming c).contains q) && c.tensor.all (fun t => t.asram || decide (stepsLeft t ≤ 1)))

/-- Has every output queue an instruction writes room for its entries (04 R135). -/
def outRoom (s : State) (u : Nat) (w : W64) : Bool :=
  let c := getCore s u
  (List.range 4).all (fun q =>
    outEntries w q == 0 ||
      decide ((qAt c.oq q).ents.length + outEntries w q + heldPlaces s u q ≤ qDepth (oqKind c.cfg.qkind q)))

/-- Can the engine that an instruction needs accept it (04 R147, R154). -/
def engineFree (s : State) (u : Nat) (w : W64) : Bool :=
  let c := getCore s u
  let o := opcOf w
  if o = 0x02 then c.tensor.isEmpty && c.inMover.isNone && c.outMover.isNone && c.conv.isNone && meshFree s u &&
    (pendScalar s u).isEmpty
  else if 0x20 ≤ o && o ≤ 0x2C then c.conv.isNone
  else if o = 0x30 then
    tensorFree c && !(fld w 26 26 == 1 && bankPending c (fld w 28 27))
  else if o = 0x31 then tensorFree c && !bankPending c (fld w 28 27)
  else if o = 0x33 then tensorFree c && !bankPending c (fld w 22 21)
  else if o = 0x32 || o = 0x34 then !bankPending c (fld w 22 21)
  else if o = 0x36 then c.inMover.isNone
  else if o = 0x37 then c.outMover.isNone
  else if 0x38 ≤ o && o ≤ 0x3D then meshFree s u && decide (coreOut (getMif s u) < 32)
  else true

/-- Predicate p of a predicate byte. -/
def predBit (p : BitVec 8) (i : Nat) : Bool := p.getLsbD i

/-- Items 2 and 3 of 04 R143: QRDY and the predicate test. -/
def triggered (c : Core) (w : W64) : Bool :=
  (List.range 5).all (fun i => fld w (53 + i) (53 + i) == 0 ||
    (if i = 4 then !c.inbox.isEmpty else !(qAt c.iq i).ents.isEmpty)) &&
  (List.range 4).all (fun j => fld w (48 + j) (48 + j) == 0 ||
    predBit c.pred (4 * fld w 52 52 + j) == (fld w (44 + j) (44 + j) == 1))

/-- Is a slot ready (04 R143). -/
def slotReady (s : State) (u : Nat) (w : W64) : Bool :=
  let c := getCore s u
  opcOf w != 0 && triggered c w && engineFree s u w && !regsPending s u w && outRoom s u w &&
    !barred c w

/-- May core u issue at all: its polder runs a frame, its field is up, and it has not ended, trapped or stopped. -/
def coreLive (s : State) (u : Nat) : Bool :=
  let c := getCore s u
  match ownerOf s u with
  | none => false
  | some p =>
    (getPolder s p).state == 2 && (getPolder s p).frame.isSome && lit s (fieldOf u) &&
      !c.fended && !c.ended && !c.fenced && c.trapCause == 0

/-- The first ready slot among a list of slots numbered from n. -/
def firstReady (s : State) (u n : Nat) : List W64 → Option (Nat × W64)
  | [] => none
  | w :: ws => if slotReady s u w then some (n, w) else firstReady s u (n + 1) ws

/-- The slot that issues (04 R142): the lowest-numbered ready slot. -/
def issueSlot (s : State) (u : Nat) : Option (Nat × W64) :=
  if coreLive s u then firstReady s u 0 (getCore s u).cfg.slots else none

/-! ## Trace records (17 R557, R558) -/

/-- Trace records of core u that wait in its trace buffer. -/
def traceWaiting (s : State) (u : Nat) : Nat :=
  (s.flights.filter (fun f => f.loc == .inject && f.pkt.src == u && f.pkt.op == opWrite &&
    (getMif s u).outst.any (fun o => o.pkt.seq == f.pkt.seq && o.use == .trace))).length

/-- A trace record is dropped: TRC_DROPS, and TRACE_FULL at the first drop of a frame. -/
def traceDrop (u : Nat) (s : State) : State :=
  let c := getCore s u
  let s := setCore s u { c with trcDrops := incCnt c.trcDrops, trcDropped := true }
  if c.trcDropped then s
  else raise 0x37 none none (some u) (bitsOf c.trcCfg.toNat 48 29) s

/-- Form a trace record of a kind (1 ISSUE, 2 MSG, 3 FEND, 4 TRAP) where it is selected. -/
def trace (u kind slot : Nat) (words : List W64) (s : State) : State :=
  let c := getCore s u
  let cfg := c.trcCfg.toNat
  let sel := c.trcCfg.getLsbD 0 && c.trcCfg.getLsbD kind &&
    (kind != 1 || (decide (bitsOf cfg 20 13 ≤ slot) && decide (slot ≤ bitsOf cfg 28 21)))
  if !sel then s
  else
    let w0 := BitVec.ofNat 64 (u % 2 ^ 20 + 2 ^ 20 * kind + 2 ^ 24 * slot + 2 ^ 32 * coreCycle s u)
    let w1 := BitVec.ofNat 64 (c.frameLo.toNat + 2 ^ 32 * c.trcSeq.toNat)
    let body := (words ++ List.replicate 6 (0 : W64)).take 6
    let s := setCore s u { c with trcSeq := c.trcSeq + 1 }
    if traceWaiting s u ≥ 4 then traceDrop u s
    else
      let s := modCore s u (fun c => { c with trcSent := incCnt c.trcSent })
      request u { src := u, dest := bitsOf cfg 48 29, op := opWrite, len := 7, daddr := 0xC0000 + 0x2000 * bitsOf cfg 50 49,
                  ctx := c.srCtx, payload := w0 :: w1 :: body } .trace s

/-! ## Traps (04 R165, R166) -/

/-- Abandon every instruction in progress (04 R166, R167): engines, requests, and what waits at the injection port.
Trace records are no program requests and stay. -/
def abandon (u : Nat) (s : State) : State :=
  let held := (getMif s u).outst.filter (fun o => o.use == .trace)
  let s := { s with flights := s.flights.filter (fun f =>
    !(f.net == .req && f.loc == .inject && f.pkt.src == u && !(held.any (fun o => o.pkt.seq == f.pkt.seq)))) }
  let s := modMif s u (fun m => { m with outst := held, sendBlk := false })
  modCore s u (fun c => { c with tensor := [], inMover := none, outMover := none, conv := none })

/-- Trap causes. -/
def trAddr : Nat := 1
/-- ALIGN. -/
def trAlign : Nat := 2
/-- RING. -/
def trRing : Nat := 3
/-- BREAK. -/
def trBreak : Nat := 4
/-- COUNT. -/
def trCount : Nat := 5

/-- A trap (04 R166): TRAP and TRAP_ADDR, CORE_TRAP, everything in progress abandoned. Where a hardware fault falls in the same
cclk, the trap's command is the earlier of the two (log 46, DEDUCED). -/
def coreTrap (u slot cause addr : Nat) (s : State) : State :=
  let s := abandon u s
  let s := modCore s u (fun c => { c with trapped := true, trapCause := BitVec.ofNat 4 cause, trapSlot := BitVec.ofNat 8 slot,
                                          trapAddr := BitVec.ofNat 16 addr })
  let s := raise 0x35 (ownerOf s u) none (some u) (cause + 2 ^ 8 * slot + 2 ^ 16 * (addr % 2 ^ 16)) s
  trace u 4 slot [BitVec.ofNat 64 (cause + 2 ^ 8 * slot), BitVec.ofNat 64 (addr % 2 ^ 16)] s

/-- The trap that an access to local SRAM of n bytes at address a draws, if any (04 R165): ALIGN to `al`, ADDR, and RING
for a program write. -/
def accessTrap (c : Core) (a n al : Nat) (write : Bool) : Option (Nat × Nat) :=
  if a % al ≠ 0 then some (trAlign, a)
  else if outSram a n then some (trAddr, max a sramSize)
  else if write && inRing c a n then some (trRing, max a c.cfg.splBase)
  else none

/-! ## Issue (04 R135, R142, R144) -/

/-- Set a predicate. -/
def setPred (c : Core) (i : Nat) (v : Bool) : Core :=
  { c with pred := if v then setBit c.pred i else clrBit c.pred i }

/-- PU0, then PU1 (04 R144). -/
def predUpdates (w : W64) (c : Core) : Core :=
  let c := if fld w 43 43 = 1 then setPred c (fld w 42 40) (fld w 39 39 == 1) else c
  if fld w 38 38 = 1 then setPred c (fld w 37 35) (fld w 34 34 == 1) else c

/-- DQ of iq0 to iq3: the heads leave, and the flags of the SFUs' entries go to AFLAGS (05 R181), each counted once. -/
def dequeue (w : W64) (c : Core) : Core :=
  let r := (List.range 4).foldl (fun (r : Core × BitVec 8) i =>
    if fld w (29 + i) (29 + i) = 1 then
      let h := qPop (qAt r.1.iq i)
      ({ r.1 with iq := lset r.1.iq i h.1 }, r.2 ||| entFlags h.2)
    else r) (c, 0)
  setAflags r.1 r.2

/-- DQ of all five queues (04 R135). -/
def dequeueAll (w : W64) (c : Core) : Core :=
  let c := dequeue w c
  if fld w 33 33 = 1 then { c with inbox := c.inbox.tail } else c

/-- Everything that an issuing instruction does: its own effect, with its operands read before any head leaves, then its
predicate updates and dequeues; an ISSUE record where it is traced. -/
def issueWith (u slot : Nat) (w : W64) (eff : State → State) (s : State) : State :=
  let c := getCore s u
  let s := eff s
  let s := modCore s u (fun c => dequeueAll w (predUpdates w c))
  trace u 1 slot [w, BitVec.ofNat 64 (c.pred.toNat + 2 ^ 8 * qstat c)] s

/-- The command of an opcode: core u issues its lowest-numbered ready slot if that slot holds the opcode (04 R142, R143,
log 6, DESIGN CHOICE); else nothing happens. -/
def coreCmd (u opc : Nat) (eff : Nat → W64 → State → State) (s : State) : Out :=
  if !isCc u then .fault (.noSuchObject u)
  else
    match issueSlot s u with
    | some (slot, w) => if opcOf w = opc then .next (issueWith u slot w (eff slot w) s) else .next s
    | none => .next s

/-- An effect on the core alone. -/
def onCore (u : Nat) (f : Core → Core) (s : State) : State := modCore s u f

end Sys2Proof.Machine
end

