-- ==== Sys2Proof/Machine/CoreSeq.lean ====
section
/-! DEFINITION. Core instructions of the sequencer and of the scalar and load/store engines (04 R153, R154).
Readings: log 6, DESIGN CHOICE; log 19, DEDUCED. -/

namespace Sys2Proof.Machine

open Sys2Proof

/-! ## Sequencer -/

/-- NOP: only DQ and predicate updates (04 R153). -/
def execNop (u : Nat) (s : State) : Out := coreCmd u 0x01 (fun _ _ s => s) s

/-- A held path is given up with a RELEASE to its destination (07 R272): SEQ 0, no reply. -/
def releaseHeld (u : Nat) (s : State) : State :=
  match (getMif s u).held with
  | none => s
  | some d =>
    let s := modMif s u (fun m => { m with held := none })
    send { dest := d, op := opRelease, src := u, seq := 0, ctx := (getCore s u).srCtx, vc := 3 } s

/-- FEND (04 R154): the core stops issuing until its next frame-start tick; a held path is released (07 R272). -/
def execFend (u : Nat) (s : State) : Out :=
  coreCmd u 0x02 (fun _ _ s => releaseHeld u (onCore u (fun c => { c with fended := true }) s)) s

/-- BRK: a trap with cause BREAK (04 R165). -/
def execBrk (u : Nat) (s : State) : Out := coreCmd u 0x03 (fun slot _ s => coreTrap u slot trBreak 0 s) s

/-- PSET: p_i takes bit i of VALUE for each set bit i of MASK (04 R153). -/
def psetOp (w : W64) (c : Core) : Core :=
  let mask : BitVec 8 := BitVec.ofNat 8 (fld w 15 8)
  let value : BitVec 8 := BitVec.ofNat 8 (fld w 7 0)
  { c with pred := (c.pred &&& ~~~mask) ||| (value &&& mask) }

/-- PSET. -/
def execPset (u : Nat) (s : State) : Out := coreCmd u 0x04 (fun _ w s => onCore u (psetOp w) s) s

/-- MFSR: DST takes the special register, and an RC register answers to the read (04 R168, 00 R12). -/
def mfsrOp (u : Nat) (w : W64) (s : State) : State :=
  let n := fld w 7 0
  let x := BitVec.ofNat 32 ((sprRead s u n).getD 0)
  onCore u (fun c => setScalar (sprReadEffect c n) (fA w) x) s

/-- MFSR. -/
def execMfsr (u : Nat) (s : State) : Out := coreCmd u 0x05 (fun _ w s => mfsrOp u w s) s

/-- MTSR (03 R116, R118). -/
def execMtsr (u : Nat) (s : State) : Out :=
  coreCmd u 0x06 (fun _ w s => onCore u (fun c => sprWrite c (fld w 7 0) (scalarSrc c (fB w))) s) s

/-! ## Scalar engine -/

/-- A scalar operation on SA and SB: the result goes to DST. `z` says that an immediate is zero-extended (04 R150). -/
def scalarOp (z : Bool) (f : W32 → W32 → W32) (w : W64) (c : Core) : Core :=
  setScalar c (fA w) (f (scalarSrc c (fB w)) (srcB c w z))

/-- A scalar command. -/
def scalarCmd (u opc : Nat) (z : Bool) (f : W32 → W32 → W32) (s : State) : Out :=
  coreCmd u opc (fun _ w s => onCore u (scalarOp z f w) s) s

/-- The count of a shift: bits [4:0] (04 R150). -/
def shCount (b : W32) : Nat := b.toNat % 32

/-- ADD. -/
def execAdd (u : Nat) (s : State) : Out := scalarCmd u 0x08 false (fun a b => a + b) s
/-- SUB. -/
def execSub (u : Nat) (s : State) : Out := scalarCmd u 0x09 false (fun a b => a - b) s
/-- MUL. -/
def execMul (u : Nat) (s : State) : Out := scalarCmd u 0x0A false (fun a b => a * b) s
/-- AND. -/
def execAnd (u : Nat) (s : State) : Out := scalarCmd u 0x0B true (fun a b => a &&& b) s
/-- OR. -/
def execOr (u : Nat) (s : State) : Out := scalarCmd u 0x0C true (fun a b => a ||| b) s
/-- XOR. -/
def execXor (u : Nat) (s : State) : Out := scalarCmd u 0x0D true (fun a b => a ^^^ b) s
/-- SHL. -/
def execShl (u : Nat) (s : State) : Out := scalarCmd u 0x0E true (fun a b => a <<< shCount b) s
/-- SHR. -/
def execShr (u : Nat) (s : State) : Out := scalarCmd u 0x0F true (fun a b => a >>> shCount b) s
/-- SAR. -/
def execSar (u : Nat) (s : State) : Out := scalarCmd u 0x10 true (fun a b => a.sshiftRight (shCount b)) s
/-- MIN: signed minimum. -/
def execMin (u : Nat) (s : State) : Out := scalarCmd u 0x11 false (fun a b => if b.slt a then b else a) s
/-- MAX: signed maximum. -/
def execMax (u : Nat) (s : State) : Out := scalarCmd u 0x12 false (fun a b => if a.slt b then b else a) s
/-- MINU: unsigned minimum. -/
def execMinu (u : Nat) (s : State) : Out := scalarCmd u 0x13 false (fun a b => if b.ult a then b else a) s
/-- MAXU: unsigned maximum. -/
def execMaxu (u : Nat) (s : State) : Out := scalarCmd u 0x14 false (fun a b => if a.ult b then b else a) s
/-- MOVH: IMM16 above the low half of SA. -/
def execMovh (u : Nat) (s : State) : Out :=
  scalarCmd u 0x15 true (fun a b => (b <<< 16) ||| (a &&& 0x0000FFFF)) s

/-- COND (04 R152). -/
def condHolds (cond : Nat) (a b : W32) : Bool :=
  if cond = 0 then a == b
  else if cond = 1 then a != b
  else if cond = 2 then a.slt b
  else if cond = 3 then b.sle a
  else if cond = 4 then a.ult b
  else b.ule a

/-- SCMP: p_PD takes SA COND SB (04 R153). -/
def scmpOp (w : W64) (c : Core) : Core :=
  setPred c (fld w 28 26) (condHolds (fld w 25 23) (scalarSrc c (fB w)) (srcB c w false))

/-- SCMP. -/
def execScmp (u : Nat) (s : State) : Out := coreCmd u 0x16 (fun _ w s => onCore u (scmpOp w) s) s

/-! ## Load/store engine -/

/-- The address s_b + offset of format M (04 R150), modulo 2^32. -/
def memAddr (c : Core) (w : W64) : Nat :=
  (c.s.getD (fld w 22 18) 0 + (BitVec.ofNat 18 (fld w 17 0)).signExtend 32).toNat

/-- Run an access to local SRAM of n bytes aligned to n, or take its trap (04 R165). -/
def memOp (u n : Nat) (write : Bool) (f : Nat → Core → Core) (slot : Nat) (w : W64) (s : State) : State :=
  let c := getCore s u
  let a := memAddr c w
  match accessTrap c a n n write with
  | some (cause, addr) => coreTrap u slot cause addr s
  | none => onCore u (f a) s

/-- LDS: DATA takes the 32-bit word at s_b + offset. -/
def execLds (u : Nat) (s : State) : Out :=
  coreCmd u 0x18 (fun slot w s =>
    memOp u 4 false (fun a c => setScalar c (fA w) (BitVec.ofNat 32 (rdLe c.sram a 4))) slot w s) s

/-- STS: the 32-bit word at s_b + offset takes DATA. -/
def execSts (u : Nat) (s : State) : Out :=
  coreCmd u 0x19 (fun slot w s =>
    memOp u 4 true (fun a c => { c with sram := wrLe c.sram a 4 (scalarSrc c (fA w)).toNat }) slot w s) s

/-- LDV: DATA takes the 64 bytes at s_b + offset. -/
def execLdv (u : Nat) (s : State) : Out :=
  coreCmd u 0x1A (fun slot w s =>
    memOp u 64 false (fun a c => setVector c (fA w) (bytes512 (rdN c.sram a 64))) slot w s) s

/-- STV: the 64 bytes at s_b + offset take DATA. -/
def execStv (u : Nat) (s : State) : Out :=
  coreCmd u 0x1B (fun slot w s =>
    memOp u 64 true (fun a c => { c with sram := wrLe c.sram a 64 (vectorSrc c (fA w)).toNat }) slot w s) s

end Sys2Proof.Machine
end

