-- ==== Sys2Proof/Machine/CoreVec.lean ====
section
/-! DEFINITION. Core instructions of the vector unit and the conversions (03 R107 to R117, 04 R153 to R156).
Readings: log 6, DESIGN CHOICE; log 14, DEDUCED; log 17, PRESUMED. -/

namespace Sys2Proof.Machine

open Sys2Proof

/-- Join the results and flags of lanes. -/
def joinLanes (l : List (W32 × Fl)) : W512 × Fl := (ofLanes (l.map (·.1)), l.foldl (fun f x => f ||| x.2) 0)

/-- A lane-wise operation of two vectors. -/
def lanes2 (f : W32 → W32 → W32 × Fl) (a b : W512) : W512 × Fl :=
  joinLanes ((List.range 16).map (fun i => f (lane a i) (lane b i)))

/-- A vector operation of VA and VB (04 R153): VD takes the result, AFLAGS its flags. -/
def vectorOp2 (f : W32 → W32 → W32 × Fl) (w : W64) (c : Core) : Core :=
  let r := lanes2 f (vectorSrc c (fB w)) (vectorSrc c (fC w))
  setVector (setAflags c r.2) (fA w) r.1

/-- A vector command of two operands. -/
def vectorCmd2 (u opc : Nat) (f : W32 → W32 → W32 × Fl) (s : State) : Out :=
  coreCmd u opc (fun _ w s => onCore u (vectorOp2 f w) s) s

/-- VADD. -/
def execVadd (u : Nat) (s : State) : Out := vectorCmd2 u 0x20 fadd s
/-- VSUB. -/
def execVsub (u : Nat) (s : State) : Out := vectorCmd2 u 0x21 fsub s
/-- VMUL. -/
def execVmul (u : Nat) (s : State) : Out := vectorCmd2 u 0x22 fmul s

/-- VFMA on a core: VA * VB + VC, fused. -/
def vfmaOp (w : W64) (c : Core) : Core :=
  let a := vectorSrc c (fB w)
  let b := vectorSrc c (fC w)
  let d := vectorSrc c (fD w)
  let r := joinLanes ((List.range 16).map (fun i => ffma (lane a i) (lane b i) (lane d i)))
  setVector (setAflags c r.2) (fA w) r.1

/-- VFMA. -/
def execVfma (u : Nat) (s : State) : Out := coreCmd u 0x23 (fun _ w s => onCore u (vfmaOp w) s) s
/-- VMIN. -/
def execVmin (u : Nat) (s : State) : Out := vectorCmd2 u 0x24 fmin s
/-- VMAX. -/
def execVmax (u : Nat) (s : State) : Out := vectorCmd2 u 0x25 fmax s

/-- VCMP on a core: bit i of scalar VD is VA_i FN VB_i. -/
def vcmpOp (w : W64) (c : Core) : Core :=
  let a := vectorSrc c (fB w)
  let b := vectorSrc c (fC w)
  let r := (List.range 16).map (fun i => fcmp (fld w 4 0) (lane a i) (lane b i))
  setScalar (setAflags c (r.foldl (fun f x => f ||| x.2) 0)) (fA w) (BitVec.ofNat 32 (packBits 1 (r.map (fun x => b2n x.1))))

/-- VCMP. -/
def execVcmp (u : Nat) (s : State) : Out := coreCmd u 0x26 (fun _ w s => onCore u (vcmpOp w) s) s

/-- VSEL on a core: lane i of VA where bit i of scalar VC is 1, else of VB. -/
def vselOp (w : W64) (c : Core) : Core :=
  let a := vectorSrc c (fB w)
  let b := vectorSrc c (fC w)
  let m := scalarSrc c (fD w)
  setVector c (fA w) (ofLanes ((List.range 16).map (fun i => if m.getLsbD i then lane a i else lane b i)))

/-- VSEL. -/
def execVsel (u : Nat) (s : State) : Out := coreCmd u 0x27 (fun _ w s => onCore u (vselOp w) s) s

/-- VBCST: every lane of VD takes scalar VA. -/
def execVbcst (u : Nat) (s : State) : Out :=
  coreCmd u 0x28 (fun _ w s => onCore u (fun c => setVector c (fA w) (ofLanes (List.replicate 16 (scalarSrc c (fB w))))) s) s

/-- One level of the fixed tree (04 R155): neighbours joined in ascending order. -/
def treeLevel (f : W32 → W32 → W32 × Fl) : List W32 → List W32 × Fl
  | a :: b :: l =>
    let x := f a b
    let r := treeLevel f l
    (x.1 :: r.1, x.2 ||| r.2)
  | l => (l, 0)

/-- Reduce a list of 2^n values by the fixed tree. -/
def treeReduce (f : W32 → W32 → W32 × Fl) : Nat → List W32 → W32 × Fl
  | 0, l => (l.headD 0, 0)
  | n + 1, l =>
    let x := treeLevel f l
    let r := treeReduce f n x.1
    (r.1, x.2 ||| r.2)

/-- VRED on a core: FN 0 sum, 1 maximum. -/
def vredOp (w : W64) (c : Core) : Core :=
  let r := treeReduce (if fld w 4 0 = 0 then fadd else fmax) 4 (lanes (vectorSrc c (fB w)))
  setScalar (setAflags c r.2) (fA w) r.1

/-- VRED. -/
def execVred (u : Nat) (s : State) : Out := coreCmd u 0x29 (fun _ w s => onCore u (vredOp w) s) s

/-- VPERM: lane i of VD takes lane j of VA, j the low four bits of lane i of VB. -/
def vpermOp (w : W64) (c : Core) : Core :=
  let a := vectorSrc c (fB w)
  let b := vectorSrc c (fC w)
  setVector c (fA w) (ofLanes ((List.range 16).map (fun i => lane a ((lane b i).toNat % 16))))

/-- VPERM. -/
def execVperm (u : Nat) (s : State) : Out := coreCmd u 0x2A (fun _ w s => onCore u (vpermOp w) s) s

/-! ## Conversions (04 R156) -/

/-- The random values of a stochastic conversion (03 R117): n words from the core's generator, and the core after drawing
them. A core with no seed, or the seed of a context with none, sets SRNS (03 R116). -/
def drawRandom (u n : Nat) (c : Core) : List Nat × Core × Fl :=
  let seed := if c.srSet then c.seed else 0
  (randValues seed u c.frameLo c.drawn n, { c with drawn := c.drawn + BitVec.ofNat 32 n }, fIf (seed == 0) fSRNS)

/-- Elements of w bits of a number, n of them. -/
def elems (b n x : Nat) : List Nat := (List.range n).map (fun i => bitsOf x (b * i + b - 1) (b * i))

/-- Does a VCVT round a value, so that RM applies: a conversion from FP32 (03 R109). -/
def cvtNarrows (w : W64) : Bool := fld w 16 13 == 15

/-- VCVT with its operands as read (04 R156). -/
def vcvtWith (u : Nat) (w : W64) (src : W512) (scale : Nat) (c : Core) : Core :=
  let from_ := fld w 16 13
  let to_ := fld w 12 9
  let xs := elems (codeBits from_) 16 src.toNat
  let stoch := fld w 8 8 = 1 && cvtNarrows w
  let d := if stoch then drawRandom u 4 c else ([], c, 0)
  let r : List Nat × Fl :=
    if cvtNarrows w then
      ((List.range 16).map (fun i => narrow c.e5sat to_ (if stoch then d.1[i]? else none) (BitVec.ofNat 32 (xs.getD i 0)))).foldr
        (fun x a => (x.1 :: a.1, x.2 ||| a.2)) ([], 0)
    else if to_ = 9 then
      (xs.map (fun x => int32to8 (BitVec.ofNat 32 x))).foldr (fun x a => (x.1 :: a.1, x.2 ||| a.2)) ([], 0)
    else
      (xs.map (fun x => widen c.ftz8 from_ x scale)).foldr (fun x a => (x.1.toNat :: a.1, x.2 ||| a.2)) ([], 0)
  setVector (setAflags d.2.1 (r.2 ||| d.2.2)) (fA w) (BitVec.ofNat 512 (packBits (codeBits to_) r.1))

/-- VCVTMX with its operands as read (04 R156, 03 R112). -/
def vcvtmxWith (u : Nat) (w : W64) (src : List W512) (c : Core) : Core :=
  let to_ := fld w 10 7
  let stoch := fld w 6 6 = 1
  let d := if stoch then drawRandom u 8 c else ([], c, 0)
  let r := toMx to_ d.1 (src.flatMap lanes)
  let c := setVector (setAflags d.2.1 (r.2.2 ||| d.2.2)) (fA w) (BitVec.ofNat 512 (packBits (codeBits to_) r.1))
  setScalar c (fC w) (BitVec.ofNat 32 r.2.1)

/-- Must a stochastic conversion wait for its seed (03 R116). -/
def seedWait (c : Core) (stochastic : Bool) : Bool := stochastic && c.srSet && !c.srValid

/-- VCVT on a core: at once, or held until the seed arrives. -/
def vcvtOp (u : Nat) (w : W64) (c : Core) : Core :=
  let src := vectorSrc c (fB w)
  let scale := (scalarSrc c (fld w 7 2)).toNat % 256
  if seedWait c (fld w 8 8 == 1 && cvtNarrows w) then { c with conv := some { word := w, src := [src], scale := scale } }
  else vcvtWith u w src scale c

/-- VCVT. -/
def execVcvt (u : Nat) (s : State) : Out := coreCmd u 0x2B (fun _ w s => onCore u (vcvtOp u w) s) s

/-- VCVTMX on a core: at once, or held until the seed arrives. -/
def vcvtmxOp (u : Nat) (w : W64) (c : Core) : Core :=
  let src := [vectorSrc c (fB w), vectorSrc c (fB w + 1)]
  if seedWait c (fld w 6 6 == 1) then { c with conv := some { word := w, src := src, scale := 0 } }
  else vcvtmxWith u w src c

/-- VCVTMX. -/
def execVcvtmx (u : Nat) (s : State) : Out := coreCmd u 0x2C (fun _ w s => onCore u (vcvtmxOp u w) s) s

/-- A conversion that waited proceeds (03 R116). -/
def convResume (u : Nat) (c : Core) : Core :=
  match c.conv with
  | none => c
  | some v =>
    let c := { c with conv := none }
    if opcOf v.word = 0x2B then vcvtWith u v.word (v.src.headD 0) v.scale c else vcvtmxWith u v.word v.src c

/-- The seed-table entry of a context in the field controller of unit u (03 R114). -/
def seedOf (s : State) (u ctx : Nat) : W64 := mget 0 (getField s (fieldOf u)).seeds ctx

/-- SEED_ARRIVAL: a fetched seed arrives at a core or an SFU and VALID is set (03 R116, 05 R180); a fetch that an abrupt halt finds outstanding
arrives all the same (04 R167 does not say: log 48, DESIGN CHOICE). -/
def execSeedArrival (u : Nat) (s : State) : Out :=
  if isCc u then
    let c := getCore s u
    if c.srSet && !c.srValid then
      .next (setCore s u (convResume u { c with srValid := true, seed := seedOf s u c.srCtx }))
    else .next s
  else if isSfu u then
    let c := getSfu s u
    if c.sfetch then .next (setSfu s u { c with svalid := true, sfetch := false, seed := seedOf s u c.sctx })
    else .next s
  else .fault (.noSuchObject u)

end Sys2Proof.Machine
end

