-- ==== Sys2Proof/Machine/CoreTensor.lean ====
section
/-! DEFINITION. Core instructions of the tensor datapath, the accumulator read port and the queue movers (03 R97 to R105,
04 R157 to R161). Readings: log 6, DESIGN CHOICE; log 19, DEDUCED. -/

namespace Sys2Proof.Machine

open Sys2Proof

/-! ## Panel layout (04 R158) -/

/-- Packing group g along k of a format code: 4 for 6-bit, 2 for 4-bit, else 1. -/
def groupOf (fmt : Nat) : Nat := if fmt = 4 || fmt = 5 then 4 else if fmt = 6 then 2 else 1

/-- Size u of a group in bytes. -/
def groupBytes (fmt : Nat) : Nat := codeBits fmt * groupOf fmt / 8

/-- Offset in a panel of the group that holds element (c, k). -/
def panelOff (fmt c k : Nat) : Nat := 8 * groupBytes fmt * (k / groupOf fmt) + groupBytes fmt * c

/-- Bytes of a panel of n elements along k. -/
def panelLen (fmt n : Nat) : Nat := 8 * groupBytes fmt * ((n + groupOf fmt - 1) / groupOf fmt)

/-- The element with place k in its group, of the group's bytes. -/
def groupElem (fmt k : Nat) (bs : List Byte) : Nat :=
  let i := k % groupOf fmt
  bitsOf (leNat bs) (codeBits fmt * i + codeBits fmt - 1) (codeBits fmt * i)

/-- Element (c, k) of a panel in local SRAM. -/
def sramElem (mem : Bytes) (base fmt c k : Nat) : Nat :=
  groupElem fmt k (rdN mem (base + panelOff fmt c k) (groupBytes fmt))

/-- A scale byte: of block k / 32 for index c. -/
def sramScale (mem : Bytes) (base c k : Nat) : Nat := (rd8 mem (base + 8 * (k / 32) + c)).toNat

/-- The metadata nibble of group q of column c (03 R100, 04 R158). -/
def metaNibble (mem : Bytes) (base c q : Nat) : Nat :=
  let b := (rd8 mem (base + 8 * (q / 2) + c)).toNat
  if q % 2 = 0 then b % 16 else b / 16

/-! ## TMMA at issue (04 R157, R159, R165) -/

/-- A TMMA's record from its word and the registers it names. -/
def tmmaOf (c : Core) (w : W64) : Tmma :=
  let r := fun i => (c.s.getD i 0).toNat
  let a := fld w 15 11
  let ww := fld w 10 6
  { acc := fld w 28 27, sp := fld w 25 25 == 1, afmt := fld w 24 21, wfmt := fld w 20 17, asram := fld w 16 16 == 1,
    aq := a, abase := r a, ascale := r (a + 1), wbase := r ww, wscale := r (ww + 1), wmeta := r (ww + 2), k := r (fld w 5 1) }

/-- Does the count satisfy 04 R159. -/
def countOk (t : Tmma) : Bool :=
  (!(isMx t.afmt || isMx t.wfmt) || t.k % 32 == 0) && (!t.sp || t.k % 4 == 0) && (!(t.afmt = 6 && t.wfmt = 6) || t.k % 2 == 0)

/-- The ranges of local SRAM that a TMMA will read: elements, scales, metadata (04 R165). -/
def tmmaRanges (t : Tmma) : List (Nat × Nat) :=
  (if t.asram then (t.abase, panelLen t.afmt t.k) :: (if isMx t.afmt then [(t.ascale, 8 * (t.k / 32))] else []) else []) ++
    [(t.wbase, panelLen t.wfmt (storedK t))] ++ (if isMx t.wfmt then [(t.wscale, 8 * (t.k / 32))] else []) ++
    (if t.sp then [(t.wmeta, 8 * ((t.k / 4 + 1) / 2))] else [])

/-- The trap that a TMMA draws at issue, if any: COUNT, ALIGN, ADDR (04 R165). -/
def tmmaTrap (t : Tmma) : Option (Nat × Nat) :=
  if !countOk t then some (trCount, 0)
  else if t.k = 0 then none
  else
    match (tmmaRanges t).find? (fun r => r.1 % 8 != 0) with
    | some r => some (trAlign, r.1)
    | none =>
      let bad := (tmmaRanges t).filter (fun r => outSram r.1 r.2)
      match bad with
      | [] => none
      | r :: rs => some (trAddr, rs.foldl (fun m x => min m (max x.1 sramSize)) (max r.1 sramSize))

/-- Set an accumulator bank to +0. -/
def zeroBank (b : Nat) (c : Core) : Core := { c with acc := lset c.acc b (List.replicate 64 0) }

/-- TMMA at issue: it traps, or enters the datapath; a count of 0 performs no step (04 R159). -/
def tmmaOp (u slot : Nat) (w : W64) (s : State) : State :=
  let c := getCore s u
  let t := tmmaOf c w
  match tmmaTrap t with
  | some (cause, addr) => coreTrap u slot cause addr s
  | none =>
    let c := if fld w 26 26 = 1 then zeroBank t.acc c else c
    setCore s u (if t.k = 0 then c else { c with tensor := c.tensor ++ [t] })

/-- TMMA. -/
def execTmma (u : Nat) (s : State) : Out := coreCmd u 0x30 (fun slot w s => tmmaOp u slot w s) s

/-! ## A step (03 R103 to R105, 04 R159) -/

/-- Dense k positions that one piece of an A stream covers: a packing group, or a whole group of four where W is sparse. -/
def pieceK (t : Tmma) : Nat := if t.sp then 4 else groupOf t.afmt

/-- Bytes of a piece of an A stream. -/
def pieceBytes (t : Tmma) : Nat := pieceK t / groupOf t.afmt * 8 * groupBytes t.afmt

/-- The first dense k position that step n of a TMMA covers. -/
def stepK (t : Tmma) (n : Nat) : Nat := if t.sp then 4 * (n * perStep t / 2) else n * perStep t

/-- Does the next step need another piece of the A stream. -/
def needPiece (t : Tmma) : Bool := !t.asram && decide (t.pieces ≤ stepK t t.done / pieceK t)

/-- Bytes the next step takes from the A stream: the scales at the start of a block, and a piece (04 R158). -/
def needBytes (t : Tmma) : Nat :=
  if needPiece t then (if isMx t.afmt && stepK t t.done % 32 = 0 then 8 else 0) + pieceBytes t else 0

/-- May the running TMMA do its next step: its stream bytes have arrived. -/
def stepReady (c : Core) (t : Tmma) : Bool := t.asram || decide (needBytes t ≤ streamAvail (qAt c.iq t.aq))

/-- Take what the next step needs from the A stream. -/
def takePiece (c : Core) (t : Tmma) : Core × Tmma :=
  if needPiece t then
    let r := streamTake 64 (needBytes t) (qAt c.iq t.aq)
    let c := setAflags { c with iq := lset c.iq t.aq r.2.1 } (entFlags r.2.2)
    if isMx t.afmt && stepK t t.done % 32 = 0 then
      (c, { t with sa := r.1.take 8, abuf := r.1.drop 8, pieces := t.pieces + 1 })
    else (c, { t with abuf := r.1, pieces := t.pieces + 1 })
  else (c, t)

/-- Element A[i][k] as a code. -/
def aElem (c : Core) (t : Tmma) (i k : Nat) : Nat :=
  if t.asram then sramElem c.sram t.abase t.afmt i k
  else
    let off := panelOff t.afmt i (k % pieceK t)
    groupElem t.afmt k ((t.abuf.drop off).take (groupBytes t.afmt))

/-- The scale of A[i][k]. -/
def aScale (c : Core) (t : Tmma) (i k : Nat) : Nat :=
  if t.asram then sramScale c.sram t.ascale i k else (t.sa.getD i 0).toNat

/-- The pairs (k, stored index) of a step for column j: with 2:4 sparsity the nibble names k (03 R100). -/
def stepPairs (c : Core) (t : Tmma) (j : Nat) : List (Nat × Nat) :=
  (List.range (perStep t)).map (fun d =>
    let n := t.done * perStep t + d
    if t.sp then
      let nib := metaNibble c.sram t.wmeta j (n / 2)
      (4 * (n / 2) + (if n % 2 = 0 then nib % 4 else nib / 4), n)
    else (n, n))

/-- One cell of a step. The bytes of local SRAM are those that stand there at the step (log 46, DESIGN CHOICE). -/
def stepCell (c : Core) (t : Tmma) (i j : Nat) : W32 × Fl :=
  let acc := (c.acc.getD t.acc []).getD (8 * i + j) 0
  if t.afmt = 9 then
    accumulateInt acc ((stepPairs c t j).map (fun p =>
      toInt 8 (aElem c t i p.1) * toInt 8 (sramElem c.sram t.wbase t.wfmt j p.2)))
  else
    let mx := isMx t.afmt
    accumulate acc ((stepPairs c t j).map (fun p =>
      tensorProduct mx (if mx then aScale c t i p.1 else 0) (if mx then sramScale c.sram t.wscale j (stepK t t.done) else 0)
        (readElem c.ftz8 t.afmt (aElem c t i p.1)) (readElem c.ftz8 t.wfmt (sramElem c.sram t.wbase t.wfmt j p.2))))

/-- One step of the running TMMA on every cell. -/
def stepAll (c : Core) (t : Tmma) : Core :=
  let cells := (List.range 64).map (fun n => stepCell c t (n / 8) (n % 8))
  setAflags { c with acc := lset c.acc t.acc (cells.map (·.1)), stepBank := some t.acc } (cells.foldl (fun f x => f ||| x.2) 0)

/-- Are a core's engines running: not stopped, trapped or halted. -/
def enginesRun (s : State) (u : Nat) : Bool :=
  let c := getCore s u
  match ownerOf s u with
  | none => false
  | some p =>
    (getPolder s p).state == 2 && (getPolder s p).frame.isSome && lit s (fieldOf u) && !c.fenced

/-- TMMA_STEP: the running TMMA performs its next step once its operand bytes are there; after its last step it leaves
the datapath (04 R159, log 5, DESIGN CHOICE). -/
def execTmmaStep (u : Nat) (s : State) : Out :=
  if !isCc u then .fault (.noSuchObject u)
  else
    let c := getCore s u
    match c.tensor with
    | [] => .next s
    | t :: ts =>
      if enginesRun s u && stepReady c t then
        let r := takePiece c t
        let c := stepAll r.1 r.2
        let t := { r.2 with done := r.2.done + 1 }
        .next (setCore s u { c with tensor := if stepsLeft t = 0 then ts else t :: ts })
      else .next s

/-! ## Banks (04 R160) -/

/-- TZERO: bank ACC takes +0. -/
def execTzero (u : Nat) (s : State) : Out :=
  coreCmd u 0x31 (fun _ w s => onCore u (zeroBank (fld w 28 27)) s) s

/-- TRD: lane 8r + j of VD takes cell (2Q + r, j) of bank ACC. -/
def trdOp (w : W64) (c : Core) : Core :=
  let bank := c.acc.getD (fld w 22 21) []
  setVector c (fA w) (ofLanes ((bank.drop (16 * fld w 20 19)).take 16))

/-- TRD. -/
def execTrd (u : Nat) (s : State) : Out := coreCmd u 0x32 (fun _ w s => onCore u (trdOp w) s) s

/-- TWR: quarter Q of bank ACC takes VA. -/
def twrOp (w : W64) (c : Core) : Core :=
  let b := fld w 22 21
  let bank := c.acc.getD b []
  let q := fld w 20 19
  { c with acc := lset c.acc b (bank.take (16 * q) ++ lanes (vectorSrc c (fA w)) ++ bank.drop (16 * q + 16)) }

/-- TWR. -/
def execTwr (u : Nat) (s : State) : Out := coreCmd u 0x33 (fun _ w s => onCore u (twrOp w) s) s

/-- The 256 bytes of a bank, cell (i, j) at byte 4 (8i + j). -/
def bankBytes (bank : List W32) : List Byte := bank.flatMap (fun x => toLe 4 x.toNat)

/-- TOUT: the bank to an output queue as four entries, or to local SRAM (04 R160). -/
def toutOp (u slot : Nat) (w : W64) (s : State) : State :=
  let c := getCore s u
  let bank := c.acc.getD (fld w 22 21) []
  let target := fld w 17 13
  if fld w 18 18 = 0 then
    setCore s u ((List.range 4).foldl (fun c i => setVector c (0x30 + target) (ofLanes ((bank.drop (16 * i)).take 16))) c)
  else
    let a := (c.s.getD target 0).toNat
    match accessTrap c a 256 64 true with
    | some (cause, addr) => coreTrap u slot cause addr s
    | none => setCore s u { c with sram := wrN c.sram a (bankBytes bank) }

/-- TOUT. -/
def execTout (u : Nat) (s : State) : Out := coreCmd u 0x34 (fun slot w s => toutOp u slot w s) s

/-! ## Queue movers (04 R161) -/

/-- The trap of a mover's count and address (04 R165). -/
def moverTrap (c : Core) (a n : Nat) (write : Bool) : Option (Nat × Nat) :=
  if n < 64 || n > 49152 then some (trCount, 0)
  else if a % 64 ≠ 0 then some (trAlign, a)
  else if n % 64 ≠ 0 then some (trAlign, 0)
  else if outSram a n then some (trAddr, max a sramSize)
  else if write && inRing c a n then some (trRing, max a c.cfg.splBase)
  else none

/-- A mover's work from its word and registers. -/
def moverOf (c : Core) (w : W64) : Mover :=
  { q := fld w 28 27, addr := (c.s.getD (fld w 26 22) 0).toNat, left := (c.s.getD (fld w 21 17) 0).toNat }

/-- QMOVIN at issue. -/
def qmovinOp (u slot : Nat) (w : W64) (s : State) : State :=
  let c := getCore s u
  let m := moverOf c w
  match moverTrap c m.addr m.left true with
  | some (cause, addr) => coreTrap u slot cause addr s
  | none => setCore s u { c with inMover := some m }

/-- QMOVIN. -/
def execQmovin (u : Nat) (s : State) : Out := coreCmd u 0x36 (fun slot w s => qmovinOp u slot w s) s

/-- QMOVOUT at issue. -/
def qmovoutOp (u slot : Nat) (w : W64) (s : State) : State :=
  let c := getCore s u
  let m := moverOf c w
  match moverTrap c m.addr m.left false with
  | some (cause, addr) => coreTrap u slot cause addr s
  | none => setCore s u { c with outMover := some m }

/-- QMOVOUT. -/
def execQmovout (u : Nat) (s : State) : Out := coreCmd u 0x37 (fun slot w s => qmovoutOp u slot w s) s

/-- The inbound mover moves 64 bytes from its queue into local SRAM. -/
def moveIn (c : Core) (m : Mover) : Core :=
  let r := streamTake 64 64 (qAt c.iq m.q)
  let c := setAflags { c with iq := lset c.iq m.q r.2.1, sram := wrN c.sram m.addr r.1 } (entFlags r.2.2)
  { c with inMover := if m.left ≤ 64 then none else some { m with addr := m.addr + 64, left := m.left - 64 } }

/-- The outbound mover moves 64 bytes from local SRAM into its queue. -/
def moveOut (c : Core) (m : Mover) : Core :=
  let c := setVector c (0x30 + m.q) (bytes512 (rdN c.sram m.addr 64))
  { c with outMover := if m.left ≤ 64 then none else some { m with addr := m.addr + 64, left := m.left - 64 } }

/-- QUEUE_MOVER_ENTRY: a running QMOVIN or QMOVOUT moves its next entry; it waits for the queue when that is empty or full. -/
def execQueueMoverEntry (u : Nat) (out : Bool) (s : State) : Out :=
  if !isCc u then .fault (.noSuchObject u)
  else if !enginesRun s u then .next s
  else
    let c := getCore s u
    if out then
      match c.outMover with
      | some m => if (qAt c.oq m.q).ents.length + heldPlaces s u m.q < 4 then .next (setCore s u (moveOut c m)) else .next s
      | none => .next s
    else
      match c.inMover with
      | some m => if 64 ≤ streamAvail (qAt c.iq m.q) then .next (setCore s u (moveIn c m)) else .next s
      | none => .next s

end Sys2Proof.Machine
end

