-- ==== Sys2Proof/Machine/CoreMesh.lean ====
section
/-! DEFINITION. Core instructions of the mesh engine (04 R162 to R164; 07 R272, R275).
Readings: log 6, DESIGN CHOICE; log 19, DEDUCED. -/

namespace Sys2Proof.Machine

open Sys2Proof

/-- A 5-bit register field. -/
def regAt (c : Core) (i : Nat) : Nat := (c.s.getD i 0).toNat

/-- The predicate to write at completion: PD where PW = 1. -/
def pdOf (pw pd : Nat) : Option Nat := if pw = 1 then some pd else none

/-- MSEND: a tagged message of 1 to 4 words of VA; no reply is awaited. -/
def msendOp (u : Nat) (w : W64) (s : State) : State :=
  let c := getCore s u
  let n := fld w 5 4 + 1
  requestOnly u
    { src := u, dest := regAt c (fld w 28 24) % 2 ^ 20, op := opMsg, tag := fld w 23 12, len := n - 1, ctx := c.srCtx,
      payload := bytesWords n (toLe 64 (vectorSrc c (fld w 11 6)).toNat) } s

/-- MSEND. -/
def execMsend (u : Nat) (s : State) : Out := coreCmd u 0x38 (fun _ w s => msendOp u w s) s

/-- The trap of an MPUT's or MGET's count and local address (04 R162, R165). -/
def meshTrap (c : Core) (a n lim : Nat) (write : Bool) : Option (Nat × Nat) :=
  if n < 8 || n > lim then some (trCount, 0)
  else if a % 8 ≠ 0 then some (trAlign, a)
  else if n % 8 ≠ 0 then some (trAlign, 0)
  else if outSram a n then some (trAddr, max a sramSize)
  else if write && inRing c a n then some (trRing, max a c.cfg.splBase)
  else none

/-- Before an MPUT: the held path is released unless this MPUT holds the same destination; then it is held (07 R272). -/
def holdFor (u dest : Nat) (h : Bool) (s : State) : State :=
  if h && (getMif s u).held == some dest then s
  else
    let s := releaseHeld u s
    if h then modMif s u (fun m => { m with held := some dest }) else s

/-- Rows of a group entry (07 R274). -/
def groupRows (g : W64) : Nat := bitsOf g.toNat 39 30 + 1 - bitsOf g.toNat 19 10

/-- The extent word of a multicast (07 R275): X1, Y1, TYPE. -/
def extentWord (g : W64) : W64 :=
  BitVec.ofNat 64 (bitsOf g.toNat 29 20 + 2 ^ 10 * bitsOf g.toNat 39 30 + 2 ^ 20 * bitsOf g.toNat 41 40)

/-- The multicast group table of a unit's polder (07 R274). -/
def groupOfUnit (s : State) (u g : Nat) : W64 :=
  match ownerOf s u with
  | some p => match (getPolder s p).cfg with | some c => c.mcast.getD g 0 | none => 0
  | none => 0

/-- MPUT: a remote write, or a multicast where bit 31 of the destination register is 1 (04 R162, 07 R275). -/
def mputOp (u slot : Nat) (w : W64) (s : State) : State :=
  let c := getCore s u
  let dst := regAt c (fld w 28 24)
  let a := regAt c (fld w 18 14)
  let n := regAt c (fld w 13 9)
  let mc := bitsOf dst 31 31 = 1
  match meshTrap c a n (if mc then 248 else 256) false with
  | some (cause, addr) => coreTrap u slot cause addr s
  | none =>
    let data := bytesWords (n / 8) (rdN c.sram a n)
    let daddr := regAt c (fld w 23 19) % 2 ^ 20
    let pd := pdOf (fld w 4 4) (fld w 7 5)
    if mc then
      let g := groupOfUnit s u (bitsOf dst 25 20)
      request u
        { src := u, dest := unitAt (bitsOf g.toNat 9 0) (bitsOf g.toNat 19 10), op := opWrite, len := n / 8, mcast := true,
          daddr := daddr, ctx := c.srCtx, arg := bitsOf dst 25 20, payload := extentWord g :: data }
        (.mput (List.range (groupRows g)) [] [] none pd) (holdFor u 0 false s)
    else
      let h := fld w 8 8 = 1
      let d := dst % 2 ^ 20
      request u
        { src := u, dest := d, op := opWrite, len := n / 8 - 1, hold := h, daddr := daddr, ctx := c.srCtx, payload := data }
        (.put pd) (holdFor u d h s)

/-- MPUT. -/
def execMput (u : Nat) (s : State) : Out := coreCmd u 0x39 (fun slot w s => mputOp u slot w s) s

/-- MGET: a remote read whose data lands in local SRAM; its landing bytes are checked at issue (04 R141). -/
def mgetOp (u slot : Nat) (w : W64) (s : State) : State :=
  let c := getCore s u
  let a := regAt c (fld w 18 14)
  let n := regAt c (fld w 13 9)
  match meshTrap c a n 256 true with
  | some (cause, addr) => coreTrap u slot cause addr s
  | none =>
    request u
      { src := u, dest := regAt c (fld w 28 24) % 2 ^ 20, op := opRead, len := n / 8 - 1,
        daddr := regAt c (fld w 23 19) % 2 ^ 20, ctx := c.srCtx, arg := a / 8 }
      (.get a (pdOf (fld w 4 4) (fld w 7 5))) s

/-- MGET. -/
def execMget (u : Nat) (s : State) : Out := coreCmd u 0x3A (fun slot w s => mgetOp u slot w s) s

/-- The payload word of a SYNC (07 R252): VALUE, object index, SOP. -/
def syncWord (value idx sop : Nat) : W64 := BitVec.ofNat 64 (value % 2 ^ 32 + 2 ^ 32 * (idx % 1024) + 2 ^ 42 * sop)

/-- A SYNC packet on an object (07 R252): to the field controller of bits [15:10] of its ID. -/
def syncPacket (src obj value sop ctx : Nat) : Packet :=
  { src := src, dest := fcId (bitsOf obj 15 10), op := opSync, ctx := ctx, vc := 0, payload := [syncWord value obj sop] }

/-- SYNC: an operation on the object whose ID is in the object specifier (04 R162, R163). -/
def syncOp (u : Nat) (w : W64) (s : State) : State :=
  let c := getCore s u
  let obj := (scalarSrc c (fld w 25 20)).toNat % 2 ^ 16
  let sop := fld w 28 26
  request u (syncPacket u obj (scalarSrc c (fld w 19 14)).toNat sop c.srCtx)
    (.sync (decide (sop ≥ 3)) (pdOf (fld w 10 10) (fld w 13 11))) s

/-- SYNC. -/
def execSync (u : Nat) (s : State) : Out := coreCmd u 0x3B (fun _ w s => syncOp u w s) s

/-- WCLAIM: a claim on a counter of an MU; SD takes the reply's value (04 R162, R164). -/
def wclaimOp (u : Nat) (w : W64) (s : State) : State :=
  let c := getCore s u
  request u
    { src := u, dest := (scalarSrc c (fB w)).toNat % 2 ^ 20, op := opWclaim, ctx := c.srCtx,
      payload := [BitVec.ofNat 64 (fC w)] }
    (.claim (fA w) (pdOf (fld w 7 7) (fld w 10 8))) s

/-- WCLAIM. -/
def execWclaim (u : Nat) (s : State) : Out := coreCmd u 0x3C (fun _ w s => wclaimOp u w s) s

/-- WDONE: reports a tile complete (04 R162). -/
def wdoneOp (u : Nat) (w : W64) (s : State) : State :=
  let c := getCore s u
  request u
    { src := u, dest := (scalarSrc c (fB w)).toNat % 2 ^ 20, op := opWdone, ctx := c.srCtx,
      payload := [BitVec.ofNat 64 (fC w + 2 ^ 32 * (scalarSrc c (fld w 5 0)).toNat)] }
    (.done (pdOf (fld w 7 7) (fld w 10 8))) s

/-- WDONE. -/
def execWdone (u : Nat) (s : State) : Out := coreCmd u 0x3D (fun _ w s => wdoneOp u w s) s

end Sys2Proof.Machine
end

