-- ==== Sys2Proof/Machine/Mcast.lean ====
section
/-! DEFINITION. The rows of a multicast and their replies (07 R274 to R277). Readings: log 30, DEDUCED. -/

namespace Sys2Proof.Machine

open Sys2Proof

/-! ## Multicast rows (07 R276, R277) -/

/-- The columns of the targets of a multicast row: type 0 CC, 1 MU, 2 SFU, 3 any (07 R274). -/
def targetCols (x0 x1 typ : Nat) : List Nat :=
  (span x0 x1).filter (fun x =>
    let k := x % 12
    if typ = 0 then k != 5 && k != 6 else if typ = 1 then k == 5 else if typ = 2 then k == 6 else true)

/-- The target columns that a multicast packet names by its DEST and extent word. -/
def packetCols (p : Packet) : List Nat :=
  let e := (p.payload.headD 0).toNat
  targetCols (unitX p.dest) (bitsOf e 9 0) (bitsOf e 21 20)

/-- Number of column x among a row's targets. -/
def colNumber (cols : List Nat) (x : Nat) : Nat := (cols.takeWhile (fun c => c != x)).length

/-- The bitmap words of an MC_NACK for n targets (07 R277). -/
def bitmapWords (n : Nat) (set : List Nat) : List W64 :=
  (List.range ((n + 63) / 64)).map (fun w =>
    BitVec.ofNat 64 ((List.range 64).foldl (fun a i => a + 2 ^ i * b2n (set.contains (64 * w + i))) 0))

/-- The reply of router u for a multicast row of n targets: MC_ACK, or MC_NACK with the targets that hold no copy. -/
def rowReply (ok : Bool) (u src seq ctx off n : Nat) (refused : List Nat) (s : State) : State :=
  let ws := if ok then [] else bitmapWords n refused
  routerReply u
    { dest := src, op := if ok then opMcAck else opMcNack, src := u, seq := seq, ctx := ctx, vc := 2,
      len := ws.length - 1, arg := off, payload := ws } s

/-- A row whose branch has ended and whose targets have all answered sends its reply once its last router has room for it (07
R257, R277). -/
def mcSettle (s : State) : State :=
  match s.mcRows.find? (fun r => (match r.ended with | some v => answerRoom s v 2 | none => false) && r.waiting.isEmpty) with
  | some r =>
    let s := { s with mcRows := s.mcRows.filter (fun x => !(x.src == r.src && x.seq == r.seq && x.off == r.off)) }
    rowReply (r.refused.isEmpty && !r.dropped) (r.ended.getD 0) r.src r.seq r.ctx r.off r.n r.refused s
  | none => s

/-- Target u has answered its copy of a multicast: committed, or refused. -/
def mcAnswer (u : Nat) (p : Packet) (refused : Bool) (s : State) : State :=
  let off := unitY u - unitY p.dest
  let k := colNumber (packetCols p) (unitX u)
  mcSettle { s with mcRows := s.mcRows.map (fun r =>
    if r.src == p.src && r.seq == p.seq && r.off == off && !r.dropped then
      { r with waiting := r.waiting.filter (fun i => i != k), refused := if refused then insertNat k r.refused else r.refused }
    else r) }

end Sys2Proof.Machine
end

