-- ==== Sys2Proof/Machine/Sfu.lean ====
section
/-! DEFINITION. The special-function unit (05 R170 to R183): descriptors, functions, rows and the taking of an entry.
Readings: log 3, DESIGN CHOICE; log 6, DESIGN CHOICE. -/

namespace Sys2Proof.Machine

open Sys2Proof

/-! ## Functions (05 R173 to R177) -/

/-- Table entry n as four FP32 coefficients, c0 first (05 R175). -/
def coeffs (table : List (BitVec 128)) (n : Nat) : List W32 :=
  let e := table.getD n 0
  (List.range 4).map (fun i => e.extractLsb' (32 * i) 32)

/-- ((c3 t + c2) t + c1) t + c0 as three fused multiply-adds, each rounded; t is exact (05 R175); UF where the last, whose result it is, is
tiny and inexact (03 R582). -/
def polyFl (table : List (BitVec 128)) (n : Nat) (t : Num) : W32 × Fl :=
  let c := coeffs table n
  let step := fun (acc : W32) (i : Nat) => addNum (mulNum (rd32 acc) t) (rd32 (c.getD i 0))
  let r := step (step (step (c.getD 3 0) 2).1 1).1 0
  (r.1, r.2 &&& fUF)

/-- Its value, where a further operation gives the function's result. -/
def poly (table : List (BitVec 128)) (n : Nat) (t : Num) : W32 := (polyFl table n t).1

/-- The value k * m * 2^e as its integer part and its exact fraction. -/
def segment (k m : Nat) (e : Int) : Nat × Num :=
  if e ≥ 0 then (k * m * 2 ^ e.toNat, .fin false 0 0)
  else
    let d := 2 ^ (-e).toNat
    (k * m / d, .fin false (k * m % d) e)

/-- A value times 2^k: exact, rounded once where the result is subnormal (05 R175). One beyond the FP32 range gives infinity with
OF (log 45, DESIGN CHOICE). -/
def scale2 (x : W32) (k : Int) : W32 × Fl :=
  match rd32 x with
  | .fin n m e => toFp32 n m (e + k)
  | _ => (x, 0)

/-- The flags of EXP2's and RCP's scaling (05 R177): OF, and UF where the result is tiny and inexact (03 R582). -/
def scaleFlags (f : Fl) : Fl := f &&& (fOF ||| fUF)

/-- The FP32 number log2 e (log 45, DESIGN CHOICE). -/
def log2e : W32 := if Config.log2eUp then 0x3FB8AA3C else 0x3FB8AA3B

/-- 2 / pi as 96 bits of fraction (log 45, DESIGN CHOICE). -/
def quarterConst : Nat := 0xA2F9836E4E441529FC2757D1 + b2n Config.quarterUp

/-- FP32 one. -/
def one32 : W32 := 0x3F800000

/-- EXP2. -/
def fnExp2 (tab : List (BitVec 128)) (u : W32) : W32 × Fl :=
  match rd32 u with
  | .nan s => (nan32, fIf s fNV)
  | .inf n => if n then (0, 0) else (inf32 false, 0)
  | .fin neg m e =>
    if !neg && !magGt 128 0 m e then (inf32 false, fOF)
    else if neg && magGt m e 149 0 then (0, fUF)
    else
      -- u = n + f with n = floor u
      let v := signed neg m
      let nf : Int × Nat × Int :=
        if e ≥ 0 then (v * 2 ^ e.toNat, 0, 0)
        else
          let d : Int := 2 ^ (-e).toNat
          (v / d, (v % d).toNat, e)
      let sg := segment 64 nf.2.1 nf.2.2
      let r := scale2 (poly tab sg.1 sg.2) nf.1
      (r.1, scaleFlags r.2)

/-- A finite value not zero as 2^e times 1 + g / 2^23 over its leading bit: e and the exact fraction (m - 1) as q * 2^p. -/
def normalise (m : Nat) (e : Int) : Int × Nat × Int :=
  let k := Nat.log2 m
  ((k : Int) + e, m - 2 ^ k, -(k : Int))

/-- LOG2. Of plus infinity 05 R177 states no result: a free value (log 3, DESIGN CHOICE). -/
def fnLog2 (tab : List (BitVec 128)) (u : W32) : W32 × Fl :=
  match rd32 u with
  | .nan s => (nan32, fIf s fNV)
  | .inf n => if n then (nan32, fNV) else (Config.sfuOpen 2 u, 0)
  | .fin neg m e =>
    if m = 0 then (inf32 true, fDZ)
    else if neg then (nan32, fNV)
    else
      let x := normalise m e
      let sg := segment 64 x.2.1 x.2.2
      let ex := (toFp32 (decide (x.1 < 0)) x.1.natAbs 0).1
      let r := fadd ex (poly tab (64 + sg.1) sg.2)
      (r.1, r.2 &&& fUF)

/-- RCP. -/
def fnRcp (tab : List (BitVec 128)) (u : W32) : W32 × Fl :=
  match rd32 u with
  | .nan s => (nan32, fIf s fNV)
  | .inf n => (BitVec.ofNat 32 (2 ^ 31 * b2n n), 0)
  | .fin neg m e =>
    if m = 0 then (inf32 neg, fDZ)
    else
      let x := normalise m e
      let sg := segment 64 x.2.1 x.2.2
      let r := scale2 (poly tab (128 + sg.1) sg.2) (-x.1)
      let y := if neg then r.1 ^^^ 0x80000000 else r.1
      (y, scaleFlags r.2)

/-- The table value of SQRT (region 192) or RSQRT (region 256) and its power of two. -/
def rootValue (tab : List (BitVec 128)) (region m : Nat) (e : Int) : W32 × Int :=
  let x := normalise m e
  let sg := segment 32 x.2.1 x.2.2
  (poly tab (region + 32 * (x.1 % 2).toNat + sg.1) sg.2, x.1 / 2)

/-- SQRT. Of plus infinity 05 R177 states no result: a free value (log 3, DESIGN CHOICE). -/
def fnSqrt (tab : List (BitVec 128)) (u : W32) : W32 × Fl :=
  match rd32 u with
  | .nan s => (nan32, fIf s fNV)
  | .inf n => if n then (nan32, fNV) else (Config.sfuOpen 4 u, 0)
  | .fin neg m e =>
    if m = 0 then (u, 0)
    else if neg then (nan32, fNV)
    else
      let r := rootValue tab 192 m e
      let y := scale2 r.1 r.2
      (y.1, y.2 &&& fUF)

/-- RSQRT. -/
def fnRsqrt (tab : List (BitVec 128)) (u : W32) : W32 × Fl :=
  match rd32 u with
  | .nan s => (nan32, fIf s fNV)
  | .inf n => if n then (nan32, fNV) else (0, 0)
  | .fin neg m e =>
    if m = 0 then (inf32 neg, fDZ)
    else if neg then (nan32, fNV)
    else
      let r := rootValue tab 256 m e
      let y := scale2 r.1 (-r.2)
      (y.1, y.2 &&& fUF)

/-- The magnitude of an FP32 number. -/
def fabs (x : W32) : W32 := x &&& 0x7FFFFFFF

/-- TANH. -/
def fnTanh (tab : List (BitVec 128)) (u : W32) : W32 × Fl :=
  match rd32 u with
  | .nan s => (nan32, fIf s fNV)
  | .fin neg m e =>
    if magGt 8 0 m e then
      let sg := segment 8 m e
      let p := polyFl tab (320 + sg.1) sg.2
      (if neg then p.1 ^^^ 0x80000000 else p.1, p.2)
    else tail neg
  | .inf neg => tail neg
where
  /-- Out of range: sign(u) (1 - 2 RCP(1 + EXP2(2 |u| log2 e))) (05 R177). -/
  tail (neg : Bool) : W32 × Fl :=
    let a := (fmul (fmul 0x40000000 (fabs u)).1 log2e).1
    let r := (fnRcp tab (fadd one32 (fnExp2 tab a).1).1).1
    let y := (fsub one32 (fmul 0x40000000 r).1).1
    (if neg then y ^^^ 0x80000000 else y, 0)

/-- The segment and fraction of 4 (u + 8) for a finite u with -8 <= u < 8. -/
def seg8 (neg : Bool) (m : Nat) (e : Int) : Nat × Num :=
  let q := min e 0
  let v := (signed neg (scaleTo m e q) + 8 * 2 ^ (-q).toNat).toNat
  segment 4 v q

/-- Is a finite value at least 8, or at most -8. -/
def far8 (m : Nat) (e : Int) : Bool := !magGt 8 0 m e

/-- Is a magnitude exactly 8. -/
def is8 (m : Nat) (e : Int) : Bool := !magGt 8 0 m e && !magGt m e 8 0

/-- SIGMOID. At u = -8, which 05 R175 and R177 leave out, segment 0 applies (log 45, DESIGN CHOICE). -/
def fnSigmoid (tab : List (BitVec 128)) (u : W32) : W32 × Fl :=
  match rd32 u with
  | .nan s => (nan32, fIf s fNV)
  | .inf neg => tail neg
  | .fin neg m e =>
    if far8 m e && !(neg && is8 m e) then tail neg
    else
      let sg := seg8 neg m e
      polyFl tab (384 + sg.1) sg.2
where
  /-- Out of range (05 R177). -/
  tail (neg : Bool) : W32 × Fl :=
    let ex := fnExp2 tab (fmul (if neg then u else u ^^^ 0x80000000) log2e).1
    let p := fmul ex.1 (fnRcp tab (fadd one32 ex.1).1).1
    if neg then (p.1, (ex.2 ||| p.2) &&& fUF) else ((fsub one32 p.1).1, 0)

/-- GELU. -/
def fnGelu (tab : List (BitVec 128)) (u : W32) : W32 × Fl :=
  match rd32 u with
  | .nan s => (nan32, fIf s fNV)
  | .inf neg => (if neg then 0x80000000 else u, 0)
  | .fin neg m e =>
    if far8 m e then (if neg then 0x80000000 else u, 0)
    else
      let sg := seg8 neg m e
      polyFl tab (448 + sg.1) sg.2

/-- An operand in quarter periods (05 R175): the quadrant, and the exact fraction w as n * 2^e. -/
def quarters (neg : Bool) (m : Nat) (e : Int) : Nat × Nat × Int :=
  let q := 96 - e
  let d : Int := 2 ^ q.toNat
  let v := signed neg (m * quarterConst)
  ((v / d % 4).toNat, (v % d).toNat, -q)

/-- SIN (region 512) and COS (region 576) of an operand reduced to quarter periods: a quarter turns sine into cosine (05 R175). -/
def fnTrig (tab : List (BitVec 128)) (cosine : Bool) (u : W32) : W32 × Fl :=
  match rd32 u with
  | .nan s => (nan32, fIf s fNV)
  | .inf _ => (nan32, fNV)
  | .fin neg m e =>
    if magGt m e 65536 0 then (nan32, fNV)
    else
      let r := quarters neg m e
      let sg := segment 64 r.2.1 r.2.2
      let q := (r.1 + b2n cosine) % 4
      let p := polyFl tab ((if q % 2 = 0 then 512 else 576) + sg.1) sg.2
      (if q ≥ 2 then p.1 ^^^ 0x80000000 else p.1, p.2)

/-- f(u) of 05 R174 for the functions of one lane; the reductions and DROPOUT take u itself. -/
def sfuFn (func : Nat) (tab : List (BitVec 128)) (u : W32) : W32 × Fl :=
  if func = 1 then fnExp2 tab u
  else if func = 2 then fnLog2 tab u
  else if func = 3 then fnRcp tab u
  else if func = 4 then fnSqrt tab u
  else if func = 5 then fnRsqrt tab u
  else if func = 6 then fnTanh tab u
  else if func = 7 then fnSigmoid tab u
  else if func = 8 then fnGelu tab u
  else if func = 9 then fnTrig tab false u
  else if func = 10 then fnTrig tab true u
  else match rd32 u with | .nan s => (nan32, fIf s fNV) | _ => (u, 0)

/-- Steps 1 and 2 of 05 R173: u of a lane. -/
def laneIn (d : SfuDesc) (sv x : W32) : W32 × Fl :=
  let a := if d.rowop = 1 then fsub x sv else (x, 0)
  let b := ffma d.a a.1 d.b
  (b.1, a.2 ||| b.2)

/-- Step 4 of 05 R173. -/
def laneOut (d : SfuDesc) (sv v : W32) : W32 × Fl :=
  let a := if d.rowop = 2 then fmul sv v else (v, 0)
  let b := fmul d.c a.1
  (b.1, a.2 ||| b.2)

/-- One lane of a function that gives an entry for every entry. -/
def laneFn (d : SfuDesc) (tab : List (BitVec 128)) (sv x : W32) : W32 × Fl :=
  let u := laneIn d sv x
  let v := sfuFn d.func tab u.1
  let y := laneOut d sv v.1
  (y.1, u.2 ||| v.2 ||| y.2)

/-- One lane of DROPOUT: kept when its random value is below KEEP (05 R180); one not kept sets no flag (log 45, DESIGN CHOICE). -/
def laneDrop (d : SfuDesc) (sv x : W32) (r : Nat) : W32 × Fl :=
  if r < d.keep then laneFn d [] sv x else (0, 0)

/-- One lane of UNIFORM from two random values (05 R180). -/
def laneUniform (d : SfuDesc) (sv : W32) (r0 r1 : Nat) : W32 × Fl :=
  laneOut d sv (toFp32 false ((r1 * 65536 + r0) % 2 ^ 24) (-24)).1

/-- The running result of a reduction after an entry's lanes u (05 R178). -/
def reduceStep (func : Nat) (acc : W32) (us : List W32) : W32 × Fl :=
  if func = 17 then
    let t := treeReduce fadd 4 us
    let r := fadd acc t.1
    (r.1, t.2 ||| r.2)
  else us.foldl (fun a u => let r := fmax a.1 u; (r.1, a.2 ||| r.2)) (acc, 0)

/-! ## Descriptors (05 R171, R172, R178 to R180) -/

/-- Does a descriptor draw random values. -/
def isRandom (d : SfuDesc) : Bool := d.func == 20 || d.func == 21

/-- Is a descriptor a reduction. -/
def isReduce (d : SfuDesc) : Bool := d.func == 16 || d.func == 17

/-- Does a descriptor use rows. -/
def usesRows (d : SfuDesc) : Bool := d.rowop != 0 || isReduce d || isRandom d

/-- Is the next entry the first of a row. -/
def rowStarts (p : SdProg) : Bool := p.row == 0

/-- Is the next entry the last of a row. -/
def rowEnds (d : SfuDesc) (p : SdProg) : Bool := decide (p.row + 16 ≥ d.rowlen)

/-- Does taking the next entry produce one. -/
def produces (d : SfuDesc) (p : SdProg) : Bool := !isReduce d || rowEnds d p

/-- Has a descriptor's FRAME_ENTRIES been reached. -/
def entriesDone (d : SfuDesc) (p : SdProg) : Bool := d.frameEntries != 0 && decide (p.count.toNat ≥ d.frameEntries)

/-- Everything of 05 R172 but the seed. -/
def descOpen (c : Sfu) (d : SfuDesc) (p : SdProg) : Bool :=
  d.func != 31 && !entriesDone d p && !(qAt c.siq d.inQ).ents.isEmpty &&
    (!produces d p || decide ((qAt c.soq d.outQ).ents.length < 4)) &&
    (d.rowop == 0 || !rowStarts p || !(qAt c.siq d.sq).ents.isEmpty) &&
    (!isRandom d || !rowStarts p || !(qAt c.siq d.ctxq).ents.isEmpty)

/-- The context that the head of CTXQ names. -/
def ctxHead (c : Sfu) (d : SfuDesc) : Nat := (qHead c.siq d.ctxq).toNat % 2 ^ 13

/-- Does a random descriptor's row have to fetch a seed first: another context's, or none valid (05 R180). -/
def needSeed (c : Sfu) (d : SfuDesc) (p : SdProg) : Bool :=
  isRandom d && ((rowStarts p && c.sctx != ctxHead c d) || !c.svalid)

/-- The descriptors with their numbers and progress. -/
def numbered (c : Sfu) : List (Nat × SfuDesc × SdProg) :=
  (List.range 8).map (fun i => (i, c.cfg.descs.getD i {}, c.prog.getD i {}))

/-- The value S of a row: the SCL value, or lane 0 of the VEC head (05 R171). -/
def rowValue (c : Sfu) (d : SfuDesc) : W32 := (qHead c.siq d.sq).truncate 32

/-- Start the fetch of a seed (05 R180). -/
def startFetch (c : Sfu) (d : SfuDesc) (p : SdProg) : Sfu :=
  if c.sfetch then c
  else if rowStarts p && c.sctx != ctxHead c d then
    { c with sctx := ctxHead c d, svalid := false, sfetch := true, drawn := 0 }
  else { c with sfetch := true }

/-- The random values of an entry: 16-bit values of n words, and whether there was no seed. -/
def sfuDraw (u n : Nat) (frameLo : W32) (c : Sfu) : List Nat × Sfu :=
  let c' := { c with drawn := c.drawn + BitVec.ofNat 32 n, sflags := if c.seed = 0 then setBit c.sflags 4 else c.sflags }
  (randValues c.seed u frameLo c.drawn n, c')

/-- The lanes of the result of an entry that gives one at once: random functions and the functions of one lane. -/
def entryLanes (u : Nat) (frameLo : W32) (d : SfuDesc) (sv : W32) (x : W512) (c : Sfu) : List (W32 × Fl) × Sfu :=
  if d.func = 20 then
    let r := sfuDraw u 4 frameLo c
    ((List.range 16).map (fun i => laneDrop d sv (lane x i) (r.1.getD i 0)), r.2)
  else if d.func = 21 then
    let r := sfuDraw u 8 frameLo c
    ((List.range 16).map (fun i => laneUniform d sv (r.1.getD (2 * i) 0) (r.1.getD (2 * i + 1) 0)), r.2)
  else ((lanes x).map (laneFn d c.cfg.table sv), c)

/-- The four flag bits of an output entry (05 R181). -/
def entryFlagBits (f : Fl) : BitVec 4 := f.truncate 4

/-- Put a result in OUT with its flags, which go to SFLAGS too. -/
def sfuEmit (d : SfuDesc) (r : W512 × Fl) (c : Sfu) : Sfu :=
  { c with soq := lmod c.soq d.outQ (fun q => qPush q { bits := r.1, flags := entryFlagBits r.2 }),
           sflags := c.sflags ||| (entryFlagBits r.2).zeroExtend 5 }

/-- Take one entry for descriptor i (05 R172, R173, R178, R179). RSUM starts a row at +0 (log 45, DESIGN CHOICE). -/
def sfuTake (u : Nat) (frameLo : W32) (i : Nat) (d : SfuDesc) (p : SdProg) (c : Sfu) : Sfu :=
  let x := qHead c.siq d.inQ
  let sv := if rowStarts p then rowValue c d else p.sval
  let last := rowEnds d p
  let c := { c with siq := lmod c.siq d.inQ (fun q => (qPop q).1) }
  let c := if isRandom d && rowStarts p then { c with siq := lmod c.siq d.ctxq (fun q => (qPop q).1) } else c
  let c := if d.rowop != 0 && last then { c with siq := lmod c.siq d.sq (fun q => (qPop q).1) } else c
  let row := if usesRows d then (if last then 0 else p.row + 16) else 0
  let p' := { p with count := p.count + 1, row := row, sval := sv }
  if isReduce d then
    let us := (lanes x).map (laneIn d sv)
    let start : W32 := if d.func = 16 then inf32 true else 0
    let r := reduceStep d.func (if rowStarts p then start else p.red) (us.map (·.1))
    let fl : Fl := us.foldl (fun f y => f ||| y.2) r.2 ||| (if rowStarts p then 0 else p.redFlags.zeroExtend 8)
    let c := { c with prog := lset c.prog i { p' with red := r.1, redFlags := entryFlagBits fl } }
    if last then
      let y := laneOut d sv r.1
      sfuEmit d (ofLanes (List.replicate 16 y.1), fl ||| y.2) c
    else c
  else
    let r := entryLanes u frameLo d sv x c
    sfuEmit d (joinLanes r.1) { r.2 with prog := lset r.2.prog i p' }

/-- One cclk of an SFU: the lowest descriptor that waits for a seed starts its fetch; the lowest ready one takes an entry. -/
def sfuStep (u : Nat) (frameLo : W32) (c : Sfu) : Sfu :=
  let l := numbered c
  let c' := match l.find? (fun e => descOpen c e.2.1 e.2.2 && needSeed c e.2.1 e.2.2) with
    | some e => startFetch c e.2.1 e.2.2
    | none => c
  match l.find? (fun e => descOpen c e.2.1 e.2.2 && !needSeed c' e.2.1 e.2.2) with
  | some e => sfuTake u frameLo e.1 e.2.1 e.2.2 c'
  | none => c'

/-- Does unit u run: its polder is RUNNING with a frame in progress and its field is up. -/
def unitRuns (s : State) (u : Nat) : Bool :=
  match ownerOf s u with
  | none => false
  | some p => (getPolder s p).state == 2 && (getPolder s p).frame.isSome && lit s (fieldOf u)

/-- Low half of the number of the frame in which unit u runs. -/
def frameLoOf (s : State) (u : Nat) : W32 :=
  match ownerOf s u with
  | none => 0
  | some p => match frameOf (getPolder s p) with | some f => f.num.truncate 32 | none => 0

/-- SFU_INPUT_ENTRY. -/
def execSfuInputEntry (u : Nat) (s : State) : Out :=
  if !isSfu u then .fault (.noSuchObject u)
  else
    let c := getSfu s u
    if unitRuns s u && !c.fenced then .next (setSfu s u (sfuStep u (frameLoOf s u) c)) else .next s

end Sys2Proof.Machine
end

