-- ==== Sys2Proof/Machine/Mu.lean ====
section
/-! DEFINITION. The memory unit (05 R186 to R214): banks, the stream cache, FIFO banks, work counters, registers, and the
stream descriptors. Readings: log 12, DESIGN CHOICE; log 30, DEDUCED. -/

namespace Sys2Proof.Machine

open Sys2Proof

/-! ## Banks and windows -/

/-- Mode of bank b: 0 OFF, 1 SCRATCH, 2 CACHE, 3 FIFO, 4 WORK, 5 CONFIG (05 R186). -/
def bankMode (m : Mu) (b : Nat) : Nat := m.cfg.modes.getD b 0

/-- Bytes of a bank. -/
def bankSize : Nat := 0x30000

/-- BANK_WIN of bank b. -/
def winOf (m : Mu) (b : Nat) : Nat := (m.win.getD b 0).toNat

/-- DRAM base of a window. -/
def winBase (m : Mu) (b : Nat) : Nat := bitsOf (winOf m b) 40 19 * 2 ^ 19
/-- Is a window paged. -/
def winPaged (m : Mu) (b : Nat) : Bool := bitsOf (winOf m b) 41 41 == 1
/-- Context of a window. -/
def winCtx (m : Mu) (b : Nat) : Nat := bitsOf (winOf m b) 54 42
/-- Does a window accept writes. -/
def winWr (m : Mu) (b : Nat) : Bool := bitsOf (winOf m b) 55 55 == 1

/-- The interleave granule G (10 R335). -/
def granule (s : State) : Nat := if s.ilv = 0 then 256 else if s.ilv = 2 then 65536 else 4096

/-- The stack of a physical address (10 R336). -/
def stackOf (s : State) (a : Nat) : Nat := a / granule s % 32

/-- The translating MEC of a context and page (10 R349). -/
def translator (ctx vpn : Nat) : Nat := (ctx + vpn) % 32

/-- An address word (10 R342). -/
def addressWord (wordAddr : Nat) (paged : Bool) (words land : Nat) : W64 :=
  BitVec.ofNat 64 (wordAddr % 2 ^ 38 + 2 ^ 38 * b2n paged + 2 ^ 39 * (words - 1) + 2 ^ 44 * land)

/-- A DREAD or DWRITE from source src at byte address a of physical or context space (10 R342, R349). -/
def dramPacket (s : State) (src op a : Nat) (paged : Bool) (ctx words land : Nat) (data : List W64) : Packet :=
  { src := src, op := op, len := data.length, ctx := ctx,
    dest := mecId (if paged then translator ctx (a / 65536) else stackOf s a),
    payload := addressWord (a / 8) paged words land :: data }

/-! ## The stream cache (05 R192 to R196, 10 R362) -/

/-- Key of way w of the set of window line wl in bank b. -/
def lineKey (b wl w : Nat) : Nat := 1536 * b + 8 * (wl % 192) + w

/-- Where the bytes of a line stand in the unit's memory (log 12, DESIGN CHOICE). -/
def lineAddr (k : Nat) : Nat := bankSize * (k / 1536) + 128 * (k % 1536)

/-- The line of bank b that holds window line wl. -/
def findLine (m : Mu) (b wl : Nat) : Option (Nat × Line) :=
  (List.range 8).findSome? (fun w =>
    match mget? m.lines (lineKey b wl w) with
    | some l => if l.wline = wl then some (lineKey b wl w, l) else none
    | none => none)

/-- Window offset at which descriptor d stands. -/
def sdOffset (d : MuSd) (p : MsProg) : Nat := d.addr + p.rep * d.pitch + p.moved

/-- Is window line wl of bank b in use by a descriptor (05 R193). -/
def lineInUse (m : Mu) (b wl : Nat) : Bool :=
  (List.range 8).any (fun i =>
    let p := m.prog.getD i {}
    match m.cfg.sds[i]? with
    | some d => p.running && d.bank == b && sdOffset d p / 128 == wl
    | none => false)

/-- The way that window line wl may be allocated to: an empty one, else the least recently used that holds no
outstanding fill and no line in use (05 R193). -/
def victim (m : Mu) (b wl : Nat) : Option Nat :=
  let keys := (List.range 8).map (lineKey b wl)
  match keys.find? (fun k => (mget? m.lines k).isNone) with
  | some k => some k
  | none =>
    let cand := keys.filterMap (fun k =>
      match mget? m.lines k with
      | some l => if l.fill || lineInUse m b l.wline then none else some (k, l.age)
      | none => none)
    match cand with
    | [] => none
    | c :: cs => some (cs.foldl (fun x y => if y.2 < x.2 then y else x) c).1

/-- Write back line k of unit u with one DWRITE of 16 words (10 R362); its bytes go as they stand. -/
def writeBack (u k : Nat) (l : Line) (s : State) : State :=
  let m := getMu s u
  let b := k / 1536
  let a := winBase m b + 128 * l.wline
  request u (dramPacket s u opDwrite a (winPaged m b) (if winPaged m b then winCtx m b else 0) 16 0
    (bytesWords 16 (rdN m.mem (lineAddr k) 128))) (.wback k l.wline) s

/-- Allocate window line wl of bank b, writing back what it displaces; none: every way is held. `fill` asks for its fill. The allocation
counts as a miss, also where a descriptor asks for the line ahead (log 48, DESIGN CHOICE). -/
def allocLine (u b wl : Nat) (fill : Bool) (s : State) : Option State :=
  let m := getMu s u
  match victim m b wl with
  | none => none
  | some k =>
    let s := match mget? m.lines k with
      | some l => if l.dirty then writeBack u k l s else s
      | none => s
    let s := modMu s u (fun m => { m with lines := mput m.lines k { wline := wl, fill := fill, fresh := true, age := m.clock },
                                          clock := m.clock + 1, misses := lmod m.misses b incCnt })
    if fill then
      let a := winBase m b + 128 * wl
      some (request u (dramPacket s u opDread a (winPaged m b) (if winPaged m b then winCtx m b else 0) 16 (lineAddr k / 8) []) (.fill k) s)
    else some s

/-- Ask for every line of a list that is not present; lines of `whole` are allocated without a fill (05 R193). -/
def askLines (u b : Nat) (whole : List Nat) (wls : List Nat) (s : State) : State :=
  forEach wls (fun wl s =>
    if (findLine (getMu s u) b wl).isSome then s else (allocLine u b wl (!whole.contains wl) s).getD s) s

/-- Are all lines of a list present with their fills done. -/
def linesReady (m : Mu) (b : Nat) (wls : List Nat) : Bool :=
  wls.all (fun wl => match findLine m b wl with | some r => !r.2.fill | none => false)

/-- Is a window of bank b waiting for its new base (05 R195). -/
def winWaits (m : Mu) (b : Nat) : Bool := m.winPend.any (fun x => x.2.1 == b)

/-- A line is used: most recently used, dirty where it is written; a hit, but for the access whose miss brought it. An access or entry
counts once for each line that it touches (log 48, DESIGN CHOICE). -/
def touchLine (b wl : Nat) (dirty : Bool) (m : Mu) : Mu :=
  match findLine m b wl with
  | some (k, l) => { m with lines := mput m.lines k { l with age := m.clock, dirty := l.dirty || dirty, fresh := false },
                            clock := m.clock + 1, hits := if l.fresh then m.hits else lmod m.hits b incCnt }
  | none => m

/-- The lines that n bytes from window offset o touch. -/
def linesOf (o n : Nat) : List Nat := span (o / 128) ((o + n - 1) / 128)

/-- The address in the unit's memory of a window offset whose line is present. -/
def cacheAddr (m : Mu) (b o : Nat) : Nat :=
  match findLine m b (o / 128) with
  | some r => lineAddr r.1 + o % 128
  | none => 0

/-- Read n bytes of a window. -/
def cacheRead (m : Mu) (b o n : Nat) : List Byte := (List.range n).map (fun i => rd8 m.mem (cacheAddr m b (o + i)))

/-- Write bytes of a window whose lines are present. -/
def cacheWrite (b o : Nat) (bs : List Byte) (m : Mu) : Mu :=
  (bs.zipIdx).foldl (fun m x => { m with mem := wr8 m.mem (cacheAddr m b (o + x.2)) x.1 }) m

/-- Requests of unit u for bank b that are outstanding: fills and write-backs. -/
def bankOut (s : State) (u b : Nat) : Bool :=
  (getMif s u).outst.any (fun o => match o.use with | .fill k => k / 1536 == b | .wback k _ => k / 1536 == b | _ => false)

/-- Write back every dirty line of the banks a test picks. -/
def flushBanks (u : Nat) (t : Nat → Bool) (s : State) : State :=
  forEach (getMu s u).lines (fun e s =>
    if t (e.1 / 1536) && e.2.dirty then
      modMu (writeBack u e.1 e.2 s) u (fun m => { m with lines := mput m.lines e.1 { e.2 with dirty := false } })
    else s) s

/-- Has a unit a dirty line in a bank a test picks. -/
def dirtyIn (m : Mu) (t : Nat → Bool) : Bool := m.lines.any (fun e => t (e.1 / 1536) && e.2.dirty)

/-- Write-backs of unit u that are outstanding. -/
def wbackOut (s : State) (u : Nat) : Bool :=
  (getMif s u).outst.any (fun o => match o.use with | .wback _ _ => true | _ => false)

/-- MU_STAT.FLUSH falls with the last write-back (05 R214). -/
def flushSettle (u : Nat) (s : State) : State :=
  if wbackOut s u then s else modMu s u (fun m => { m with flush := false })

/-- New window bases whose bank has finished its write-back take effect; a WRITE is acknowledged when every base it wrote has
taken effect (05 R195). -/
def winSettle (u : Nat) (s : State) : State :=
  forEach (getMu s u).winPend (fun x s =>
    if bankOut s u x.2.1 then s
    else
      let s := modMu s u (fun m =>
        { m with lines := m.lines.filter (fun e => e.1 / 1536 != x.2.1),
                 win := lmod m.win x.2.1 (fun w =>
                   BitVec.ofNat 64 (bitsOf x.2.2.toNat 54 19 * 2 ^ 19 + bitsOf w.toNat 55 55 * 2 ^ 55)),
                 winPend := m.winPend.filter (fun y => y.2.1 != x.2.1) })
      match x.1 with
      | some p =>
        if (getMu s u).winPend.any (fun y => y.1 == some p) then s
        else if p.mcast then mcAnswer u p false s
        else reply p u opAck 0 0 0 [] s
      | none => s) s

/-- A write of BANK_WIN_b begins (05 R195): the bank is written back, and its new value waits for that. -/
def winBegin (u b : Nat) (v : W64) (p : Option Packet) (s : State) : State :=
  let s := flushBanks u (fun x => x == b) s
  modMu s u (fun m => { m with winPend := m.winPend ++ [(p, b, v)] })

/-- A write of BANK_WIN_b (05 R195): the bank is written back and invalidated, then the new value applies. -/
def winWrite (u b : Nat) (v : W64) (p : Option Packet) (s : State) : State := winSettle u (winBegin u b v p s)

/-- WIN_BASE_WRITE: a write of bank b's window base. -/
def execWinBaseWrite (u b : Nat) (v : W64) (s : State) : Out :=
  if !isMu u then .fault (.noSuchObject u)
  else if b ≥ 4 then .fault (.noSuchObject b)
  else if winWaits (getMu s u) b then .next s
  else .next (winWrite u b v none s)

/-! ## FIFO banks (05 R197, R198) -/

/-- Address of entry i after the next one to pop. -/
def fifoAddr (m : Mu) (b i : Nat) : Nat := bankSize * b + 64 * (((m.fifo.getD b {}).rd + i) % 3072)

/-- Push one entry of 64 bytes. -/
def fifoPush (b : Nat) (bs : List Byte) (m : Mu) : Mu :=
  { m with mem := wrN m.mem (fifoAddr m b (m.fifo.getD b {}).held) bs,
           fifo := lmod m.fifo b (fun f => { f with held := f.held + 1, free := f.free - 1 }) }

/-- Pop one entry. -/
def fifoPop (b : Nat) (m : Mu) : List Byte × Mu :=
  (rdN m.mem (fifoAddr m b 0) 64, { m with fifo := lmod m.fifo b (fun f => { f with rd := (f.rd + 1) % 3072, held := f.held - 1 }) })

/-- Push a list of bytes, 64 at a time. -/
def fifoPushN (b : Nat) : Nat → List Byte → Mu → Mu
  | 0, _, m => m
  | n + 1, bs, m => fifoPushN b n (bs.drop 64) (fifoPush b (bs.take 64) m)

/-- Pop n entries. -/
def fifoPopN (b : Nat) : Nat → Mu → List Byte × Mu
  | 0, m => ([], m)
  | n + 1, m =>
    let r := fifoPop b m
    let t := fifoPopN b n r.2
    (r.1 ++ t.1, t.2)

/-! ## Work counters (05 R204 to R213) -/

/-- Counter c of a unit. -/
def getWc (m : Mu) (c : Nat) : Wc := mget {} m.wc c

/-- Is counter c usable: the unit has a WORK bank and the counter a mode (05 R187). -/
def wcUsable (m : Mu) (c : Nat) : Bool := m.cfg.modes.contains 4 && (getWc m c).mode != 0

/-- The value a claim takes and the counter after it (05 R206). -/
def claimValue (w : Wc) : Nat × Wc :=
  if w.mode = 1 then
    if w.pos < w.limit then (w.pos, { w with pos := w.pos + 1 }) else (0xFFFFFFFF, w)
  else
    match (List.range w.limit).find? (fun t => decide (w.pos ≤ t) && !w.done.contains t) with
    | some t => (t, { w with pos := t + 1, issued := insertNat t w.issued })
    | none => (0xFFFFFFFF, w)

/-- A WDONE of tile t (05 R208); none: the tile lies outside the counter. -/
def wdoneStep (w : Wc) (t : Nat) : Option Wc :=
  if w.mode = 1 then some { w with doneCnt := min (w.doneCnt + 1) 0xFFFFFFFF }
  else if t < w.limit then some { w with done := insertNat t w.done }
  else none

/-- DONE_CNT: of a LEASE counter the DONE bits set (05 R214). -/
def wcDoneCnt (w : Wc) : Nat := if w.mode = 2 then w.done.length else w.doneCnt

/-- A counter at its configured initial state; ROUNDS and RECALLS stay (05 R213). Of a SIMPLE counter the value that a replay returns to is
reset with NEXT, and tiles issued before the reset no longer count into RECALLS (log 48, DESIGN CHOICE). -/
def wcReset (w : Wc) : Wc :=
  { w with pos := if w.mode = 1 then w.base else 0, pos0 := if w.mode = 1 then w.base else 0, done := [], done0 := [],
           issued := [], doneCnt := 0 }

/-- Reset counter c and remove its replay entries (05 R213). -/
def wcResetAt (c : Nat) (m : Mu) : Mu :=
  { m with wc := (if (mget? m.wc c).isSome then mmod {} m.wc c wcReset else m.wc), replay := m.replay.filter (fun r => r.c != c) }

/-- WC_CTL_RESET: a write of 1 to WC_CTL_c.RESET. -/
def execWcCtlReset (u c : Nat) (s : State) : Out :=
  if !isMu u then .fault (.noSuchObject u)
  else if c ≥ 64 then .fault (.noSuchObject c)
  else .next (modMu s u (wcResetAt c))

/-- A work counter at a frame-start tick that is no replay (05 R204, R209). -/
def wcFrame (w : Wc) : Wc :=
  if w.mode = 0 then w
  else if w.mode = 1 then
    let p := if w.freset then w.base else w.pos
    { w with pos := p, pos0 := p, issued := [] }
  else
    let rec_ := (w.issued.filter (fun t => !w.done.contains t)).length
    let full := w.auto && decide (w.done.length = w.limit)
    let d := if full then [] else w.done
    { w with recalls := min (w.recalls + rec_) 0xFFFFFF, rounds := if full then min (w.rounds + 1) 0xFFFF else w.rounds,
             done := d, done0 := d, pos := 0, issued := [] }

/-- A work counter at the start of a replayed frame (05 R210). -/
def wcReplayStart (w : Wc) : Wc :=
  if w.mode = 1 then { w with pos := w.pos0, issued := [] } else { w with done := w.done0, pos := 0, issued := [] }

/-! ## Registers (05 R214) -/

/-- SD_ACTIVE. -/
def sdActive (m : Mu) : Nat := packBits 1 ((List.range 8).map (fun i => b2n ((m.prog.getD i {}).left != 0)))

/-- BANK_CNT_b. The valid slots and the last staged slot are held once for the unit: a bank that becomes the CONFIG bank in place of another
shows what that one showed (log 48, DESIGN CHOICE). -/
def bankCnt (m : Mu) (b : Nat) : Nat :=
  let f := m.fifo.getD b {}
  if bankMode m b = 2 then (cntWord (m.hits.getD b {})).toNat
  else if bankMode m b = 3 then f.held + 2 ^ 16 * (3072 - f.held0)
  else if bankMode m b = 5 then m.slots.toNat + 2 ^ 4 * m.lastSlot.toNat
  else 0

/-- The register word at byte offset off of the register block. -/
def muReg (m : Mu) (off : Nat) : Nat :=
  if off = 0 then packBits 4 m.cfg.modes
  else if off = 8 then sdActive m + 2 ^ 8 * b2n m.ended + 2 ^ 9 * b2n (m.flush || !m.winPend.isEmpty)
  else if off = 0x10 then m.flags.toNat
  else if off = 0x18 then m.ecc.toNat
  else if off = 0x20 then (cntWord m.wcReplays).toNat
  else if 0x100 ≤ off && off < 0x180 then
    let b := (off - 0x100) / 0x20
    if off % 0x20 = 0 then winOf m b
    else if off % 0x20 = 8 then bankCnt m b
    else if off % 0x20 = 0x10 then (if bankMode m b = 2 then (cntWord (m.misses.getD b {})).toNat else 0)
    else 0
  else if 0x400 ≤ off && off < 0xC00 then
    let w := getWc m ((off - 0x400) / 0x20)
    if off % 0x20 = 0 then w.mode + 4 * b2n w.auto + 8 * b2n w.freset + 2 ^ 32 * w.limit
    else if off % 0x20 = 8 then w.base
    else if off % 0x20 = 0x10 then w.pos + 2 ^ 32 * wcDoneCnt w
    else 2 ^ 8 * w.rounds + 2 ^ 24 * w.recalls
  else 0

/-- What a read does: MU_ECC is RC (00 R12). -/
def muRegRead (off : Nat) (m : Mu) : Mu := if off = 0x18 then { m with ecc := 0 } else m

/-- A write to a register other than BANK_WIN_b (05 R213, R214). -/
def muRegWrite (off : Nat) (v : W64) (m : Mu) : Mu :=
  if off = 0x10 then { m with flags := m.flags &&& ~~~(v.truncate 4) }
  else if 0x400 ≤ off && off < 0xC00 && off % 0x20 = 0x18 && v.getLsbD 0 then wcResetAt ((off - 0x400) / 0x20) m
  else m

/-! ## Mesh accesses (05 R187, R188) -/

/-- What serving a request comes to. -/
inductive Serve where
  | done (s : State) (data : List W64)
  | refuse (s : State) (code : Nat)
  /-- The reply is sent later. -/
  | later (s : State)
  | wait (s : State)

/-- Do all bytes of a range lie in banks that satisfy a test. -/
def inBanks (a n : Nat) (t : Nat → Bool) : Bool := (span (a / bankSize) ((a + n - 1) / bankSize)).all t

/-- The pieces of a range of n bytes of the CACHE windows, one for each window it touches: bank, window offset, bytes. -/
def windowParts (a n : Nat) : List (Nat × Nat × Nat) :=
  let o := a - 0x400000
  let k := 0x80000 - o % 0x80000
  if n ≤ k then [(o / 0x80000, o % 0x80000, n)] else [(o / 0x80000, o % 0x80000, k), (o / 0x80000 + 1, 0, n - k)]

/-- Lines that a range covers wholly. -/
def wholeLines (o n : Nat) : List Nat := (linesOf o n).filter (fun wl => decide (o ≤ 128 * wl) && decide (128 * wl + 128 ≤ o + n))

/-- Lines that a range covers in part. -/
def partLines (o n : Nat) : List Nat := (linesOf o n).filter (fun wl => !(wholeLines o n).contains wl)

/-- Are the lines of every piece that a test picks present with their fills done. -/
def partsReady (m : Mu) (pick : Nat → Nat → List Nat) (ps : List (Nat × Nat × Nat)) : Bool :=
  ps.all (fun x => linesReady m x.1 (pick x.2.1 x.2.2))

/-- May every line that the pieces cover wholly be allocated, or is it present with its fill done. -/
def wholeRoom (m : Mu) (ps : List (Nat × Nat × Nat)) : Bool :=
  ps.all (fun x => (wholeLines x.2.1 x.2.2).all (fun wl =>
    match findLine m x.1 wl with | some r => !r.2.fill | none => (victim m x.1 wl).isSome))

/-- Use the lines of every piece. -/
def partsTouch (dirty : Bool) (ps : List (Nat × Nat × Nat)) (m : Mu) : Mu :=
  ps.foldl (fun m x => (linesOf x.2.1 x.2.2).foldl (fun m wl => touchLine x.1 wl dirty m) m) m

/-- Write bytes into the pieces, whose lines are present. -/
def partsWrite (ps : List (Nat × Nat × Nat)) (bs : List Byte) (m : Mu) : Mu :=
  (ps.foldl (fun (r : Mu × List Byte) x => (cacheWrite x.1 x.2.1 (r.2.take x.2.2) r.1, r.2.drop x.2.2)) (m, bs)).1

/-- Read the bytes of the pieces. -/
def partsRead (m : Mu) (ps : List (Nat × Nat × Nat)) : List Byte := ps.flatMap (fun x => cacheRead m x.1 x.2.1 x.2.2)

/-- A WRITE into CACHE windows (05 R193): lines it covers in part are filled first, then those it covers wholly are allocated and
every byte is written at once. A window whose WR is 0 refuses it as an access outside the unit's memory (log 47, DESIGN CHOICE). -/
def cacheStore (u a : Nat) (bs : List Byte) (s : State) : Serve :=
  let m := getMu s u
  let ps := windowParts a bs.length
  if ps.any (fun x => bankMode m x.1 != 2 || !winWr m x.1) then .refuse s nkAddr
  else if ps.any (fun x => winWaits m x.1) then .wait s
  else
    let s := forEach ps (fun x s => askLines u x.1 [] (partLines x.2.1 x.2.2) s) s
    if !partsReady (getMu s u) partLines ps || !wholeRoom (getMu s u) ps then .wait s
    else
      let s := forEach ps (fun x s => askLines u x.1 (wholeLines x.2.1 x.2.2) (wholeLines x.2.1 x.2.2) s) s
      .done (modMu s u (fun m => partsTouch true ps (partsWrite ps bs m))) []

/-- A READ of w words from CACHE windows. -/
def cacheLoad (u a w : Nat) (s : State) : Serve :=
  let m := getMu s u
  let ps := windowParts a (8 * w)
  if ps.any (fun x => bankMode m x.1 != 2) then .refuse s nkAddr
  else if ps.any (fun x => winWaits m x.1) then .wait s
  else if partsReady m linesOf ps then .done (setMu s u (partsTouch false ps m)) (bytesWords w (partsRead m ps))
  else .wait (forEach ps (fun x s => askLines u x.1 [] (linesOf x.2.1 x.2.2) s) s)

/-- Apply register writes word by word; a write of BANK_WIN_b defers the reply, until every base that the WRITE names applies. -/
def muRegWrites (u off : Nat) (p : Packet) : List W64 → Bool → State → Bool × State
  | [], d, s => (d, s)
  | v :: vs, d, s =>
    let isWin := decide (0x100 ≤ off) && decide (off < 0x180) && off % 0x20 == 0
    let b := (off - 0x100) / 0x20
    if isWin then muRegWrites u (off + 8) p vs true (winBegin u b v (some p) s)
    else muRegWrites u (off + 8) p vs d (modMu s u (muRegWrite off v))

/-- A WRITE of words at byte address a of memory unit u (05 R187, R188, R193, R197). One whose bytes span the ports of two FIFO banks is
refused with BAD_ADDR, and so is such a READ (log 48, DESIGN CHOICE). -/
def muWrite (u a : Nat) (p : Packet) (ws : List W64) (s : State) : Serve :=
  let m := getMu s u
  let n := 8 * ws.length
  let bs := wordsBytes ws
  if a + n ≤ 4 * bankSize then
    if inBanks a n (fun b => bankMode m b == 1) then .done (setMu s u { m with mem := wrN m.mem a bs }) []
    else .refuse s (if isNp p.src then nkRdonly else nkAddr)
  else if 0x400000 ≤ a && a + n ≤ 0x600000 then
    cacheStore u a bs s
  else if 0x600000 ≤ a && a + n ≤ 0x640000 then
    let b := (a - 0x600000) / 0x10000
    if bankMode m b != 3 || n % 64 != 0 || n > 256 || (a + n - 1 - 0x600000) / 0x10000 != b then .refuse s nkAddr
    else if (m.fifo.getD b {}).free < n / 64 then .refuse (setMu s u { m with flags := setBit m.flags 3 }) nkFull
    else .done (setMu s u (fifoPushN b (n / 64) bs m)) []
  else if 0x7F0000 ≤ a && a + n ≤ 0x7F0C00 then
    let wins := (List.range ws.length).filterMap (fun i =>
      let off := a - 0x7F0000 + 8 * i
      if 0x100 ≤ off && off < 0x180 && off % 0x20 = 0 then some ((off - 0x100) / 0x20) else none)
    if wins.any (winWaits m) then .wait s
    else
      let r := muRegWrites u (a - 0x7F0000) p ws false s
      if r.1 then .later (winSettle u r.2) else .done r.2 []
  else .refuse s nkAddr

/-- A READ of w words at byte address a of memory unit u. A direct read of a WORK bank gives the bank's bytes, apart from which the
model holds counters and replay table (log 47, DESIGN CHOICE). -/
def muRead (u a w : Nat) (p : Packet) (s : State) : Serve :=
  let m := getMu s u
  let n := 8 * w
  if a + n ≤ 4 * bankSize then
    if isNp p.src || inBanks a n (fun b => bankMode m b == 1) then .done s (bytesWords w (rdN m.mem a n))
    else .refuse s nkAddr
  else if 0x400000 ≤ a && a + n ≤ 0x600000 then
    cacheLoad u a w s
  else if 0x600000 ≤ a && a + n ≤ 0x640000 then
    let b := (a - 0x600000) / 0x10000
    if bankMode m b != 3 || n % 64 != 0 || n > 256 || (a + n - 1 - 0x600000) / 0x10000 != b then .refuse s nkAddr
    else if (m.fifo.getD b {}).held < n / 64 then .refuse (setMu s u { m with flags := setBit m.flags 3 }) nkEmpty
    else
      let r := fifoPopN b (n / 64) m
      .done (setMu s u r.2) (bytesWords w r.1)
  else if 0x7F0000 ≤ a && a + n ≤ 0x7F0C00 then
    let offs := (List.range w).map (fun i => a - 0x7F0000 + 8 * i)
    .done (setMu s u (offs.foldl (fun m o => muRegRead o m) m)) (offs.map (fun o => BitVec.ofNat 64 (muReg m o)))
  else .refuse s nkAddr

/-! ## Stream descriptors (05 R190, R191) -/

/-- May descriptor d of unit u act. -/
def sdLive (s : State) (u : Nat) : Bool :=
  let m := getMu s u
  unitRuns s u && !m.fenced

/-- STREAM_REPETITION: descriptor d starts its next repetition, taking its gate token. -/
def execStreamRepetition (u d : Nat) (s : State) : Out :=
  if !isMu u then .fault (.noSuchObject u)
  else if d ≥ 8 then .fault (.noSuchObject d)
  else
    let m := getMu s u
    let p := m.prog.getD d {}
    match m.cfg.sds[d]? with
    | none => .next s
    | some c =>
      if !sdLive s u || p.running || p.left = 0 then .next s
      else
        let start := fun (m : Mu) => { m with prog := lset m.prog d { p with running := true, moved := 0 } }
        if c.gate = 0 then .next (setMu s u (start m))
        else if (qAt m.miq (c.gate - 1)).ents.isEmpty then .next s
        else .next (setMu s u (start { m with miq := lmod m.miq (c.gate - 1) (fun q => (qPop q).1) }))

/-- A descriptor after an entry: at the end of the repetition the next one is to come. -/
def sdAdvance (c : MuSd) (p : MsProg) : MsProg :=
  if p.moved + 64 ≥ c.len then { left := p.left - 1, running := false, rep := p.rep + 1, moved := 0 }
  else { p with moved := p.moved + 64 }

/-- Queue room or data of a descriptor's next entry. -/
def sdQueueReady (m : Mu) (c : MuSd) : Bool :=
  if c.dir then !(qAt m.miq c.q).ents.isEmpty else decide ((qAt m.moq c.q).ents.length < 4)

/-- The bytes a DIR 1 descriptor takes from its queue. -/
def sdTake (c : MuSd) (m : Mu) : List Byte × Mu :=
  (toLe 64 (qHead m.miq c.q).toNat, { m with miq := lmod m.miq c.q (fun q => (qPop q).1) })

/-- The bytes a DIR 0 descriptor puts in its queue. -/
def sdPut (c : MuSd) (bs : List Byte) (m : Mu) : Mu :=
  { m with moq := lmod m.moq c.q (fun q => qPush q { bits := bytes512 bs }) }

/-- Move an entry between a descriptor's queue and its bank at offset o; the bank is ready for it. -/
def sdMove (c : MuSd) (o : Nat) (m : Mu) : Mu :=
  let mode := bankMode m c.bank
  if c.dir then
    let r := sdTake c m
    if mode = 3 then fifoPush c.bank r.1 r.2
    else if mode = 2 then touchLine c.bank (o / 128) true (cacheWrite c.bank o r.1 r.2)
    else { r.2 with mem := wrN r.2.mem (bankSize * c.bank + o) r.1 }
  else if mode = 3 then
    let r := fifoPop c.bank m
    sdPut c r.1 r.2
  else if mode = 2 then touchLine c.bank (o / 128) false (sdPut c (cacheRead m c.bank o 64) m)
  else sdPut c (rdN m.mem (bankSize * c.bank + o) 64) m

/-- Is the bank ready for an entry at offset o: a FIFO has the entry or the room; a cache line is present. -/
def sdBankReady (m : Mu) (c : MuSd) (o : Nat) : Bool :=
  let mode := bankMode m c.bank
  let f := m.fifo.getD c.bank {}
  if mode = 3 then (if c.dir then decide (f.free > 0) else decide (f.held > 0))
  else if mode = 2 then !winWaits m c.bank && linesReady m c.bank [o / 128]
  else true

/-- The lines a descriptor asks for: its present one and up to 32 ahead in its repetition (05 R191). -/
def sdAhead (c : MuSd) (p : MsProg) : List Nat :=
  let o := sdOffset c p
  let last := (c.addr + p.rep * c.pitch + c.len - 1) / 128
  span (o / 128) (min (o / 128 + 32) last)

/-- DESCRIPTOR_ENTRY: descriptor d of unit u moves its next entry, asking for the fills of a CACHE bank ahead of it. -/
def execDescriptorEntry (u d : Nat) (s : State) : Out :=
  if !isMu u then .fault (.noSuchObject u)
  else if d ≥ 8 then .fault (.noSuchObject d)
  else
    let m := getMu s u
    let p := m.prog.getD d {}
    match m.cfg.sds[d]? with
    | none => .next s
    | some c =>
      if !sdLive s u || !p.running then .next s
      else
        let s := if bankMode m c.bank = 2 && !winWaits m c.bank then askLines u c.bank [] (sdAhead c p) s else s
        let m := getMu s u
        let o := sdOffset c p
        if sdQueueReady m c && sdBankReady m c o then
          let m := sdMove c o m
          .next (setMu s u { m with prog := lset m.prog d (sdAdvance c p) })
        else .next s

end Sys2Proof.Machine
end

