-- ==== Sys2Proof/Machine/UnitServe.lean ====
section
/-! DEFINITION. Requests that a core, a memory unit or a field controller takes off the request net (04 R138 to R141, 05 R187,
R206 to R208, R581; 07 R250 to R262, R276, R287). Readings: log 30, DEDUCED. -/

namespace Sys2Proof.Machine

open Sys2Proof

/-! ## The port of a unit (07 R255) -/

/-- Is a unit's row absent or fenced in its field (01 R20, R21, R24); every row of a field fenced whole is absent (R25). -/
def rowAbsent (s : State) (u : Nat) : Bool :=
  decide (localY u ≥ (getField s (fieldOf u)).rowMap.length) || rowMark s u != 0 || fieldFenced s (fieldOf u)

/-- Is a unit fenced, waiting for a spare. -/
def unitFenced (s : State) (u : Nat) : Bool :=
  if isCc u then (getCore s u).fenced else if isMu u then (getMu s u).fenced else (getSfu s u).fenced

/-- Is a unit in unit or cluster reset, unassigned, or its polder RESETTING (02 R65, R68, 07 R254). -/
def unitReset (s : State) (u : Nat) : Bool :=
  s.boot.unitResets.any (fun e => e.1.contains u) ||
    match ownerOf s u with
    | none => true
    | some p => (getPolder s p).state == 4

/-- The NACK that a unit's router port gives in its place, if any (07 R254, R255). -/
def portCode (s : State) (u : Nat) : Option Nat :=
  if rowAbsent s u then some nkNoUnit
  else if unitReset s u || unitFenced s u then some nkReset
  else if isSfu u then some nkAddr
  else none

/-! ## Taking a request -/

/-- The request with opcode op that endpoint u takes next: a memory unit takes its requests in the order of their arrival (05
R581), the others the oldest of that opcode none of whose source and VC came before it (07 R285). -/
def nextFlight (s : State) (u op : Nat) : Option Flight :=
  let at_ := s.flights.filter (fun f => f.loc == .arrived u && f.net == .req)
  (if isMu u then at_.take 1 else at_.filter (oldestFrom s u)).find? (fun f => f.pkt.op == op)

/-- Its packet. -/
def nextReq (s : State) (u op : Nat) : Option Packet := (nextFlight s u op).map (·.pkt)

/-- A fixed endpoint answers its next request of an opcode with BAD_OP: the router at whose link it waits notes it (07 R292). -/
def badOpVia (s : State) (u op code : Nat) (s' : State) : State :=
  match (nextFlight s u op).bind (·.via) with
  | some r => if code = nkBadOp then rtFlag r 5 s' else s'
  | none => s'

/-- Take the oldest request with opcode op off the port of u. -/
def dropReq (u op : Nat) (s : State) : State :=
  match takeFlight (fun f => f.loc == .arrived u && f.net == .req && f.pkt.op == op && oldestFrom s u f) s.flights with
  | some r => { s with flights := r.2 }
  | none => s

/-- Answer a request: a copy of a multicast answers its row, any other its source. -/
def answer (u : Nat) (p : Packet) (good : State → State) (code : Option Nat) (s : State) : State :=
  if p.mcast then mcAnswer u p code.isSome s
  else
    match code with
    | some k => nack p u k s
    | none => good s

/-- Answer in place of a unit that cannot answer for itself: its router port does, and no DTR is counted (07 R255, R284). -/
def portAnswer (u code : Nat) (p : Packet) (s : State) : State :=
  if p.mcast then mcAnswer u p true s
  else routerReply u { (replyTo p u opNack 0 0 code []) with epoch := s.epoch.epoch } s

/-- Does a reply of endpoint u still wait to leave. -/
def replyWaits (s : State) (u : Nat) : Bool := s.flights.any (fun f => f.net == .rpl && f.loc == .inject && sender f == u)

/-- Is a request held back because its reply cannot be injected (07 R247, 05 R581): a MSG to a core and a copy of a multicast
have none of the unit's own. -/
def heldBackReq (s : State) (u : Nat) (p : Packet) : Bool := replyWaits s u && !p.mcast && !(p.op == opMsg && !isMu u)

/-- Serve the next request with opcode op at unit u. `f` serves it; `good` sends its reply. -/
def serveReq (u op : Nat) (f : Packet → State → Serve) (good : Packet → List W64 → State → State) (s : State) : Out :=
  match nextReq s u op with
  | none => .next s
  | some p =>
    match portCode s u with
    | some code => if p.mcast || answerRoom s u p.vc then .next (portAnswer u code p (dropReq u op s)) else .next s
    | none =>
      if heldBackReq s u p || (!lenOk p && !p.mcast && replyWaits s u) then .next s
      else if !lenOk p then .next (answer u p id (some nkBadOp) (orderRisk u p (dropReq u op s)))
      else
        match f p s with
        | .done s d => .next (answer u p (good p d) none (orderRisk u p (dropReq u op s)))
        | .refuse s code => .next (answer u p id (some code) (orderRisk u p (dropReq u op s)))
        | .later s => .next (orderRisk u p (dropReq u op s))
        | .wait s => .next s

/-! ## WRITE and READ -/

/-- A WRITE into a core's local SRAM (04 R138, R141). -/
def coreWrite (u a : Nat) (ws : List W64) (s : State) : Serve :=
  let c := getCore s u
  let n := 8 * ws.length
  if outSram a n || inRing c a n then .refuse s nkAddr
  else .done (setCore s u { c with sram := wrN c.sram a (wordsBytes ws) }) []

/-- A READ of a core's local SRAM. -/
def coreRead (u a w : Nat) (s : State) : Serve :=
  if outSram a (8 * w) then .refuse s nkAddr else .done s (bytesWords w (rdN (getCore s u).sram a (8 * w)))

/-- Bytes of a field controller's SRAM (07 R262). -/
def fcSramSize : Nat := 0x40000

/-- A WRITE at a field controller: the management complex's alone (07 R262). -/
def fcWrite (f : Nat) (p : Packet) (s : State) : Serve :=
  let a := 8 * p.daddr
  if p.src != mgcId then .refuse s nkBadOp
  else if a + 8 * p.payload.length > fcSramSize then .refuse s nkAddr
  else .done (modField s f (fun x => { x with fcSram := wrN x.fcSram a (wordsBytes p.payload) })) []

/-- A request at a field controller, which has no port code. -/
def serveFc (f op : Nat) (g : Packet → State → Serve) (s : State) : Out :=
  match nextReq s (fcId f) op with
  | none => .next s
  | some p =>
    if heldBackReq s (fcId f) p then .next s
    else if !lenOk p then .next (nack p (fcId f) nkBadOp (dropReq (fcId f) op s))
    else
      match g p s with
      | .done s _ => .next (reply p (fcId f) opAck 0 0 0 [] (dropReq (fcId f) op s))
      | .refuse s code => .next (nack p (fcId f) code (dropReq (fcId f) op s))
      | .later s => .next (dropReq (fcId f) op s)
      | .wait s => .next s

/-- WRITE: the request at the port of u is committed whole and acknowledged, or refused (07 R251). -/
def execWrite (u : Nat) (s : State) : Out :=
  if isFc u then serveFc (unitX u) opWrite (fcWrite (unitX u)) s
  else if !isUnit u then .fault (.noSuchObject u)
  else
    serveReq u opWrite
      (fun p s =>
        let ws := if p.mcast then p.payload.drop 1 else p.payload
        if isMu u then muWrite u (8 * p.daddr) p ws s else coreWrite u (8 * p.daddr) ws s)
      (fun p _ s => reply p u opAck 0 0 0 [] s) s

/-- READ: the request at the port of u is answered with RDATA at its landing address, or refused (07 R252). -/
def execRead (u : Nat) (s : State) : Out :=
  if !isUnit u then .fault (.noSuchObject u)
  else
    serveReq u opRead
      (fun p s => if isMu u then muRead u (8 * p.daddr) (p.len + 1) p s else coreRead u (8 * p.daddr) (p.len + 1) s)
      (fun p d s => reply p u opRdata (d.length - 1) p.arg 0 d s) s

/-! ## Messages (04 R138 to R140; 17 R556, R557) -/

/-- Advance the tag counters of a direction that match a tag (17 R556). -/
def tagCount (send : Bool) (tag : Nat) (c : Core) : Core :=
  { c with tagMsgs := (List.range 16).map (fun i =>
      let g := (c.tagc.getD i 0).toNat
      let x := c.tagMsgs.getD i {}
      if bitsOf g 12 12 = 1 && bitsOf g 13 13 = b2n send && bitsOf g 11 0 = tag % 4096 then incCnt x else x) }

/-- The words of an inbox entry (17 R552). -/
def inboxWords (m : Msg) : List W64 :=
  BitVec.ofNat 64 (m.tag % 4096 + 4096 * ((m.words.length + 3) % 4) + 2 ^ 32 * m.src) ::
    (List.range 4).map (fun i => m.words.getD i 0)

/-- MSG: a message is taken into the inbox or the spill ring, or waits (04 R139); a memory unit refuses it (07 R287). -/
def execMsg (u : Nat) (s : State) : Out :=
  if !isUnit u then .fault (.noSuchObject u)
  else
    serveReq u opMsg
      (fun p s =>
        if isMu u then .refuse s nkAddr
        else
          let c := getCore s u
          let m : Msg := { tag := p.tag, src := p.src, words := p.payload }
          match acceptMsg c m with
          | none => .wait s
          | some c' =>
            let s := setCore s u (tagCount false p.tag c')
            let s := modMif s u (fun x => { x with recvBlk := false })
            .later (if c'.inbox.length > c.inbox.length then trace u 2 0 (inboxWords m) s else s))
      (fun _ _ s => s) s

/-- RING_TO_INBOX: an inbox entry is free and the oldest record of the ring moves into it (04 R140). -/
def execRingToInbox (u : Nat) (s : State) : Out :=
  if !isCc u then .fault (.noSuchObject u)
  else
    let c := getCore s u
    if c.ringUsed > 0 && c.inbox.length < 16 && !c.fenced then
      let c' := ringToInbox c
      .next (trace u 2 0 (inboxWords (c'.inbox.getLastD { tag := 0, src := 0, words := [] })) (setCore s u c'))
    else .next s

/-- TAGC_CFG_WRITE: tag counter slot i of core u takes its configuration and both its counters clear (17 R556). -/
def tagcWrite (i : Nat) (v : W64) (c : Core) : Core :=
  { c with tagc := lset c.tagc i (v.truncate 14), tagMsgs := lset c.tagMsgs i {}, tagStall := lset c.tagStall i {} }

/-- TAGC_CFG_WRITE. -/
def execTagcCfgWrite (u i : Nat) (v : W64) (s : State) : Out :=
  if !isCc u then .fault (.noSuchObject u)
  else if i ≥ 16 then .fault (.noSuchObject i)
  else .next (modCore s u (tagcWrite i v))

/-! ## Work counters at their home (05 R206 to R208) -/

/-- WC_TABLE_FULL, once per frame (05 R207). -/
def wcTableFull (u : Nat) (s : State) : State :=
  let m := getMu s u
  let s := setMu s u { m with flags := setBit m.flags 1, wcFull := true }
  if m.wcFull then s else raise 0x43 (ownerOf s u) none (some u) 0 s

/-- A WCLAIM at its home. -/
def wclaimServe (u : Nat) (p : Packet) (s : State) : Serve :=
  let m := getMu s u
  let c := bitsOf (p.payload.headD 0).toNat 5 0
  if !wcUsable m c then .refuse s nkAddr
  else
    match m.replay.find? (fun r => r.c == c && r.src == p.src) with
    | some r =>
      if r.seq = p.seq then .done (setMu s u { m with wcReplays := incCnt m.wcReplays }) [r.val.zeroExtend 64]
      else
        let v := claimValue (getWc m c)
        .done (setMu s u { m with
          wc := mput m.wc c v.2,
          replay := m.replay.map (fun x => if x.c == c && x.src == p.src then { x with seq := p.seq, val := BitVec.ofNat 32 v.1 } else x) })
          [BitVec.ofNat 64 v.1]
    | none =>
      if m.replay.length ≥ 16384 then .refuse (wcTableFull u s) nkWcFull
      else
        let v := claimValue (getWc m c)
        .done (setMu s u { m with
          wc := mput m.wc c v.2,
          replay := m.replay ++ [{ c := c, src := p.src, seq := p.seq, val := BitVec.ofNat 32 v.1 }] })
          [BitVec.ofNat 64 v.1]

/-- WCLAIM_REQUEST. -/
def execWclaimRequest (u : Nat) (s : State) : Out :=
  if !isMu u then .fault (.noSuchObject u)
  else serveReq u opWclaim (wclaimServe u) (fun p d s => reply p u opWval 0 0 0 d s) s

/-- A WDONE at its home. -/
def wdoneServe (u : Nat) (p : Packet) (s : State) : Serve :=
  let m := getMu s u
  let w := (p.payload.headD 0).toNat
  let c := bitsOf w 5 0
  if !wcUsable m c then .refuse s nkAddr
  else
    match wdoneStep (getWc m c) (bitsOf w 63 32) with
    | some x => .done (setMu s u { m with wc := mput m.wc c x }) []
    | none => .refuse s nkAddr

/-- WDONE_REQUEST. -/
def execWdoneRequest (u : Nat) (s : State) : Out :=
  if !isMu u then .fault (.noSuchObject u)
  else serveReq u opWdone (wdoneServe u) (fun p _ s => reply p u opAck 0 0 0 [] s) s

end Sys2Proof.Machine
end

