-- ==== Sys2Proof/Machine/Fabric.lean ====
section
/-! DEFINITION. The static switch fabric (06): the configuration word, sources and sinks, lanes and slot channels, steering
units, joins and the combining adder. A command moves one transfer (log 5, DESIGN CHOICE). Readings: log 30, DEDUCED. -/

namespace Sys2Proof.Machine

open Sys2Proof

/-! ## The switch configuration word (06 R224) -/

/-- Bits hi down to lo of a switch's word. -/
def wbits (w : BitVec 768) (hi lo : Nat) : Nat := bitsOf w.toNat hi lo

/-- Selectors of a fabric: vector 28, scalar 20, control 40. -/
def selCount : Fab → Nat
  | .vec => 28
  | .scl => 20
  | .ctl => 40

/-- Source code of selector k. -/
def selCode (w : BitVec 768) : Fab → Nat → Nat
  | .vec, k => wbits w (6 * k + 4) (6 * k)
  | .scl, k => wbits w (168 + 6 * k + 4) (168 + 6 * k)
  | .ctl, k => wbits w (288 + 7 * k + 5) (288 + 7 * k)

/-- T bit of selector k. -/
def selT (w : BitVec 768) : Fab → Nat → Bool
  | .vec, k => wbits w (6 * k + 5) (6 * k + 5) == 1
  | .scl, k => wbits w (168 + 6 * k + 5) (168 + 6 * k + 5) == 1
  | .ctl, k => wbits w (288 + 7 * k + 6) (288 + 7 * k + 6) == 1

/-- MODE of steering unit e: 0 VST0, 1 VST1, 2 SST0, 3 SST1. -/
def steerMode (w : BitVec 768) (e : Nat) : Nat := wbits w (569 + 8 * e) (568 + 8 * e)
/-- G of steering unit e. -/
def steerG (w : BitVec 768) (e : Nat) : Nat := 2 ^ wbits w (572 + 8 * e) (570 + 8 * e)
/-- GANG of steering unit e. -/
def steerGang (w : BitVec 768) (e : Nat) : Bool := wbits w (573 + 8 * e) (573 + 8 * e) == 1
/-- Is element j enabled: joins VJ0, VJ1, SJ0, SJ1, then CA. -/
def elemOn (w : BitVec 768) (j : Nat) : Bool := wbits w (600 + 9 * j) (600 + 9 * j) == 1
/-- Depth of side i of element j, in transfers. -/
def elemDepth (w : BitVec 768) (j i : Nat) : Nat := 4 * (wbits w (604 + 9 * j + 4 * i) (601 + 9 * j + 4 * i) + 1)
/-- TPOLDER. -/
def tpolder (w : BitVec 768) : Nat := wbits w 652 645

/-- A side by its number: 0 north, 1 east, 2 south, 3 west. -/
def dirOf (d : Nat) : Dir := if d = 0 then .n else if d = 1 then .e else if d = 2 then .s else .w
/-- The number of the opposite side. -/
def oppN (d : Nat) : Nat := (d + 2) % 4

/-! ## Unit queues as sources and sinks (06 R215, R227) -/

/-- Output queues of the unit at u. -/
def unitOqs (s : State) (u : Nat) : List Queue :=
  if isCc u then (getCore s u).oq else if isMu u then (getMu s u).moq else (getSfu s u).soq

/-- Input queues of the unit at u. -/
def unitIqs (s : State) (u : Nat) : List Queue :=
  if isCc u then (getCore s u).iq else if isMu u then (getMu s u).miq else (getSfu s u).siq

/-- Apply f to output queue q of the unit at u. -/
def modOq (u q : Nat) (f : Queue → Queue) (s : State) : State :=
  if isCc u then modCore s u (fun c => { c with oq := lmod c.oq q f })
  else if isMu u then modMu s u (fun m => { m with moq := lmod m.moq q f })
  else modSfu s u (fun c => { c with soq := lmod c.soq q f })

/-- Apply f to input queue q of the unit at u. -/
def modIq (u q : Nat) (f : Queue → Queue) (s : State) : State :=
  if isCc u then modCore s u (fun c => { c with iq := lmod c.iq q f })
  else if isMu u then modMu s u (fun m => { m with miq := lmod m.miq q f })
  else modSfu s u (fun c => { c with siq := lmod c.siq q f })

/-- Queue kinds of the unit at u. -/
def unitKinds (s : State) (u : Nat) : BitVec 16 :=
  if isCc u then (getCore s u).cfg.qkind else if isMu u then (getMu s u).cfg.qkind else (getSfu s u).cfg.qkind

/-- Does a VEC output queue q drain on two lanes: its lane 1 is named (06 R227). -/
def twoOut (w : BitVec 768) (q : Nat) : Bool := (List.range 28).any (fun k => selCode w .vec k == 0x0A + 2 * q)

/-- Does a VEC input queue q fill on two lanes. -/
def twoIn (w : BitVec 768) (q : Nat) : Bool := selCode w .vec (9 + 2 * q) != 0

/-- Bytes 16 i to 16 i + 15 of an entry as a transfer. -/
def entryXfer (e : QEnt) (i : Nat) : Xfer := { bits := e.bits.extractLsb' (128 * i) 128, flags := e.flags }

/-- The transfer that output queue q offers on lane h (06 R216). -/
def oqHead (w : BitVec 768) (q : Queue) (i h : Nat) : Option Xfer :=
  match q.ents with
  | [] => none
  | e :: _ =>
    if twoOut w i then
      let n := if h = 0 then q.sent0 else q.sent1
      if n < 2 then some (entryXfer e (2 * n + h)) else none
    else if h = 0 then some (entryXfer e q.sent0)
    else none

/-- Lane h of output queue q has sent a transfer; the entry leaves with its last. -/
def oqSent (w : BitVec 768) (i h : Nat) (q : Queue) : Queue :=
  let two := twoOut w i
  let q := if h = 0 then { q with sent0 := q.sent0 + 1 } else { q with sent1 := q.sent1 + 1 }
  if (two && q.sent0 = 2 && q.sent1 = 2) || (!two && q.sent0 = 4) then (qPop q).1 else q

/-- An entry put together from its transfers (06 R216). -/
def joinXfers (xs : List Xfer) : QEnt :=
  { bits := BitVec.ofNat 512 (packBits 128 (xs.map (fun x => x.bits.toNat))), flags := xs.foldl (fun f x => f ||| x.flags) 0 }

/-- May lane h of a VEC input queue take a transfer. -/
def iqRoom (two : Bool) (q : Queue) (h : Nat) : Bool :=
  decide (q.ents.length < 4) && (if two then decide ((if h = 0 then q.fill0 else q.fill1).length < 2) else decide (h = 0))

/-- A VEC input queue takes a transfer on lane h; the entry becomes visible once all 64 bytes are there. -/
def iqTake (two : Bool) (h : Nat) (x : Xfer) (q : Queue) : Queue :=
  let q := if h = 0 then { q with fill0 := q.fill0 ++ [x] } else { q with fill1 := q.fill1 ++ [x] }
  if two then
    match q.fill0, q.fill1 with
    | [a, c], [b, d] => qPush { q with fill0 := [], fill1 := [] } (joinXfers [a, b, c, d])
    | _, _ => q
  else if q.fill0.length = 4 then qPush { q with fill0 := [] } (joinXfers q.fill0)
  else q

/-! ## Sources (06 R225 to R228) -/

/-- Head of a list. -/
def head? {α : Type} : List α → Option α
  | [] => none
  | a :: _ => some a

/-- The transfer a steering unit's port offers. -/
def steerOut (w : Switch) (e port : Nat) : Option Xfer :=
  let x := w.steer.getD e {}
  if port = 0 then x.out0 else x.out1

/-- A join's output. -/
def joinOut (w : Switch) (j o : Nat) : Option Xfer :=
  let x := w.joins.getD j {}
  if o = 0 then x.o0 else x.o1

/-- A token as a transfer. -/
def tokX (t : BitVec 4) : Xfer := { bits := t.zeroExtend 128 }

/-- The control source that selector k takes from: FOLLOW names the slot channel of the data selector's input lane (06 R222). -/
def ctlSource (w : BitVec 768) (k : Nat) : Nat :=
  let c := selCode w .ctl k
  if k < 24 || c ≠ 0 then c
  else if k < 32 then
    let v := selCode w .vec (k - 24)
    if 1 ≤ v && v ≤ 8 then 0x18 + v else 0
  else
    let v := selCode w .scl (k - 32)
    if 1 ≤ v && v ≤ 8 then 0x20 + v else 0

/-- The source that selector k of a fabric takes from. -/
def sourceOf (w : BitVec 768) (fab : Fab) (k : Nat) : Nat :=
  match fab with
  | .ctl => ctlSource w k
  | f => selCode w f k

/-- The transfer at the head of source `code` of a fabric in switch u. -/
def srcHead (s : State) (u : Nat) (fab : Fab) (code : Nat) : Option Xfer :=
  let w := getSw s u
  match fab with
  | .vec =>
    if code = 0 then none
    else if code ≤ 8 then head? (w.vin.getD (code - 1) [])
    else if code ≤ 0x10 then
      if unitFenced s u then none else oqHead w.word (qAt (unitOqs s u) ((code - 9) / 2)) ((code - 9) / 2) ((code - 9) % 2)
    else if code ≤ 0x14 then steerOut w ((code - 0x11) / 2) ((code - 0x11) % 2)
    else if code ≤ 0x18 then joinOut w ((code - 0x15) / 2) ((code - 0x15) % 2)
    else if code = 0x19 then w.ca0.o0
    else if code = 0x1A then w.ca1.o0
    else none
  | .scl =>
    if code = 0 then none
    else if code ≤ 8 then head? (w.sin.getD (code - 1) [])
    else if code ≤ 0x0C then
      if unitFenced s u then none
      else (head? (qAt (unitOqs s u) (code - 9)).ents).map (fun e => { bits := e.bits.truncate 128 })
    else if code ≤ 0x10 then steerOut w (2 + (code - 0x0D) / 2) ((code - 0x0D) % 2)
    else if code ≤ 0x14 then joinOut w (2 + (code - 0x11) / 2) ((code - 0x11) % 2)
    else none
  | .ctl =>
    if code = 0 then none
    else if code ≤ 0x10 then head? (w.cin.getD (code - 1) [])
    else if code ≤ 0x14 then
      if unitFenced s u then none
      else (head? (qAt (unitOqs s u) (code - 0x11)).ents).map (fun e => { bits := e.bits.truncate 128 &&& 0xF })
    else if code ≤ 0x18 then
      let e := code - 0x15
      if steerMode w.word e = 3 then (head? (w.steer.getD e {}).tokq).map tokX else none
    else if code ≤ 0x20 then (head? (w.vslot.getD (code - 0x19) [])).map tokX
    else if code ≤ 0x28 then (head? (w.sslot.getD (code - 0x21) [])).map tokX
    else none

/-- A steering unit's port gives up its transfer. -/
def steerClear (port : Nat) (x : Steer) : Steer := if port = 0 then { x with out0 := none } else { x with out1 := none }

/-- A join's output gives up its transfer. -/
def joinClear (o : Nat) (x : Join) : Join := if o = 0 then { x with o0 := none } else { x with o1 := none }

/-- Remove the head of a source. -/
def srcPop (u : Nat) (fab : Fab) (code : Nat) (s : State) : State :=
  let tl := fun (α : Type) (l : List α) => l.tail
  match fab with
  | .vec =>
    if code ≤ 8 then modSw s u (fun w => { w with vin := lmod w.vin (code - 1) (tl Xfer) })
    else if code ≤ 0x10 then modOq u ((code - 9) / 2) (oqSent (getSw s u).word ((code - 9) / 2) ((code - 9) % 2)) s
    else if code ≤ 0x14 then
      modSw s u (fun w => { w with steer := lmod w.steer ((code - 0x11) / 2) (steerClear ((code - 0x11) % 2)) })
    else if code ≤ 0x18 then
      modSw s u (fun w => { w with joins := lmod w.joins ((code - 0x15) / 2) (joinClear ((code - 0x15) % 2)) })
    else if code = 0x19 then modSw s u (fun w => { w with ca0 := { w.ca0 with o0 := none } })
    else modSw s u (fun w => { w with ca1 := { w.ca1 with o0 := none } })
  | .scl =>
    if code ≤ 8 then modSw s u (fun w => { w with sin := lmod w.sin (code - 1) (tl Xfer) })
    else if code ≤ 0x0C then modOq u (code - 9) (fun q => (qPop q).1) s
    else if code ≤ 0x10 then
      modSw s u (fun w => { w with steer := lmod w.steer (2 + (code - 0x0D) / 2) (steerClear ((code - 0x0D) % 2)) })
    else
      modSw s u (fun w => { w with joins := lmod w.joins (2 + (code - 0x11) / 2) (joinClear ((code - 0x11) % 2)) })
  | .ctl =>
    if code ≤ 0x10 then modSw s u (fun w => { w with cin := lmod w.cin (code - 1) (tl Xfer) })
    else if code ≤ 0x14 then modOq u (code - 0x11) (fun q => (qPop q).1) s
    else if code ≤ 0x18 then
      modSw s u (fun w => { w with steer := lmod w.steer (code - 0x15) (fun x => { x with tokq := x.tokq.tail }) })
    else if code ≤ 0x20 then modSw s u (fun w => { w with vslot := lmod w.vslot (code - 0x19) (tl (BitVec 4)) })
    else modSw s u (fun w => { w with sslot := lmod w.sslot (code - 0x21) (tl (BitVec 4)) })

/-- Number of a fabric. -/
def fabN : Fab → Nat
  | .vec => 0
  | .scl => 1
  | .ctl => 2

/-- The sinks that name a source. -/
def namers (w : BitVec 768) (fab : Fab) (code : Nat) : List Nat :=
  (List.range (selCount fab)).filter (fun k => sourceOf w fab k == code)

/-- Sink k has not yet taken the head of its source. -/
def notTaken (w : Switch) (fab : Fab) (code k : Nat) : Bool := !w.taken.contains (fabN fab, code, k)

/-- Sink k takes the head of its source; the transfer leaves once every naming sink has it (06 R228). -/
def srcTake (u : Nat) (fab : Fab) (code k : Nat) (s : State) : State :=
  let w := getSw s u
  let got := (fabN fab, code, k) :: w.taken
  if (namers w.word fab code).all (fun j => got.contains (fabN fab, code, j)) then
    srcPop u fab code (setSw s u { w with taken := w.taken.filter (fun x => !(x.1 == fabN fab && x.2.1 == code)) })
  else setSw s u { w with taken := got }

/-! ## When a selector may move (06 R240 to R243; 01 R31, R32) -/

/-- Are a polder's lanes frozen: an abrupt halt, a reset (06 R243). -/
def lanesFrozen (s : State) (p : Nat) : Bool :=
  let x := getPolder s p
  (x.state == 3 && x.cause != 1) || x.state == 4

/-- Does the switch of u work: its field is up, and its row is not fenced for a fault in a switch, a router or the shift network, which
breaks every lane through the row (01 R21). -/
def switchWorks (s : State) (u : Nat) : Bool := lit s (fieldOf u) && rowMark s u != 2

/-- May selector k of switch u move: the polder it belongs to is not frozen and the switch works. -/
def selLive (s : State) (u : Nat) (fab : Fab) (k : Nat) : Bool :=
  let w := (getSw s u).word
  let owner := if selT w fab k then some (tpolder w) else ownerOf s u
  switchWorks s u && (match owner with | some p => !lanesFrozen s p | none => false)

/-- The crossing between two neighbouring positions (01 R26); none within one field. -/
def crossingKey (u v : Nat) (d : Nat) : Option Nat :=
  if fieldOf u = fieldOf v then none
  else if d = 1 then some (4 * fieldOf u + 1)
  else if d = 3 then some (4 * fieldOf v + 1)
  else if d = 2 then some (4 * fieldOf u + 2)
  else some (4 * fieldOf v + 2)

/-- Does the crossing between u and its neighbour v on side d pass transfers. -/
def crossingOpen (s : State) (u v d : Nat) : Bool :=
  match crossingKey u v d with
  | none => true
  | some k =>
    powered s (fieldOf u) && powered s (fieldOf v) &&
      (match mget? s.crossings k with | some x => x.1 != .stopped && !x.2 | none => true)

/-- Is the link between u and v a dike link (06 R242). -/
def dikeLink (s : State) (u v : Nat) : Bool :=
  match ownerOf s u, ownerOf s v with
  | some p, some q => p != q
  | _, _ => true

/-- The selectors of switch w that name input lane i of a fabric, or its slot channel: fabric and number. A control selector of code 0
with T = 0, which follows its lane, counts as naming the slot channel of the input lane that it follows (log 48, DESIGN CHOICE). -/
def laneNamers (w : BitVec 768) (fab : Fab) (i : Nat) : List (Fab × Nat) :=
  match fab with
  | .vec => (namers w .vec (1 + i)).map (fun k => (.vec, k)) ++ (namers w .ctl (0x19 + i)).map (fun k => (.ctl, k))
  | .scl => (namers w .scl (1 + i)).map (fun k => (.scl, k)) ++ (namers w .ctl (0x21 + i)).map (fun k => (.ctl, k))
  | .ctl => (namers w .ctl (1 + i)).map (fun k => (.ctl, k))

/-- May the lane that sink (fab, k) of u drives cross to v (06 R242): always within a polder. -/
def laneActive (s : State) (u v : Nat) (fab : Fab) (k i : Nat) : Bool :=
  !dikeLink s u v ||
    (let w := (getSw s u).word
     let w' := (getSw s v).word
     selT w fab k && (laneNamers w' fab i).all (fun x => selT w' x.1 x.2) && tpolder w == tpolder w')

/-- Is cclk of the field the sync slot of a lane leaving u on side d (06 R220). -/
def syncSlot (s : State) (u d : Nat) : Bool :=
  let c := (getField s (fieldOf u)).cclk % 16
  let lx := localX u % 16
  let ly := localY u % 16
  if d = 1 then (c + 16 - lx) % 16 = 15
  else if d = 3 then (c + lx) % 16 = 15
  else if d = 2 then (c + 16 - ly) % 16 = 15
  else (c + ly) % 16 = 15

/-! ## Lanes (06 R215 to R223) -/

/-- Lanes to each neighbour. -/
def laneWays : Fab → Nat
  | .ctl => 4
  | _ => 2

/-- The skid buffer of input lane i. -/
def skid (w : Switch) : Fab → Nat → List Xfer
  | .vec, i => w.vin.getD i []
  | .scl, i => w.sin.getD i []
  | .ctl, i => w.cin.getD i []

/-- Put a transfer in the skid buffer of input lane i. -/
def skidPut (fab : Fab) (i : Nat) (x : Xfer) (w : Switch) : Switch :=
  match fab with
  | .vec => { w with vin := lmod w.vin i (fun l => l ++ [x]) }
  | .scl => { w with sin := lmod w.sin i (fun l => l ++ [x]) }
  | .ctl => { w with cin := lmod w.cin i (fun l => l ++ [x]) }

/-- A data transfer of output lane k of switch u to its neighbour's skid buffer (06 R218, R219, R242). -/
def laneOutMove (u : Nat) (fab : Fab) (k : Nat) (s : State) : State :=
  let d := k / laneWays fab
  let i := laneWays fab * oppN d + k % laneWays fab
  let code := sourceOf (getSw s u).word fab k
  match srcHead s u fab code, neighbour u (dirOf d) with
  | some x, some v =>
    if !notTaken (getSw s u) fab code k then s
    else if !laneActive s u v fab k i then modSw s u (fun w => { w with flags := setBit w.flags 4 })
    else
      let named := !(namers (getSw s v).word fab (1 + i)).isEmpty
      if named && crossingOpen s u v d && switchWorks s v && (skid (getSw s v) fab i).length < 4 &&
          !(fab != .ctl && syncSlot s u d) then
        modSw (srcTake u fab code k s) v (skidPut fab i x)
      else s
  | _, _ => s

/-- A slot token of the slot channel of output lane j (of the vector or the scalar network), which control selector k sets
(06 R222). -/
def slotMove (u k : Nat) (s : State) : State :=
  let vec := decide (k < 32)
  let j := if vec then k - 24 else k - 32
  let fab : Fab := if vec then .vec else .scl
  let d := j / 2
  let i := 2 * oppN d + j % 2
  let code := ctlSource (getSw s u).word k
  match srcHead s u .ctl code, neighbour u (dirOf d) with
  | some x, some v =>
    if !notTaken (getSw s u) .ctl code k || !syncSlot s u d || !crossingOpen s u v d || !switchWorks s v ||
        !laneActive s u v fab j i then s
    else
      let w' := getSw s v
      let buf := if vec then w'.vslot.getD i [] else w'.sslot.getD i []
      let heard := !(namers w'.word .ctl ((if vec then 0x19 else 0x21) + i)).isEmpty
      if !heard then srcTake u .ctl code k s
      else if buf.length < 2 then
        let t : BitVec 4 := x.bits.truncate 4
        modSw (srcTake u .ctl code k s) v (fun w =>
          if vec then { w with vslot := lmod w.vslot i (fun l => l ++ [t]) } else { w with sslot := lmod w.sslot i (fun l => l ++ [t]) })
      else s
  | _, _ => s

/-- A transfer into a unit's input queue: sink number q, lane h. -/
def queueMove (u : Nat) (fab : Fab) (k q h : Nat) (s : State) : State :=
  let w := getSw s u
  let code := sourceOf w.word fab k
  match srcHead s u fab code with
  | none => s
  | some x =>
    let t := qAt (unitIqs s u) q
    if !notTaken w fab code k || unitFenced s u then s
    else
      match fab with
      | .vec =>
        let two := twoIn w.word q
        if iqRoom two t h then modIq u q (iqTake two h x) (srcTake u fab code k s) else s
      | _ =>
        if t.ents.length < 8 then modIq u q (fun t => qPush t { bits := x.bits.zeroExtend 512 }) (srcTake u fab code k s) else s

/-- A transfer into an input FIFO: join j side i, or the adder's side i of lane l. -/
def fifoMove (u : Nat) (fab : Fab) (k : Nat) (len : Switch → Nat) (depth : Nat) (put : Xfer → Switch → Switch) (s : State) : State :=
  let w := getSw s u
  let code := sourceOf w.word fab k
  match srcHead s u fab code with
  | some x => if notTaken w fab code k && len w < depth then modSw (srcTake u fab code k s) u (put x) else s
  | none => s

/-- Put a transfer in side i of a join. -/
def joinPut (i : Nat) (x : Xfer) (j : Join) : Join :=
  if i = 0 then { j with f0 := j.f0 ++ [x] } else { j with f1 := j.f1 ++ [x] }

/-- FIFO occupancy of side i of a join. -/
def joinLen (i : Nat) (j : Join) : Nat := (if i = 0 then j.f0 else j.f1).length

/-- A transfer into input i of join j. -/
def joinInMove (u : Nat) (fab : Fab) (k j i : Nat) (s : State) : State :=
  let w := (getSw s u).word
  if elemOn w j then
    fifoMove u fab k (fun w => joinLen i (w.joins.getD j {})) (elemDepth w j i)
      (fun x w => { w with joins := lmod w.joins j (joinPut i x) }) s
  else s

/-- A transfer into the combining adder: lane l, side i (0 A, 1 B). -/
def adderInMove (u k l i : Nat) (s : State) : State :=
  let w := (getSw s u).word
  if elemOn w 4 then
    fifoMove u .vec k (fun w => joinLen i (if l = 0 then w.ca0 else w.ca1)) (elemDepth w 4 i)
      (fun x w => if l = 0 then { w with ca0 := joinPut i x w.ca0 } else { w with ca1 := joinPut i x w.ca1 }) s
  else s

/-- A token into steering unit e's token queue (06 R231). -/
def tokenMove (u k e : Nat) (s : State) : State :=
  let w := (getSw s u).word
  if steerMode w e = 1 || steerMode w e = 2 then
    fifoMove u .ctl k (fun w => (w.steer.getD e {}).tokq.length) 8
      (fun x w => { w with steer := lmod w.steer e (fun y => { y with tokq := y.tokq ++ [x.bits.truncate 4] }) }) s
  else s

/-- What selector k of a fabric moves. -/
def laneMove (u : Nat) (fab : Fab) (k : Nat) (s : State) : State :=
  match fab with
  | .vec =>
    if k < 8 then laneOutMove u .vec k s
    else if k < 16 then queueMove u .vec k ((k - 8) / 2) ((k - 8) % 2) s
    else if k < 20 then s
    else if k < 24 then joinInMove u .vec k ((k - 20) / 2) ((k - 20) % 2) s
    else adderInMove u k ((k - 24) % 2) ((k - 24) / 2) s
  | .scl =>
    if k < 8 then laneOutMove u .scl k s
    else if k < 12 then queueMove u .scl k (k - 8) 0 s
    else if k < 16 then s
    else joinInMove u .scl k (2 + (k - 16) / 2) ((k - 16) % 2) s
  | .ctl =>
    if k < 16 then laneOutMove u .ctl k s
    else if k < 20 then queueMove u .ctl k (k - 16) 0 s
    else if k < 24 then tokenMove u k (k - 20) s
    else slotMove u k s

/-- LANE_TRANSFER: sink k of a network in switch u takes the head of the source its selector names: an output lane moves it
into the neighbour's skid buffer, a slot channel a token into its slot buffer, a unit queue or element into itself. -/
def execLaneTransfer (u : Nat) (fab : Fab) (k : Nat) (s : State) : Out :=
  if !isUnit u then .fault (.noSuchObject u)
  else if k ≥ selCount fab then .fault (.noSuchObject k)
  else if selLive s u fab k then .next (laneMove u fab k s)
  else .next s

/-! ## Steering units (06 R229 to R233) -/

/-- Fabric and selector of input i of steering unit e. -/
def steerIn (e i : Nat) : Fab × Nat := if e < 2 then (.vec, 16 + 2 * e + i) else (.scl, 12 + 2 * (e - 2) + i)

/-- The head that input i of steering unit e may take. -/
def steerHead (s : State) (u e i : Nat) : Option Xfer :=
  let f := steerIn e i
  let w := getSw s u
  let code := sourceOf w.word f.1 f.2
  if notTaken w f.1 code f.2 then srcHead s u f.1 code else none

/-- Take the head of input i of steering unit e. -/
def steerTake (u e i : Nat) (s : State) : State :=
  let f := steerIn e i
  srcTake u f.1 (sourceOf (getSw s u).word f.1 f.2) f.2 s

/-- Change steering unit e. -/
def modSteer (u e : Nat) (f : Steer → Steer) (s : State) : State := modSw s u (fun w => { w with steer := lmod w.steer e f })

/-- Move one transfer of the present group of unit e from input i to a port, or nowhere. -/
def steerMove (u e i : Nat) (port : Option Nat) (s : State) : State :=
  let w := getSw s u
  let x := w.steer.getD e {}
  if x.moved ≥ steerG w.word e then s
  else
    match steerHead s u e i with
    | none => s
    | some d =>
      match port with
      | some 0 =>
        if x.out0.isSome then s else modSteer u e (fun y => { y with out0 := some d, moved := y.moved + 1 }) (steerTake u e i s)
      | some _ =>
        if x.out1.isSome then s else modSteer u e (fun y => { y with out1 := some d, moved := y.moved + 1 }) (steerTake u e i s)
      | none => modSteer u e (fun y => { y with moved := y.moved + 1 }) (steerTake u e i s)

/-- Has a steering unit a follower: the second of its pair with GANG set (06 R233). -/
def hasFollower (w : BitVec 768) (e : Nat) : Bool := e % 2 == 0 && steerGang w (e + 1)

/-- Move a transfer in the leader and, where it is ganged, in the follower. -/
def gangMove (u e i : Nat) (port : Option Nat) (s : State) : State :=
  let s' := steerMove u e i port s
  if hasFollower (getSw s u).word e then steerMove u (e + 1) i port s' else s'

/-- Have all transfers of the group moved. -/
def groupDone (w : Switch) (e : Nat) : Bool :=
  (w.steer.getD e {}).moved == steerG w.word e &&
    (!hasFollower w.word e || (w.steer.getD (e + 1) {}).moved == steerG w.word e)

/-- The group ends: counts clear; select and split drop their token; a merge remembers its input. -/
def groupEnd (u e : Nat) (s : State) : State :=
  let w := getSw s u
  if !groupDone w e then s
  else
    let fin := fun (y : Steer) =>
      if steerMode w.word e = 3 then { y with moved := 0, last := y.chosen, chosen := none }
      else { y with moved := 0, tokq := y.tokq.tail }
    let s := modSteer u e fin s
    if hasFollower w.word e then modSteer u (e + 1) (fun y => { y with moved := 0 }) s else s

/-- A token whose value its mode does not know (06 R230). -/
def steerErr (u e : Nat) (s : State) : State :=
  modSteer u e (fun y => { y with tokq := y.tokq.tail })
    (modSw s u (fun w => { w with flags := setBit w.flags 2, steerErrs := incCnt w.steerErrs }))

/-- The input a merge chooses (06 R232). -/
def mergeChoice (s : State) (u e : Nat) : Option Nat :=
  let x := (getSw s u).steer.getD e {}
  match (steerHead s u e 0).isSome, (steerHead s u e 1).isSome with
  | true, true => some (match x.last with | some i => 1 - i | none => 0)
  | true, false => some 0
  | false, true => some 1
  | false, false => none

/-- A merge: start a group with its token, then move. -/
def mergeStep (u e : Nat) (s : State) : State :=
  let w := getSw s u
  let x := w.steer.getD e {}
  match x.chosen with
  | some i => groupEnd u e (gangMove u e i (some 0) s)
  | none =>
    if x.tokq.length ≥ 8 then s
    else
      match mergeChoice s u e with
      | none => s
      | some i =>
        let named := !(namers w.word .ctl (0x15 + e)).isEmpty
        let s := modSteer u e (fun y =>
          { y with chosen := some i, tokq := if named then y.tokq ++ [BitVec.ofNat 4 i] else y.tokq }) s
        groupEnd u e (gangMove u e i (some 0) s)

/-- One transfer of steering unit e's group under its token (06 R231). -/
def steerStep (u e : Nat) (s : State) : State :=
  let w := getSw s u
  let mode := steerMode w.word e
  let x := w.steer.getD e {}
  if mode = 3 then mergeStep u e s
  else
    match x.tokq with
    | [] => s
    | t :: _ =>
      let v := t.toNat
      if mode = 1 then (if v ≤ 1 then groupEnd u e (gangMove u e v (some 0) s) else steerErr u e s)
      else if mode = 2 then
        (if v ≤ 1 then groupEnd u e (gangMove u e 0 (some v) s)
         else if v = 2 then groupEnd u e (gangMove u e 0 none s) else steerErr u e s)
      else s

/-- Do the elements of switch u run: its polder is not frozen, its field is up. -/
def elemLive (s : State) (u : Nat) : Bool :=
  switchWorks s u && (match ownerOf s u with | some p => !lanesFrozen s p | none => false)

/-- STEERING_GROUP: steering unit e of switch u moves the next transfer of its group. -/
def execSteeringGroup (u e : Nat) (s : State) : Out :=
  if !isUnit u then .fault (.noSuchObject u)
  else if e ≥ 4 then .fault (.noSuchObject e)
  else if elemLive s u && !(e % 2 == 1 && steerGang (getSw s u).word e) then .next (steerStep u e s)
  else .next s

/-! ## Joins and the combining adder (06 R234 to R236, R239) -/

/-- A join moves both heads at once. -/
def joinStep (j : Join) : Join :=
  match j.f0, j.f1, j.o0, j.o1 with
  | a :: as, b :: bs, none, none => { f0 := as, f1 := bs, o0 := some a, o1 := some b }
  | _, _, _, _ => j

/-- JOIN_MOVE: join j of switch u (0 VJ0, 1 VJ1, 2 SJ0, 3 SJ1). -/
def execJoinMove (u j : Nat) (s : State) : Out :=
  if !isUnit u then .fault (.noSuchObject u)
  else if j ≥ 4 then .fault (.noSuchObject j)
  else if elemLive s u && elemOn (getSw s u).word j then .next (modSw s u (fun w => { w with joins := lmod w.joins j joinStep }))
  else .next s

/-- Four element-wise FP32 sums (06 R235) with the flags that the sums raise. -/
def addXfer (a b : Xfer) : Xfer × Fl :=
  let r := (List.range 4).map (fun i => fadd (a.bits.extractLsb' (32 * i) 32) (b.bits.extractLsb' (32 * i) 32))
  ({ bits := BitVec.ofNat 128 (packBits 32 (r.map (fun x => x.1.toNat))), flags := a.flags ||| b.flags },
    r.foldl (fun f x => f ||| x.2) 0)

/-- One lane of the adder fires. -/
def adderLane (j : Join) : Option (Join × Fl) :=
  match j.f0, j.f1, j.o0 with
  | a :: as, b :: bs, none =>
    let r := addXfer a b
    some ({ j with f0 := as, f1 := bs, o0 := some r.1 }, r.2)
  | _, _, _ => none

/-- The exceptions of a firing (06 R236). -/
def adderFlags (f : Fl) (w : Switch) : Switch :=
  let nv := f.getLsbD 0
  let o := f.getLsbD 2
  let fl := if nv then setBit w.flags 0 else w.flags
  { w with flags := if o then setBit fl 1 else fl, cmbExc := if nv || o then incCnt w.cmbExc else w.cmbExc }

/-- The combining adder of a switch fires where it can. -/
def adderStep (w : Switch) : Switch :=
  let two := selCode w.word .vec 25 != 0 && selCode w.word .vec 27 != 0
  match adderLane w.ca0 with
  | none => w
  | some r0 =>
    if two then
      match adderLane w.ca1 with
      | none => w
      | some r1 => adderFlags (r0.2 ||| r1.2) { w with ca0 := r0.1, ca1 := r1.1 }
    else adderFlags r0.2 { w with ca0 := r0.1 }

/-- COMBINING_ADD. -/
def execCombiningAdd (u : Nat) (s : State) : Out :=
  if !isUnit u then .fault (.noSuchObject u)
  else if elemLive s u && elemOn (getSw s u).word 4 then .next (modSw s u adderStep)
  else .next s

/-- Is side i of an element full while an input of its other side is empty (06 R239): e 0 to 3 joins, 4 the adder. -/
def sideStalled (w : Switch) (e i : Nat) : Bool :=
  let full := fun (j : Join) => joinLen i j == elemDepth w.word e i
  let none_ := fun (j : Join) => joinLen (1 - i) j == 0
  if e < 4 then full (w.joins.getD e {}) && none_ (w.joins.getD e {})
  else
    let two := selCode w.word .vec 25 != 0 && selCode w.word .vec 27 != 0
    (full w.ca0 || (two && full w.ca1)) && (none_ w.ca0 || (two && none_ w.ca1))

/-- RECONV_STALL: side `side` of element e of switch u has been full for 1,024 cclk with an empty input across (06 R239). -/
def execReconvStall (u e side : Nat) (s : State) : Out :=
  if !isUnit u then .fault (.noSuchObject u)
  else if e ≥ 5 then .fault (.noSuchObject e)
  else if side ≥ 2 then .fault (.noSuchObject side)
  else
    match ownerOf s u with
    | none => .next s
    | some p =>
      let x := getPolder s p
      let w := getSw s u
      match x.frame with
      | none => .next s
      | some f =>
        if x.state == 2 && elemOn w.word e && sideStalled w e side then
          let s := setSw s u { w with flags := setBit w.flags 3,
                                      recElem := if w.recValid then w.recElem else BitVec.ofNat 3 e,
                                      recSide := if w.recValid then w.recSide else side == 1, recValid := true }
          if f.reconv.contains (8 * u + e) then .next s
          else
            let s := setPolder s p { x with frame := some { f with reconv := f.reconv ++ [8 * u + e] } }
            .next (raise 0x36 (some p) none (some u) (e + 8 * side) s)
        else .next s

end Sys2Proof.Machine
end

