-- ==== Sys2Proof/Machine/RouteGraph.lean ====
section
/-! DEFINITION. The route builder's search of a bank of tables (07 R266): a cycle in the channel dependency graph of the routes that
the bank can produce, through ALT entries, detour registers and causeway tables. The graph is the same for each VC, which share the
tables and the lanes. Readings: log 23, DEDUCED. -/

namespace Sys2Proof.Machine

open Sys2Proof

/-- What is left of a list of nodes when those with no edge into the rest are taken off n times: empty where there is no cycle. -/
def pruneNodes {α : Type} (edge : α → α → Bool) : Nat → List α → List α
  | 0, l => l
  | n + 1, l => pruneNodes edge n (l.filter (fun a => l.any (edge a)))

/-! ## Channels and routes -/

/-- A channel of a net: a router's output to its neighbour, its way into the causeway under its field, a causeway edge, a way
out at a ramp. -/
inductive Chan where
  | mesh (u : Nat) (d : Dir)
  | enter (u : Nat)
  | edge (f : Nat) (d : Dir)
  | leave (f : Nat) (d : Dir)
  deriving DecidableEq, Repr

/-- The sides. -/
def sides : List Dir := [.n, .e, .s, .w]

/-- The units of the wafer. -/
def allUnits : List Nat := (List.range 768).flatMap (fun y => (List.range 768).map (fun x => unitAt x y))

/-- Every channel. -/
def allChans : List Chan :=
  allUnits.flatMap (fun u => Chan.enter u :: sides.map (Chan.mesh u)) ++
    (List.range 64).flatMap (fun f => sides.map (Chan.edge f) ++ sides.map (Chan.leave f))

/-- Every destination; with a spare row, of a DBG packet (15 R498). -/
def allDests : List (Nat × Option Nat) :=
  allUnits.flatMap (fun u => (u, none) :: (List.range 4).map (fun j => (u, some j))) ++ (List.range 64).map (fun f => (fcId f, none)) ++
    (List.range 51).map (fun x => (unitAt x 1023, none))

/-- The channel of a hop out of router u. -/
def hopChan (u : Nat) : Hop → List Chan
  | .out d => [.mesh u d]
  | .cw => [.enter u]
  | _ => []

/-- What a detour of a hop may take instead (07 R281). -/
def detourChans (s : State) (b : RouteBank) (net : Net) (u : Nat) : Hop → List Chan
  | .out d =>
    let e := detourEntry b net u d
    if 1 ≤ e && e ≤ 4 then [.mesh u (codeDir e)]
    else if 5 ≤ e && e ≤ 8 then hopChan u (hopRamp s b net u (codeDir (e - 4)))
    else []
  | _ => []

/-- The channels by which router u may send a packet on: PRIMARY, ALT, and the detours of both. -/
def chansAt (s : State) (b : RouteBank) (net : Net) (u : Nat) (t : Nat × Option Nat) : List Chan :=
  let e := routeEntry b net u t.1
  [e % 16, e / 16].flatMap (fun c => let h := hopBy s b net u t.1 t.2 c; hopChan u h ++ detourChans s b net u h)

/-- The channels by which the causeway router under field g may send a packet on. -/
def chansUnder (b : RouteBank) (g t : Nat) : List Chan :=
  let e := cwEntry b g (cwIndex t)
  if 1 ≤ e && e ≤ 4 then [.edge g (codeDir e)] else if 5 ≤ e && e ≤ 8 then [.leave g (codeDir (e - 4))] else []

/-- What may follow a channel on the way to a destination. -/
def chansAfter (s : State) (b : RouteBank) (net : Net) (t : Nat × Option Nat) : Chan → List Chan
  | .mesh u d => match neighbour u d with | some v => chansAt s b net v t | none => []
  | .enter u => chansUnder b (fieldOf u) t.1
  | .edge f d => match fieldNbr f d with | some g => chansUnder b g t.1 | none => []
  | .leave f d => chansAt s b net (rampRouter f d) t

/-- The channels that packets for a destination can come to hold: from any router, and from the causeway port of an endpoint
(10 R339); n rounds of what follows. -/
def chansUsed (s : State) (b : RouteBank) (net : Net) (t : Nat × Option Nat) : Nat → List Chan
  | 0 => allUnits.flatMap (fun u => chansAt s b net u t) ++
      ((List.range 51).filter (epByCauseway b.fenced)).flatMap (fun x => chansUnder b ((epFields x).headD 0) t.1)
  | n + 1 => let l := chansUsed s b net t n; l ++ (l.flatMap (chansAfter s b net t)).filter (fun c => !l.contains c)

/-- Does channel c' follow channel c on a route that the bank can produce. -/
def depends (s : State) (b : RouteBank) (net : Net) (c c' : Chan) : Bool :=
  allDests.any (fun t => (chansUsed s b net t 64).contains c && (chansAfter s b net t c).contains c')

/-- Has the graph of a net a cycle. -/
def netCycle (s : State) (b : RouteBank) (net : Net) : Bool := !(pruneNodes (depends s b net) allChans.length allChans).isEmpty

/-- Has the graph of either net a cycle (R266). -/
def bankCycle (s : State) (b : RouteBank) : Bool := netCycle s b .req || netCycle s b .rpl

/-- May a bank be installed: Marrow's own tables, which are built for the check (15 R497; log 23, DEDUCED), or a graph without a
cycle. -/
def bankSound (s : State) (b : RouteBank) : Bool :=
  (b.fields.isEmpty && b.rows.isEmpty && b.routers.isEmpty && b.cw.isEmpty) || !bankCycle s b

end Sys2Proof.Machine
end

