-- ==== Sys2Proof/Machine/MeshRouter.lean ====
section
/-! DEFINITION. Routers (07 R255 to R281): one head moved by one hop, dike ports, held paths, multicast trees, links going
down, and the route epoch. A packet moves whole, one packet per input port and VC (log 9, DESIGN CHOICE).
Readings: log 43, DEDUCED. -/

namespace Sys2Proof.Machine

open Sys2Proof

/-! ## Where a packet stands -/

/-- The router that a flight's next hop is taken by: a unit's position, or the field controller's ID for the causeway router
under its field. -/
def routerOf (s : State) (f : Flight) : Option Nat :=
  match f.loc with
  | .router u _ => some u
  | .replica u _ => some u
  | .own u => some u
  | .causeway g _ => some (fcId g)
  | .arrived _ => none
  | .inject =>
    match entryOf s f.net (sender f) f.pkt.dest with
    | .router u _ => some u
    | .causeway g => some (fcId g)

/-- Do two flights stand in the same queue: place and VC, and for injection the source. -/
def sameQueue (a b : Flight) : Bool :=
  a.net == b.net && a.loc == b.loc && a.pkt.vc == b.pkt.vc && (a.loc != .inject || sender a == sender b)

/-- Is the flight the first of its queue. -/
def firstInQueue (s : State) (f : Flight) : Bool :=
  match s.flights.find? (sameQueue f) with
  | some g => g == f
  | none => false

/-- Remove one flight. -/
def dropFlight (f : Flight) (s : State) : State :=
  match takeFlight (fun g => g == f) s.flights with
  | some r => { s with flights := r.2 }
  | none => s

/-- Place a packet. -/
def place (net : Net) (l : Loc) (p : Packet) (s : State) : State :=
  { s with flights := s.flights ++ [{ net := net, loc := l, pkt := p }] }

/-- May a request of n flits be delivered at an endpoint: its port's VC has room. -/
def portFree (s : State) (u vc n : Nat) : Bool := placeFree s .req (.arrived u) vc n

/-! ## Answers of routers -/

/-- Does a packet get no answer: a reply (07 R281), a RELEASE (07 R272), one that ends with KILL (07 R251). -/
def unanswered (net : Net) (p : Packet) : Bool := net == .rpl || p.op == opRelease || p.killed

/-- Router u answers flight f, as packet p, with a NACK; what gets no answer it discards; none: it has no room for the reply. -/
def routerNack (u code : Nat) (f : Flight) (p : Packet) (s : State) : Option State :=
  if unanswered f.net p then some (dropFlight f s)
  else if answerRoom s u p.vc then some (routerReply u (replyTo p u opNack 0 0 code []) (dropFlight f s))
  else none

/-- NO_ROUTE at router u (07 R261, R281). -/
def noRoute (u : Nat) (f : Flight) (p : Packet) (s : State) : Option State := (routerNack u nkNoRoute f p s).map (rtFlag u 2)

/-! ## Dike ports (02 R67, R68) -/

/-- The NACK that the dike port gives a request hopping from position u to v, if any. -/
def dikeCode (s : State) (net : Net) (u v : Nat) (p : Packet) : Option Nat :=
  match ownerOf s v with
  | none => none
  | some q =>
    if net == .rpl || ownerOf s p.dest != some q || ownerOf s u == some q then none
    else
      let x := getPolder s q
      if x.state = 4 then some nkReset
      else if isFixed p.src then none
      else
        match ownerOf s p.src, x.cfg with
        | some o, some c => if o = q || c.admitted.getLsbD o then none else some nkDike
        | _, _ => some nkDike

/-! ## Held outputs (07 R270, R271) -/

/-- May a packet of a net take an output: one held for another source bars the VC3 packets of the request net (07 R270). -/
def heldFree (s : State) (net : Net) (u : Nat) (d : Port) (p : Packet) : Bool :=
  net == .rpl || p.vc != 3 || (getRouter s u).heldOut.all (fun h => h.1 != d || h.2 == p.src)

/-- After a VC3 packet has taken an output: a HOLD keeps it, a RELEASE of the holder frees it. -/
def holdPass (u : Nat) (d : Port) (p : Packet) (s : State) : State :=
  if p.vc != 3 then s
  else if p.op = opRelease then modRouter s u (fun r => { r with heldOut := r.heldOut.filter (fun h => !(h.1 == d && h.2 == p.src)) })
  else if p.hold then modRouter s u (fun r => { r with heldOut := (d, p.src) :: r.heldOut.filter (fun h => h.1 != d) })
  else s

/-- HOLD_IDLE: a held output of a router, or of the causeway router under a field, has carried no VC3 flit for 4,096 cclk (07 R271). -/
def execHoldIdle (u : Nat) (d : Port) (s : State) : Out :=
  if !isUnit u && !isFc u then .fault (.noSuchObject u)
  else if (getRouter s u).heldOut.any (fun h => h.1 == d) then
    let s := modRouter s u (fun r => { r with heldOut := r.heldOut.filter (fun h => h.1 != d) })
    .next (if isUnit u then rtFlag u 4 s else s)
  else .next s

/-! ## Delivery at a unit's or a field controller's port -/

/-- The opcodes that an endpoint serves (07 R252, R262, R287; 10 R341; 17 R550); a memory unit takes MSG to refuse it. -/
def serves (p : Packet) : Bool :=
  let d := p.dest
  if isCc d then p.op == opMsg || p.op == opWrite || p.op == opRead || p.op == opDbg
  else if isMu d then p.op == opMsg || p.op == opWrite || p.op == opRead || p.op == opWclaim || p.op == opWdone || p.op == opDbg
  else if isFc d then p.op == opSync || p.op == opDbg || (p.op == opWrite && p.src == mgcId)
  else if isMec d then p.op == opDbg || ((p.op == opDread || p.op == opDwrite) && (isMu p.src || isNp p.src))
  else if isNp d || d == mgcId then p.op == opMsg
  else isSp d

/-- The NACK that a request draws at the port of its destination, if any (07 R254, R255). -/
def deliverCode (s : State) (p : Packet) : Option Nat :=
  if isUnit p.dest then
    if p.op = opDbg then (if rowAbsent s p.dest then some nkNoUnit else none)
    else
      match portCode s p.dest with
      | some c => some c
      | none => if serves p then none else some nkBadOp
  else if serves p then none
  else some nkBadOp

/-- An endpoint answers an opcode it does not serve with BAD_OP (07 R252): a unit counts the packet's DTR (07 R284); none: a reply
of its own still waits (07 R247). -/
def badOp (p : Packet) (s : State) : Option State :=
  if replyWaits s p.dest then none
  else some (nack p p.dest nkBadOp (if isUnit p.dest then orderRisk p.dest p s else s))

/-- A request arrives at the port of its DEST by router u's outward link, or at that of the unit or field controller there. -/
def arriveBy (u : Nat) (p : Packet) (s : State) : State :=
  { s with flights := s.flights ++ [{ net := .req, loc := .arrived p.dest, pkt := p, via := if isFixed p.dest then some u else none }] }

/-- Deliver flight f, as packet p, from router u by its output d to the endpoint of its DEST; none: it waits. A packet that ends with
KILL is discarded (07 R251). -/
def deliver (u : Nat) (d : Port) (f : Flight) (p : Packet) (s : State) : Option State :=
  if p.killed then some (dropFlight f s)
  else if f.net = .rpl then some (place .rpl (.arrived p.dest) p (dropFlight f s))
  else
    match deliverCode s p with
    | some c => if c = nkBadOp then badOp p (rtFlag u 5 (dropFlight f s)) else routerNack u c f p s
    | none =>
      if portFree s p.dest p.vc (flitsOf p) && heldFree s f.net u d p then
        some (holdPass u d p (arriveBy u p (dropFlight f s)))
      else none

/-- DBG with SPARE is delivered at the spare position J of its column: a pseudo unit ID from 2^20 up (log 9, DESIGN CHOICE). -/
def spareId (dest j : Nat) : Nat := 2 ^ 20 + (fieldOf dest * 4 + j) * 96 + localX dest

/-! ## Multicast trees (07 R276, R277) -/

/-- East column and south row of a multicast packet. -/
def mcX1 (p : Packet) : Nat := bitsOf (p.payload.headD 0).toNat 9 0
/-- South row. -/
def mcY1 (p : Packet) : Nat := bitsOf (p.payload.headD 0).toNat 19 10

/-- Is a flight in the replica buffer of router v. -/
def replicaIn (v : Nat) (f : Flight) : Bool := match f.loc with | .replica w _ => w == v | .own w => w == v | _ => false

/-- Has router v room for a multicast packet: its replica buffer, of one packet per net, is free (07 R276). -/
def mcRoom (s : State) (v : Nat) : Bool := !s.flights.any (fun f => f.net == .req && replicaIn v f)

/-- A copy for router v's own unit where it is a target: it waits in its row, at the unit's port or, where that has no room, in the replica
buffer; or it is refused by the port. -/
def mcOwn (v : Nat) (p : Packet) (s : State) : State :=
  let cols := packetCols p
  if !cols.contains (unitX v) then s
  else
    let off := unitY v - unitY p.dest
    let k := colNumber cols (unitX v)
    let upd := fun (g : McRow → McRow) (s : State) =>
      { s with mcRows := s.mcRows.map (fun r => if r.src == p.src && r.seq == p.seq && r.off == off then g r else r) }
    match portCode s v with
    | some _ => upd (fun r => { r with refused := insertNat k r.refused }) s
    | none =>
      place .req (if portFree s v p.vc (flitsOf p) then .arrived v else .own v) p (upd (fun r => { r with waiting := insertNat k r.waiting }) s)

/-- The branch of a row goes on east of v, or ends there. -/
def mcEast (v : Nat) (p : Packet) (s : State) : State :=
  if unitX v < mcX1 p then place .req (.replica v .e) p s
  else
    let off := unitY v - unitY p.dest
    mcSettle { s with mcRows := s.mcRows.map (fun r =>
      if r.src == p.src && r.seq == p.seq && r.off == off then { r with ended := some v } else r) }

/-- A multicast packet at a spine router: a row starts, and the spine goes on south. -/
def mcSpine (v : Nat) (p : Packet) (s : State) : State :=
  let s := { s with mcRows := s.mcRows ++
    [{ src := p.src, seq := p.seq, ctx := p.ctx, off := unitY v - unitY p.dest, n := (packetCols p).length }] }
  let s := mcOwn v p s
  let s := if unitY v < mcY1 p then place .req (.replica v .s) p s else s
  mcEast v p s

/-- A multicast packet at a router of a branch. -/
def mcBranch (v : Nat) (p : Packet) (s : State) : State := mcEast v p (mcOwn v p s)

/-- A replica leaves router u on side d. -/
def replicaMove (u : Nat) (d : Dir) (f : Flight) (s : State) : Option State :=
  match neighbour u d with
  | none => none
  | some v =>
    if linkDown s .req u d || !mcRoom s v || !crossingOpen s u v (dirBit d) then none
    else
      let s := dropFlight f s
      some (if d = .s then mcSpine v f.pkt s else mcBranch v f.pkt s)

/-- MC_NACKs for the rows that a dropped replica would have covered, from column x on; each leaves once router u has room for it (07 R257). -/
def dropRows (u : Nat) (p : Packet) (rows : List Nat) (x : Nat) (s : State) : State :=
  let cols := packetCols p
  let miss := (List.range cols.length).filter (fun i => decide (cols.getD i 0 ≥ x))
  forEach rows (fun y s =>
    let off := y - unitY p.dest
    { s with mcRows := s.mcRows.filter (fun r => !(r.src == p.src && r.seq == p.seq && r.off == off)) ++
      [{ src := p.src, seq := p.seq, ctx := p.ctx, off := off, n := cols.length, refused := miss, ended := some u, dropped := true }] }) s

/-- MC_DROP: the oldest replica that waits at router u is dropped (07 R277). -/
def execMcDrop (u : Nat) (s : State) : Out :=
  if !isUnit u then .fault (.noSuchObject u)
  else
    match s.flights.find? (fun f => match f.loc with | .replica v _ => v == u | _ => false) with
    | none => .next s
    | some f =>
      let p := f.pkt
      let s := dropFlight f s
      let s := modRouter s u (fun r => { r with mcDrops := incCnt r.mcDrops, flags := setBit r.flags 3 })
      match f.loc with
      | .replica _ .s => .next (mcSettle (dropRows u p (span (unitY u + 1) (mcY1 p)) 0 s))
      | _ => .next (mcSettle (dropRows u p [unitY u] (unitX u + 1) s))

/-! ## One hop -/

/-- What happens where a packet leaves its injection port: EPOCH is set (07 R253), an MSEND completes and is counted (04
R162, 17 R556). -/
def leavePort (f : Flight) (s : State) : State :=
  if f.loc == .inject && f.pkt.op = opMsg && isCc f.pkt.src then
    modMif (modCore s f.pkt.src (tagCount true f.pkt.tag)) f.pkt.src (fun m => { m with sendBlk := false })
  else s

/-- Has an outward link of an endpoint, or the field it lies in, gone down since the last flip. -/
def justFell (s : State) (net : Net) (r : Nat) : Bool :=
  s.epoch.fell.contains (net, r) || (fieldDown s (fieldOf r) && !inSet s.epoch.downAtFlip (fieldOf r))

/-- Is a packet injected away from its first choice because of what went down since the last flip (10 R338, R339): DTR is 1 on every packet
to its DEST until the next. -/
def newFallback (s : State) (f : Flight) : Bool :=
  let x := unitX (sender f)
  f.loc == .inject && unitY (sender f) == 1023 &&
    (List.range ((epSkip s f.net x f.pkt.dest).getD (epPositions x).length)).any (fun j => justFell s f.net (epNext x f.pkt.dest j))

/-- The packet as it leaves its injection port: EPOCH and DTR. -/
def leaving (s : State) (f : Flight) : Packet :=
  if f.loc == .inject then
    { f.pkt with epoch := s.epoch.epoch, dtr := f.pkt.dtr || newFallback s f || s.epoch.dtrDests.contains (sender f, f.pkt.dest) }
  else f.pkt

/-- Packets of f's source to its DEST keep DTR until the next flip. -/
def noteDtr (f : Flight) (s : State) : State :=
  if newFallback s f && !s.epoch.dtrDests.contains (sender f, f.pkt.dest) then
    { s with epoch := { s.epoch with dtrDests := s.epoch.dtrDests ++ [(sender f, f.pkt.dest)] } }
  else s

/-- Does a request wait at its injection port: VC1 to VC3 while an epoch drains (07 R267), a SYNC while an earlier one to
the same field controller awaits its ACK (07 R286). -/
def heldBack (s : State) (f : Flight) : Bool :=
  f.loc == .inject && f.net == .req &&
    ((s.epoch.draining && f.pkt.vc != 0) ||
     (f.pkt.op == opSync &&
        ((getMif s f.pkt.src).outst.takeWhile (fun o => o.pkt.seq != f.pkt.seq)).any (fun o =>
          o.pkt.op == opSync && o.pkt.dest == f.pkt.dest && !o.acked)))

/-- The side a detour takes for a failed output, if any leads on (07 R280, R281). -/
def detourSide (s : State) (net : Net) (u : Nat) (p : Packet) (d : Dir) : Option Hop :=
  let e := detourEntry (bankOf s p.epoch) net u d
  if 1 ≤ e && e ≤ 4 then (if linkDown s net u (codeDir e) then none else some (.out (codeDir e)))
  else if 5 ≤ e && e ≤ 8 then
    match hopRamp s (bankOf s p.epoch) net u (codeDir (e - 4)) with
    | .out x => if linkDown s net u x then none else some (.out x)
    | h => some h
  else none

/-- Has the causeway router under a field room for a packet of a VC by an edge, a ramp or a port: each has four lanes per net, which
the VCs share (01 R34, 07 R265). -/
def laneFree (s : State) (net : Net) (g via vc : Nat) : Bool :=
  decide ((s.flights.filter (fun x => x.net == net && x.loc == .causeway g via && x.pkt.vc == vc)).length < 4)

/-- A packet leaves router u, or a causeway router, by output d for the causeway router under a field. -/
def toCauseway (u : Nat) (d : Port) (g via : Nat) (f : Flight) (p : Packet) (s : State) : Option State :=
  if laneFree s f.net g via p.vc && heldFree s f.net u d p then some (holdPass u d p (place f.net (.causeway g via) p (dropFlight f s)))
  else none

/-- The number of the ramp at router u. -/
def rampAt (u : Nat) : Nat :=
  4 + dirBit (([Dir.n, .e, .s, .w].find? (fun d => rampRouter (fieldOf u) d == u)).getD .n)

/-- A packet enters the causeway at the ramp of router u; the ramps of a field that is down are unavailable (01 R38). -/
def byRamp (u : Nat) (f : Flight) (p : Packet) (s : State) : Option State :=
  if fieldDown s (fieldOf u) then noRoute u f p s else toCauseway u .ramp (fieldOf u) (rampAt u) f p s

/-- A dike port in front of router v absorbs a packet and answers it (02 R67, R68). -/
def dikeAnswer (v code : Nat) (f : Flight) (p : Packet) (s : State) : Option State := routerNack v code f p s

/-- A packet leaves router u on side d to its neighbour v, or through the outward link to its endpoint. -/
def leaveBy (u : Nat) (d : Dir) (f : Flight) (p : Packet) (s : State) : Option State :=
  match neighbour u d with
  | some v =>
    match dikeCode s f.net u v p with
    | some c => dikeAnswer v c f p s
    | none =>
      let l := Loc.router v (.side (dirOpp d))
      if placeFree s f.net l p.vc (flitsOf p) && heldFree s f.net u (.side d) p && crossingOpen s u v (dirBit d) &&
          forwards s (fieldOf v) then
        some (holdPass u (.side d) p (place f.net l p (dropFlight f s)))
      else none
  | none =>
    let own := unitY p.dest = 1023 && (match edgePos u d with | some g => (epPositions (unitX p.dest)).contains g | none => false)
      && epSide (unitX p.dest) == d
    if !own then noRoute u f p s
    else if p.op = opRelease then some (holdPass u (.side d) p (dropFlight f s))
    else deliver u (.side d) f p s

/-- The field that an endpoint lies in, if in one. -/
def destField (d : Nat) : Option Nat := if isUnit d then some (fieldOf d) else if isFc d then some (unitX d) else none

/-- Is a destination in a field whose reset has discarded its packets (15 R509 step 3). -/
def resetDest (s : State) (d : Nat) : Option Nat := (destField d).filter (fun f => (getField s f).resetPhase == 2)

/-- Does router u, outside field f, border it. -/
def borders (u f : Nat) : Bool :=
  fieldOf u != f && [Dir.n, .e, .s, .w].any (fun d => match neighbour u d with | some v => fieldOf v == f | none => false)

/-- Does router u absorb a packet for d (15 R509). -/
def absorbs (s : State) (u d : Nat) : Bool := match resetDest s d with | some f => borders u f | none => false

/-- Route the head f at router u (07 R261, R264, R281; 15 R509); none: it waits. -/
def routeAt (u : Nat) (f : Flight) (s : State) : Option State :=
  let p := leaving s f
  let atSpine := p.mcast && f.net == .req && u == p.dest
  if !isEndpoint p.dest then routerNack u nkNoUnit f p s
  else if absorbs s u p.dest then routerNack u nkReset f p s
  else if atSpine then
    if p.killed then some (dropFlight f s)
    else if mcRoom s u then some (mcSpine u p (dropFlight f s)) else none
  else
    match hopOf s f.net u p with
    | .noRoute => noRoute u f p s
    | .cw => byRamp u f p s
    | .here =>
      if p.op = opDbg && bitsOf p.arg 4 4 = 1 then
        let at_ := spareId p.dest (bitsOf p.arg 6 5)
        if p.killed then some (dropFlight f s)
        else if portFree s at_ p.vc (flitsOf p) then some (place .req (.arrived at_) p (dropFlight f s)) else none
      else deliver u .unit f p s
    | .out d =>
      if linkDown s f.net u d then
        match detourSide s f.net u p d with
        | none => noRoute u f p s
        | some h =>
          let p := { p with dtr := true }
          let s' := match h with
            | .out x => leaveBy u x f p s
            | _ => byRamp u f p s
          s'.map (fun s => modRouter s u (fun r => { r with flags := setBit r.flags 1, detours := incCnt r.detours }))
      else leaveBy u d f p s

/-- The causeway router under field g answers a packet it cannot forward, once it has room for the reply (07 R257, R265; 15 R509); a
DEST that names no endpoint draws NO_UNIT there (07 R255). -/
def cwNack (g : Nat) (f : Flight) (p : Packet) (s : State) : Option State :=
  if unanswered f.net p then some (dropFlight f s)
  else if !laneFree s .rpl g 8 p.vc then none
  else
    let code := if !isEndpoint p.dest then nkNoUnit else if (resetDest s p.dest).isSome then nkReset else nkNoRoute
    some (place .rpl (.causeway g 8) { replyTo p (fcId g) opNack 0 0 code [] with epoch := s.epoch.epoch } (dropFlight f s))

/-- A packet leaves the causeway under field g by the port of its DEST, on the outward side d (10 R339). -/
def cwDeliver (g : Nat) (d : Dir) (f : Flight) (p : Packet) (s : State) : Option State :=
  if p.killed then some (dropFlight f s)
  else if p.op = opRelease then some (holdPass (fcId g) (.side d) p (dropFlight f s))
  else if f.net = .rpl then some (place .rpl (.arrived p.dest) p (dropFlight f s))
  else if (deliverCode s p).isSome then badOp p (dropFlight f s)
  else if portFree s p.dest p.vc (flitsOf p) && heldFree s f.net (fcId g) (.side d) p then
    some (holdPass (fcId g) (.side d) p (place .req (.arrived p.dest) p (dropFlight f s)))
  else none

/-- A packet leaves the causeway under field g at its ramp d, past the dike of the polder there (02 R67). -/
def cwRamp (g : Nat) (d : Dir) (f : Flight) (p : Packet) (s : State) : Option State :=
  let v := rampRouter g d
  if fieldDown s g then cwNack g f p s
  else
    match dikeCode s f.net mgcId v p with
    | some c => dikeAnswer v c f p s
    | none =>
      if placeFree s f.net (.router v .unit) p.vc (flitsOf p) && heldFree s f.net (fcId g) (.rampTo d) p then
        some (holdPass (fcId g) (.rampTo d) p (place f.net (.router v .unit) p (dropFlight f s)))
      else none

/-- Route the head f in the causeway router under field g (07 R265, 10 R339). -/
def routeCauseway (g : Nat) (f : Flight) (s : State) : Option State :=
  let p := leaving s f
  let e := cwEntry (bankOf s p.epoch) g (cwIndex p.dest)
  if !isEndpoint p.dest then cwNack g f p s
  else if 1 ≤ e && e ≤ 4 then
    match fieldNbr g (codeDir e) with
    | some h => toCauseway (fcId g) (.side (codeDir e)) h (dirBit (dirOpp (codeDir e))) f p s
    | none => if unitY p.dest = 1023 && (epFields (unitX p.dest)).contains g then cwDeliver g (codeDir e) f p s else cwNack g f p s
  else if 5 ≤ e && e ≤ 8 then cwRamp g (codeDir (e - 4)) f p s
  else cwNack g f p s

/-- A packet in the injection port of a unit enters the unit's own router (07 R282, R290). -/
def enterRouter (u : Nat) (f : Flight) (s : State) : Option State :=
  let p := leaving s f
  if placeFree s f.net (.router u .unit) p.vc (flitsOf p) then some (place f.net (.router u .unit) p (dropFlight f s)) else none

/-- Try to move flight f at router u. -/
def tryHead (u : Nat) (f : Flight) (s : State) : Option State :=
  if !firstInQueue s f || heldBack s f then none
  else
    match f.loc with
    | .replica _ d => replicaMove u d f s
    | .own v => if portFree s v f.pkt.vc (flitsOf f.pkt) then some (place .req (.arrived v) f.pkt (dropFlight f s)) else none
    | _ =>
      let r := if isFc u then routeCauseway (unitX u) f s
        else if !forwards s (fieldOf u) then none
        else if f.loc == .inject && isUnit (sender f) then enterRouter u f s
        else routeAt u f s
      r.map (fun s' => leavePort f (noteDtr f s'))

/-- The output that a hop takes: sides 0 to 3, unit port or none 4, ramp 5. -/
def hopOutput (h : Hop) : Nat := match h with | .out d => dirBit d | .cw => 5 | _ => 4

/-- The output of router u that flight f asks for: that of its hop or, where its link is down, of the detour; the router itself 6; of the
causeway router under a field, edges 0 to 3, none 4, ramps 7 to 10. -/
def outputOf (s : State) (u : Nat) (f : Flight) : Nat :=
  let p := leaving s f
  match f.loc with
  | .replica _ d => dirBit d
  | .own _ => 4
  | l =>
    if isFc u then
      let e := cwEntry (bankOf s p.epoch) (unitX u) (cwIndex p.dest)
      if 1 ≤ e && e ≤ 4 then e - 1 else if 5 ≤ e && e ≤ 8 then e + 2 else 4
    else if l == .inject && isUnit (sender f) then 6
    else
      match hopOf s f.net u p with
      | .out d => if linkDown s f.net u d then ((detourSide s f.net u p d).map hopOutput).getD 4 else dirBit d
      | h => hopOutput h

/-- The input that a flight came in by: sides or edges 0 to 3, ramps 4 to 7, its unit's port 8, a replica buffer 9, an injection
port 10. -/
def inputOf (f : Flight) : Nat :=
  match f.loc with
  | .router _ (.side d) => dirBit d
  | .causeway _ v => v
  | .router _ .unit => 8
  | .replica _ _ => 9
  | .own _ => 9
  | _ => 10

/-- Keys of a router's turns: the outputs; an output's VCs in a net; the inputs of an output's VC. -/
def vcKey (net : Net) (o : Nat) : Nat := 1 + 2 * o + (match net with | .req => 0 | .rpl => 1)
/-- The key of an output's inputs in a VC. -/
def inKey (net : Net) (o vc : Nat) : Nat := 100 + 4 * vcKey net o + vc

/-- The numbers below n from t on. -/
def turnOrder (t n : Nat) : List Nat := (List.range n).map (fun i => (t + i) % n)

/-- The VCs in the order of 07 R258: VC0, then VC1 to VC3 from the one whose turn it is. -/
def vcOrder (t : Nat) : List Nat := 0 :: (List.range 3).map (fun i => 1 + (t + i) % 3)

/-- The first head that can move (07 R258): output by output, in each VC0 first, then the VC and the input whose turn it is. It is
answered with its output, VC and input. -/
def moveHead (net : Net) (u : Nat) (pick : Packet → Bool) (s : State) : Option ((Nat × Nat × Nat) × State) :=
  let cand := (s.flights.filter (fun f => f.net == net && pick f.pkt && routerOf s f == some u)).map (fun f => (outputOf s u f, f))
  let t := fun k => mget 0 (getRouter s u).turns k
  (turnOrder (t 0) 11).findSome? (fun o =>
    let c := cand.filter (fun x => x.1 == o)
    if c.isEmpty then none
    else
      (vcOrder (t (vcKey net o))).findSome? (fun vc =>
        let c := c.filter (fun x => x.2.pkt.vc == vc)
        if c.isEmpty then none
        else
          (turnOrder (t (inKey net o vc)) 11).findSome? (fun i =>
            (c.filter (fun x => inputOf x.2 == i)).findSome? (fun x => (tryHead u x.2 s).map (fun s' => ((o, vc, i), s'))))))

/-- After a packet the next output, VC and input have their turn. -/
def nextTurn (net : Net) (u : Nat) (m : Nat × Nat × Nat) (s : State) : State :=
  modRouter s u (fun r => { r with
    turns := mput (mput (mput r.turns 0 ((m.1 + 1) % 11)) (vcKey net m.1) (if m.2.1 = 0 then mget 0 r.turns (vcKey net m.1) else m.2.1 % 3))
      (inKey net m.1 m.2.1) ((m.2.2 + 1) % 11) })

/-- The router at the far end of the link that a packet of router u crossed (07 R248): the link by which its head came to u from a
neighbour, or from a fixed endpoint; of a replica, the one that it takes. -/
def linkEnd (u : Nat) (m : Nat × Nat × Nat) : Option Nat :=
  let i := m.2.2
  if isFc u then none
  else if i < 4 then some u
  else if i = 9 then (if m.1 < 4 then neighbour u (sideOf m.1) else none)
  else if i = 10 && m.1 != 6 && [Dir.n, .e, .s, .w].any (fun d => (edgePos u d).isSome) then some u
  else none

/-- Corrected flit errors on a link: RT_LINK_CE saturates (07 R248, R292). -/
def linkError (u : Nat) (m : Nat × Nat × Nat) (ce : Nat) (s : State) : State :=
  match linkEnd u m with
  | some v => modRouter s v (fun r => { r with linkCe := BitVec.ofNat 16 (min (r.linkCe.toNat + ce) 0xFFFF) })
  | none => s

/-- ROUTER_HEAD: a router of a net routes one packet head. -/
def execRouterHead (net : Net) (h : HeadAt) (s : State) : Out :=
  if !isUnit h.u && !isFc h.u then .fault (.noSuchObject h.u)
  else
    match moveHead net h.u (fun p => p.op != opRelease) s with
    | some (m, s') => .next (mcSettle (linkError h.u m h.ce (nextTurn net h.u m s')))
    | none => .next (mcSettle s)

/-- A RELEASE at the router of its target is consumed (07 R272); elsewhere it moves on and frees its holder's output. -/
def releaseHop (u : Nat) (f : Flight) (s : State) : Option State :=
  if !firstInQueue s f || heldBack s f then none
  else if isFc u then routeCauseway (unitX u) f s
  else
    match outputOf s u f, hopOf s .req u (leaving s f) with
    | 6, _ => enterRouter u f s
    | _, .here => some (holdPass u .unit f.pkt (dropFlight f s))
    | _, _ => routeAt u f s

/-- RELEASE: the RELEASE packet at router u passes, freeing the output its source holds there (07 R271). -/
def execRelease (h : HeadAt) (s : State) : Out :=
  if !isUnit h.u && !isFc h.u then .fault (.noSuchObject h.u)
  else
    match s.flights.find? (fun f => f.net == .req && f.pkt.op == opRelease && routerOf s f == some h.u) with
    | some f =>
      match releaseHop h.u f s with
      | some s' => .next (linkError h.u (outputOf s h.u f, 3, inputOf f) h.ce s')
      | none => .next s
    | none => .next s

/-! ## Waiting (07 R290) -/

/-- SEND_BLK: an MSEND of core u has waited 1,024 cclk at its injection port. -/
def execSendBlk (u : Nat) (s : State) : Out :=
  if !isCc u then .fault (.noSuchObject u)
  else if s.flights.any (fun f => f.loc == .inject && f.pkt.src == u && f.pkt.op == opMsg) then
    .next (modMif s u (fun m => { m with sendBlk := true }))
  else .next s

/-- RECV_BLK: a MSG to core u has waited 1,024 cclk at its router with inbox and ring full. -/
def execRecvBlk (u : Nat) (s : State) : Out :=
  if !isCc u then .fault (.noSuchObject u)
  else
    match nextReq s u opMsg with
    | some p =>
      if (acceptMsg (getCore s u) { tag := p.tag, src := p.src, words := p.payload }).isNone then
        .next (modMif s u (fun m => { m with recvBlk := true }))
      else .next s
    | none => .next s

/-! ## The route epoch (07 R267, R268) -/

/-- Is a packet in a net: past its injection port; a request that waits at its target's port is still in the routers (07 R247,
R287). -/
def inNet (f : Flight) : Bool := match f.loc with | .inject => false | .arrived _ => f.net == .req | _ => true

/-- Does a packet of the epoch that a bank serves remain in a net (07 R268). -/
def bankBusy (s : State) (e : Bool) : Bool := s.flights.any (fun f => f.pkt.epoch == e && inNet f)

/-- A bank as Marrow writes it: for the present set of down fields and the present row maps (15 R497, R498). -/
def bankNow (s : State) (b : RouteBank) : RouteBank :=
  { b with fenced := downSet s, rowMap := s.fields.map (fun x => (x.1, x.2.rowMap)) }

/-- Check 15 of a ROUTE bitstream whose tables make a cycle: it names no item, so the offset is a free value (log 36, DESIGN CHOICE). -/
def routeRefuse (q : Nat) (s : State) : State :=
  let (w, s) := takeFree s
  refuseAt q none 15 w.toNat none s

/-- LD_BUILD and LD_DIGEST stand as before the bitstream that is refused (11 R397). -/
def buildUndone (s : State) : State := modConf s (fun k => { k with buildId := k.priorBuild, digest := k.priorDigest })

/-- The route builder refuses a bank: a ROUTE_LOAD that waits ends with it, and Marrow's own change over the records installed is to
be made at the next tick; without one the tables in use stay (log 23, DESIGN CHOICE). -/
def bankRefused (s : State) : State :=
  let e := s.epoch
  match e.built, e.queue with
  | some _, some q => routeRefuse q (buildUndone { s with epoch := { e with built := none, queue := none, due := (bankOf s e.epoch).fenced != downSet s } })
  | _, _ => { s with epoch := { e with due := false } }

/-- Marrow builds tables for the present set of down fields over the records installed or, where a ROUTE_LOAD waits, over those
it brings (07 R280, 15 R497, 11 R402), has them checked (07 R266), writes them into the bank that the epoch does not use and arms the
change (07 R267 step 1); deferred while that bank is busy or a change is under way (07 R268). -/
def armEpoch (s : State) : State :=
  let e := s.epoch
  if e.armed || e.draining || bankBusy s (!e.epoch) then { s with epoch := { e with due := true } }
  else
    let b := bankNow s (match e.built with | some b => b | none => bankOf s e.epoch)
    if !bankSound s b then bankRefused s
    else
      let e := { e with armed := true, due := false, built := none }
      { s with epoch := if e.epoch then { e with bank0 := b } else { e with bank1 := b } }

/-- The set of down fields has changed. -/
def armDown (s : State) : State := armEpoch { s with epoch := { s.epoch with downAtFlip := s.epoch.downAtFlip &&& downSet s } }

/-- The flip (07 R267 steps 4, 5). -/
def flipEpoch (s : State) : State :=
  let e := s.epoch
  let late := e.expired
  let e' := { e with epoch := !e.epoch, armed := false, draining := false, drained := false, expired := false, late := late,
                     changes := e.changes + 1, tick := s.tick.count, dtrDests := [], fell := [], downAtFlip := downSet s,
                     queue := if e.built.isSome then e.queue else none }
  let s := { s with epoch := e', routers := s.routers.map (fun r => (r.1, { r.2 with heldOut := [] })),
                    mifs := s.mifs.map (fun m => (m.1, { m.2 with held := none })) }
  let s := if late then raise 0x24 none none none e'.changes.toNat s else s
  match e.queue, e.built with
  | some q, none => finish q stOk 0 (modConf s (fun c => { c with busy := false }))
  | _, _ => s

/-- What a wafer tick or an idle tick does for the epoch (07 R267). -/
def epochTick (s : State) : State :=
  let e := s.epoch
  if e.draining then (if e.drained || e.expired then flipEpoch s else s)
  else if e.armed then { s with epoch := { e with draining := true, drained := false, expired := false } }
  else if e.due then armDown s
  else s

/-- Do routers hold packets of VC1 to VC3. -/
def routersHold (s : State) : Bool := s.flights.any (fun f => f.pkt.vc != 0 && inNet f)

/-- EPOCH_DRAIN_DONE: no flit of VC1 to VC3 remains in a router (07 R267 step 3); after the 64 µs of step 5 it counts for nothing. -/
def execEpochDrainDone (s : State) : Out :=
  if s.epoch.draining && !s.epoch.expired && !routersHold s then .next { s with epoch := { s.epoch with drained := true } } else .next s

/-- EPOCH_LATE: 64 µs have passed since the drain began; the flip comes at the next tick all the same (07 R267 step 5). -/
def execEpochLate (s : State) : Out :=
  if s.epoch.draining && !s.epoch.drained then .next { s with epoch := { s.epoch with expired := true } } else .next s

/-! ## Links (07 R279 to R281) -/

/-- One end of a link notes that it is down: LINK_FAIL, its held output freed (07 R271, R280). -/
def endNoted (net : Net) (u : Nat) (d : Dir) (s : State) : State :=
  modRouter s u (fun r =>
    { r with flags := setBit r.flags 0,
             heldOut := if net == .req then r.heldOut.filter (fun h => h.1 != .side d) else r.heldOut })

/-- Both ends of a link note that it is down; an outward link leads to an endpoint (10 R338). -/
def linkNoted (net : Net) (u : Nat) (d : Dir) (s : State) : State :=
  let s := endNoted net u d s
  match neighbour u d with
  | some v => endNoted net v (dirOpp d) s
  | none => { s with epoch := { s.epoch with fell := s.epoch.fell ++ [(net, u)] } }

/-- One end of a link goes down: its bit. -/
def endDown (net : Net) (u : Nat) (d : Dir) (s : State) : State :=
  modRouter s u (fun r => { r with down := setBit r.down (dirBit d + (match net with | .req => 0 | .rpl => 4)) })

/-- A link goes down at both ends. -/
def linkGone (net : Net) (u : Nat) (d : Dir) (s : State) : State :=
  let s := endDown net u d (linkNoted net u d s)
  match neighbour u d with
  | some v => endDown net v (dirOpp d) s
  | none => s

/-- The packet of a VC that router u was sending on side d as the link failed (07 R280 step 1): what the far router has of it ends with
KILL and goes on; the packet itself, whose copy router u holds, is still to go (log 9, DESIGN CHOICE). -/
def cutHead (net : Net) (u : Nat) (d : Dir) (vc : Nat) (s : State) : State :=
  match neighbour u d, s.flights.find? (fun f => f.net == net && f.pkt.vc == vc && (match f.loc with | .router v _ => v == u | _ => false) &&
      firstInQueue s f && outputOf s u f == dirBit d) with
  | some v, some f =>
    let l := Loc.router v (.side (dirOpp d))
    if placeFree s net l f.pkt.vc (flitsOf f.pkt) then place net l { f.pkt with killed := true, hold := false } s else s
  | _, _ => s

/-- MESH_LINK_DOWN: a link fails, with a packet under way on it in each VC of `cut`; Marrow builds tables for a following epoch (07
R280). -/
def execMeshLinkDown (net : Net) (u : Nat) (l : LinkLoss) (s : State) : Out :=
  if !isUnit u then .fault (.noSuchObject u)
  else if linkDown s net u l.dir then .next s
  else .next (armDown (linkGone net u l.dir (forEach (List.range 4) (fun vc s => if l.cut.getLsbD vc then cutHead net u l.dir vc s else s) s)))

/-- The crossings of field f have stopped (01 R32, 07 R279): the routers beyond them note their failed links. -/
def crossingsFail (f : Nat) (s : State) : State :=
  let edge := fun (d : Dir) (i : Nat) =>
    let x := 96 * (f % 8)
    let y := 96 * (f / 8)
    match d with | .n => unitAt (x + i) y | .e => unitAt (x + 95) (y + i) | .s => unitAt (x + i) (y + 95) | .w => unitAt x (y + i)
  forEach [Dir.n, .e, .s, .w] (fun d s =>
    match fieldNbr f d with
    | none => s
    | some g =>
      if !powered s g then s
      else
        forEach (List.range 96) (fun i s =>
          match neighbour (edge d i) d with
          | some v => endNoted .req v (dirOpp d) s
          | none => s) s) s

end Sys2Proof.Machine
end

