-- ==== Sys2Proof/Machine/Sync.lean ====
section
/-! DEFINITION. Synchronisation objects (08 R293 to R304): the five operations a field controller takes, its waiters, and
what the events of a polder do to them. Readings: log 8, DESIGN CHOICE; log 30, DEDUCED. -/

namespace Sys2Proof.Machine

open Sys2Proof

/-! ## Waiters -/

/-- Is a waiter satisfied by a value (08 R296). -/
def waitHolds (w : Waiter) (v : W32) : Bool := if w.eq then v == w.val else decide (w.val.toNat ≤ v.toNat)

/-- The reply to a queued waiter (07 R253, 08 R298). -/
def waiterReply (f op code : Nat) (w : Waiter) : Packet :=
  { dest := w.src, op := op, src := fcId f, seq := w.seq, ctx := w.ctx, vc := 0, arg := code }

/-- Test the waiters of object o of field f against its value: those it satisfies leave in queue order, each with its
WSAT (08 R297, R298). -/
def testWaiters (f o : Nat) (s : State) : State :=
  let x := getField s f
  let v := (getObj s o).value
  let hit := fun (w : Waiter) => w.obj == o && waitHolds w v
  let s := setField s f { x with waiters := x.waiters.filter (fun w => !hit w) }
  forEach (x.waiters.filter hit) (fun w s => inject (waiterReply f opWsat 0 w) s) s

/-- Remove the waiters of every field that a test picks, without reply. -/
def dropWaiters (t : Nat → Waiter → Bool) (s : State) : State :=
  { s with fields := s.fields.map (fun e => (e.1, { e.2 with waiters := e.2.waiters.filter (fun w => !t e.1 w) })) }

/-- Answer the waiters of every field that a test picks with NACK TARGET_RESET. -/
def refuseWaiters (t : Nat → Waiter → Bool) (s : State) : State :=
  let all := s.fields.flatMap (fun e => (e.2.waiters.filter (t e.1)).map (fun w => (e.1, w)))
  forEach all (fun e s => inject (waiterReply e.1 opNack nkReset e.2) s) (dropWaiters t s)

/-- Is a waiter an own waiter of polder p wherever it is queued: its source is a unit of p (08 R303). -/
def ownWaiter (s : State) (p : Nat) (w : Waiter) : Bool := isUnit w.src && ownerOf s w.src == some p

/-- Remove every waiter whose source is a unit of polder p (08 R303). -/
def dropOwn (p : Nat) (s : State) : State := dropWaiters (fun _ w => ownWaiter s p w) s

/-- The objects that polder p owns, rising. -/
def objsOf (s : State) (p : Nat) : List Nat := (s.objs.filter (fun e => e.2.alloc && e.2.owner.toNat == p)).map (·.1)

/-- Does polder p own object o. -/
def ownsObj (s : State) (p o : Nat) : Bool := (getObj s o).alloc && (getObj s o).owner.toNat == p

/-! ## The five operations (08 R296 to R302) -/

/-- Field of an object ID. -/
def objField (o : Nat) : Nat := o / 1024 % 64

/-- The NACK that a SYNC draws, the first that applies (08 R300). -/
def syncCode (s : State) (o sop : Nat) (p : Packet) : Option Nat :=
  if sop ≥ 5 || !lenOk p then some nkBadOp
  else
    let x := getObj s o
    if !x.alloc then some nkAddr
    else
      let q := x.owner.toNat
      let admitted :=
        if !isUnit p.src then true
        else
          match ownerOf s p.src, (getPolder s q).cfg with
          | some a, some c => a == q || c.admitted.getLsbD a
          | some a, none => a == q
          | none, _ => false
      if !admitted then some nkDike
      else if (getPolder s q).state = 4 then some nkReset
      else none

/-- A saturating operation: the object's flag, FCS_FLAGS, FCS_SATS, and the event where the flag was clear (08 R302). -/
def saturate (f o : Nat) (ovf : Bool) (s : State) : State :=
  let x := getObj s o
  let was := if ovf then x.ovf else x.unf
  let s := setObj s o (if ovf then { x with ovf := true } else { x with unf := true })
  let s := modField s f (fun g => { g with fcsFlags := setBit g.fcsFlags (if ovf then 0 else 1), fcsSats := incCnt g.fcsSats })
  if was then s else raise (if ovf then 0x40 else 0x41) none none none o s

/-- The value after a signal (08 R296), and whether it saturates. -/
def signalValue (sop : Nat) (x v : W32) : W32 × Bool :=
  if sop = 0 then
    if x.toNat + v.toNat > 0xFFFFFFFF then (BitVec.allOnes 32, true) else (x + v, false)
  else if sop = 1 then
    if v.toNat > x.toNat then (0, true) else (x - v, false)
  else (v, false)

/-- A signal of a source on an object: the new value, the last signaller, and its waiters tested (08 R296, R297). -/
def signal (f o sop : Nat) (v : W32) (src : Nat) (s : State) : State :=
  let x := getObj s o
  let r := signalValue sop x.value v
  let s := setObj s o { x with
    value := r.1, lastSrc := BitVec.ofNat 20 src, lastSop := BitVec.ofNat 3 sop, lastValid := true,
    lastFrame := BitVec.ofNat 40 (getPolder s x.owner.toNat).frames.toNat }
  let s := if r.2 then saturate f o (sop == 0) s else s
  testWaiters f o s

/-- SYNC_WAITQ_FULL, at most once per field per wafer tick (08 R301). -/
def waitqFull (f : Nat) (s : State) : State :=
  let x := getField s f
  let s := setField s f { x with fcsFlags := setBit x.fcsFlags 2, fcsDrop := incCnt x.fcsDrop, wqRaised := true }
  if x.wqRaised then s else raise 0x42 none none none f s

/-- A WAIT (08 R298, R301); in a field reset that has answered the queued waiters, a foreign one is answered as they were. -/
def waitOp (f o : Nat) (eq : Bool) (v : W32) (p : Packet) (s : State) : State :=
  let w : Waiter := { obj := o, src := p.src, seq := p.seq, ctx := p.ctx, eq := eq, val := v }
  let ack := reply p (fcId f) opAck 0 0 0 []
  if (getField s f).resetPhase != 0 && !ownWaiter s (getObj s o).owner.toNat w then
    place .rpl (.arrived p.src) (waiterReply f opNack nkReset w) s
  else if waitHolds w (getObj s o).value then inject (waiterReply f opWsat 0 w) (ack s)
  else if (getField s f).waiters.length ≥ 4096 then waitqFull f s
  else
    ack (modField s f (fun x =>
      { x with waiters := x.waiters ++ [w],
               fcsHwm := BitVec.ofNat 13 (max x.fcsHwm.toNat (x.waiters.length + 1)) }))

/-- Field controller f serves one SYNC packet (08 R296 to R302). -/
def syncServe (f : Nat) (p : Packet) (s : State) : State :=
  let w := (p.payload.headD 0).toNat
  let o := 1024 * f + bitsOf w 41 32
  let sop := bitsOf w 44 42
  let v := BitVec.ofNat 32 w
  let s := modField s f (fun x => { x with fcsOps := incCnt x.fcsOps })
  match syncCode s o sop p with
  | some code =>
    nack p (fcId f) code (modField s f (fun x => { x with fcsFlags := setBit x.fcsFlags 3, fcsNacks := incCnt x.fcsNacks }))
  | none =>
    if sop ≤ 2 then signal f o sop v p.src (reply p (fcId f) opAck 0 0 0 [] s)
    else waitOp f o (sop == 4) v p s

/-- The command of an operation: field controller f takes its oldest SYNC where it carries the SOP, once it can inject the reply (07 R247); a reserved SOP is
refused by whichever of the five commands comes (08 R300). -/
def syncCmd (f sop : Nat) (s : State) : Out :=
  if f ≥ 64 then .fault (.noSuchObject f)
  else
    match nextReq s (fcId f) opSync with
    | some p =>
      let k := bitsOf (p.payload.headD 0).toNat 44 42
      if replyWaits s (fcId f) then .next s
      else if k = sop || k ≥ 5 then .next (syncServe f p (orderRisk (fcId f) p (dropReq (fcId f) opSync s))) else .next s
    | none => .next s

/-- SYNC_ADD. -/
def execSyncAdd (f : Nat) (s : State) : Out := syncCmd f 0 s
/-- SYNC_SUB. -/
def execSyncSub (f : Nat) (s : State) : Out := syncCmd f 1 s
/-- SYNC_SET. -/
def execSyncSet (f : Nat) (s : State) : Out := syncCmd f 2 s
/-- SYNC_WAIT_GE. -/
def execSyncWaitGe (f : Nat) (s : State) : Out := syncCmd f 3 s
/-- SYNC_WAIT_EQ. -/
def execSyncWaitEq (f : Nat) (s : State) : Out := syncCmd f 4 s

/-! ## Events of a polder and of a field (08 R303, R304) -/

/-- Apply f to every object of polder p. -/
def modObjs (p : Nat) (f : SyncObj → SyncObj) (s : State) : State :=
  { s with objs := s.objs.map (fun e => if e.2.alloc && e.2.owner.toNat == p then (e.1, f e.2) else e) }

/-- Test the waiters of every object of polder p. -/
def testAll (p : Nat) (s : State) : State := forEach (objsOf s p) (fun o s => testWaiters (objField o) o s) s

/-- The objects of polder p at a frame-start tick that is no replay. -/
def objsFrame (p : Nat) (s : State) : State :=
  testAll p (modObjs p (fun x => let v := if x.freset then x.init else x.value; { x with value := v, snap := v }) s)

/-- The objects of polder p at the start of a replayed frame; waiters of its units are removed. -/
def objsReplay (p : Nat) (s : State) : State :=
  testAll p (modObjs p (fun x => { x with value := x.snap }) (dropOwn p s))

/-- An object at its allocation's initial state. -/
def objInit (x : SyncObj) : SyncObj :=
  { x with value := x.init, snap := x.init, ovf := false, unf := false, lastSrc := 0, lastSop := 0, lastValid := false, lastFrame := 0 }

/-- The waiters at a reset, an activation or a release of polder p: own ones removed, foreign ones refused. -/
def objsEnd (p : Nat) (s : State) : State :=
  let s := dropOwn p s
  refuseWaiters (fun _ w => ownsObj s p w.obj) s

/-- The objects of polder p at POLDER_RESET and at an activation that keeps its allocation. -/
def objsReset (p : Nat) (s : State) : State := modObjs p objInit (objsEnd p s)

/-- The objects of polder p become unallocated. -/
def objsRelease (p : Nat) (s : State) : State :=
  let s := objsEnd p s
  { s with objs := s.objs.filter (fun e => !(e.2.alloc && e.2.owner.toNat == p)) }

/-- Allocate the objects of a configuration to polder p (08 R294): the polder's earlier allocation is replaced. -/
def objsAllocate (p : Nat) (l : List SyncAlloc) (s : State) : State :=
  forEach l (fun a s => setObj s a.obj
    { owner := BitVec.ofNat 8 p, alloc := true, freset := a.freset, init := a.init, value := a.init, snap := a.init }) (objsRelease p s)

/-- The reply net delivers a field controller's last answers before its field goes down (log 9, DESIGN CHOICE). -/
def refuseNow (t : Nat → Waiter → Bool) (s : State) : State :=
  let all := s.fields.flatMap (fun e => (e.2.waiters.filter (t e.1)).map (fun w => (e.1, w)))
  forEach all (fun e s => place .rpl (.arrived e.2.src) (waiterReply e.1 opNack nkReset e.2) s) (dropWaiters t s)

/-- The waiters of field f as it goes to S4 or is reset (08 R298, R304): a waiter whose source's polder owns the object is
removed, any other is refused. -/
def fieldWaiters (f : Nat) (s : State) : State :=
  let own := fun (w : Waiter) => ownWaiter s (getObj s w.obj).owner.toNat w
  let s := dropWaiters (fun g w => g == f && own w) s
  refuseNow (fun g _ => g == f) s

/-- The objects of field f when its domain comes on without a saved copy (08 R304). -/
def objsLost (f : Nat) (s : State) : State :=
  { s with objs := s.objs.map (fun e => if e.2.alloc && objField e.1 == f then (e.1, objInit e.2) else e) }

/-- The sync registers of a field controller return to reset (08 R311). -/
def fcsReset (x : Field) : Field :=
  { x with fcsFlags := 0, fcsOps := {}, fcsSats := {}, fcsDrop := {}, fcsNacks := {}, fcsHwm := 0, wqRaised := false }

end Sys2Proof.Machine
end

