-- ==== Sys2Proof/Machine/Dram.lean ====
section
/-! DEFINITION. The memory edge controllers (10 R334 to R372): DREAD and DWRITE, paged translation over the edge ring, errors,
and background work. Readings: log 11, DESIGN CHOICE; log 12, DESIGN CHOICE; log 30, DEDUCED. -/

namespace Sys2Proof.Machine

open Sys2Proof

/-! ## Addresses -/

/-- Is a byte address populated (10 R334). -/
def populated (a : Nat) : Bool := decide (a < 0x18000000000)

/-- Is stack n trained and powered (10 R372, R373). -/
def stackOn (s : State) (n : Nat) : Bool := s.stackBits.getLsbD n

/-- The 64-byte granules of n bytes at address a. -/
def granules (a n : Nat) : List Nat := span (a / 64) ((a + n - 1) / 64)

/-- The granules that n bytes at address a cover in part. -/
def partGranules (a n : Nat) : List Nat :=
  (granules a n).filter (fun g => !(decide (a ≤ 64 * g) && decide (64 * g + 64 ≤ a + n)))

/-- Physical address of stack offset o of stack n (10 R336). -/
def stackAddr (s : State) (n o : Nat) : Nat :=
  let g := granule s
  o / g * (32 * g) + n * g + o % g

/-- Stack offset of physical address a (10 R336). -/
def stackOffset (s : State) (a : Nat) : Nat := a / (32 * granule s) * granule s + a % granule s

/-- Where a stack holds a transaction of 64 B (10 R332, R336): pseudo-channel, column, bank index, row. -/
structure StackPlace where
  pc : Nat
  col : Nat
  bank : Nat
  row : Nat
  deriving DecidableEq, Repr

/-- The place of stack offset o (10 R336). -/
def stackPlace (o : Nat) : StackPlace :=
  let g := o / 4096
  { pc := bitsOf o 11 6 ^^^ bitsOf o 17 12, col := bitsOf g 3 0, bank := bitsOf g 9 4 ^^^ bitsOf g 15 10, row := bitsOf g 23 10 }

/-! ## Errors (10 R333, R363; 02 R78) -/

/-- Set a flag of MEC_FLAGS. -/
def mecFlag (n i : Nat) (s : State) : State := modMec s n (fun m => { m with flags := setBit m.flags i })

/-- A corrected error (10 R363). -/
def mecCe (n : Nat) (s : State) : State := modMec s n (fun m => { m with ce := incCnt m.ce, flags := setBit m.flags 0 })

/-- A command that failed parity and was retried, or a corrected error among `reads` granules (10 R333, R363). -/
def eccNote (n reads : Nat) (ecc : Ecc) (s : State) : State :=
  if ecc = .retried then modMec s n (fun m => { m with ce := incCnt m.ce })
  else if ecc = .corrected && decide (reads > 0) then mecCe n s
  else s

/-- An uncorrectable error at granule g: logged and raised. -/
def mecUeAt (n g : Nat) (s : State) : State :=
  raise 0x51 none none none (64 * g) (modMec s n (fun m =>
    { m with ue := incCnt m.ue, ueAddr := BitVec.ofNat 41 (64 * g), ueValid := true, flags := setBit m.flags 1 }))

/-- An uncorrectable error of granule g itself, which fails from now on; one in a data slot leaves the granule good (10 R363, R364). -/
def mecUe (n g : Nat) (s : State) : State := mecUeAt n g { s with badGranules := insertNat g s.badGranules }

/-- The fault of an uncorrectable error in a read for unit u of polder p (10 R363): against the batch, and the context of a
paged access that is not in it. -/
def ueFault (p u : Nat) (ctx : Option Nat) (addr : Nat) (s : State) : State :=
  let x := getPolder s p
  let batch := match frameOf x with | some f => batchCtxs f | none => []
  let num := match frameOf x with | some f => f.num | none => x.frames
  let extra := match ctx with
    | some c => if batch.contains c || !liveStates.contains (getCtx s c).state then [] else [c]
    | none => []
  let all := batch ++ extra
  let s := forEach all (fun c s => modCtx s c (fun y => { y with faults := incCnt y.faults })) s
  trEvent 3 (all.map (fun c => (c, toLe 4 u ++ [7] ++ zeros 3 ++ toLe 8 num.toNat ++ toLe 8 addr))) s

/-! ## Serving an access (10 R343 to R347) -/

/-- Fields of an address word (10 R342). -/
def awAddr (w : W64) : Nat := bitsOf w.toNat 37 0
/-- PAGED. -/
def awPaged (w : W64) : Bool := w.getLsbD 38
/-- Words accessed. -/
def awWords (w : W64) : Nat := bitsOf w.toNat 43 39 + 1
/-- LAND. -/
def awLand (w : W64) : Nat := bitsOf w.toNat 63 44

/-- Rows 1 to 3 of 10 R343: what is wrong with a request before any translation. -/
def dramForm (p : Packet) : Option Nat :=
  let w := p.payload.headD 0
  let write := p.op == opDwrite
  let agree := if write then decide (1 ≤ p.len) && decide (p.len < 32) && p.payload.length == p.len + 1 && awWords w == p.len
    else p.len == 0 && p.payload.length == 1
  let a := 8 * awAddr w
  if !agree then some nkBadOp
  else if (write && awLand w != 0) || (awPaged w && bitsOf w.toNat 37 27 != 0) || a / 256 != (a + 8 * awWords w - 1) / 256 then some nkAddr
  else if !awPaged w && !populated a then some nkAddr
  else none

/-- Does polder p's grant cover n bytes at address a (10 R346). -/
def granted (s : State) (p a n : Nat) (write : Bool) : Bool :=
  match (getPolder s p).cfg with
  | some c => c.grants.any (fun g => decide (g.base ≤ a) && decide (a + n ≤ g.base + g.size) && (!write || g.wr))
  | none => false

/-- May polder p make an access (10 R346): a physical one within its ranges, a paged one through a context of its own. -/
def polderMay (s : State) (p a n : Nat) (write paged : Bool) (ctx : Nat) : Bool :=
  if paged then (getCtx s ctx).polder.toNat == p else granted s p a n write

/-- May the source of a request make an access: the Nimmos ports always. -/
def mayAccess (s : State) (p : Packet) (a n : Nat) (write paged : Bool) : Bool :=
  if isNp p.src then true
  else
    match ownerOf s p.src with
    | some q => polderMay s q a n write paged p.ctx
    | none => false

/-- Granules that a list of addresses lies in. -/
def granCount (l : List Nat) : Nat := (l.map (· / 64)).eraseDups.length

/-- Transactions that the stream engines of MEC n hold (10 R358). -/
def seHeld (s : State) (n : Nat) : Nat :=
  (getMif s (mecId n)).outst.foldl (fun a o => a + (match o.use with
    | .seWrite _ _ k => k
    | .seRead _ _ _ l => granCount l
    | .seLeft _ k l => k + granCount l
    | _ => 0)) 0

/-- Granules that a DREAD or DWRITE touches: the tracker entries it needs (10 R344). -/
def reqEntries (p : Packet) : Nat :=
  let w := p.payload.headD 0
  (granules (8 * awAddr w) (8 * awWords w)).length

/-- Tracker entries of MEC n in use (10 R344): those of its engines, and of the requests it holds while their walk is on the ring. -/
def trkOf (s : State) (n : Nat) : Nat :=
  (s.ring.filter (fun m => m.walk && m.eng.isNone && m.origin == n)).foldl (fun a m => a + reqEntries m.pkt) (seHeld s n)

/-- Has MEC n k tracker entries free (10 R344). -/
def trkFree (s : State) (n k : Nat) : Bool := decide (trkOf s n + k ≤ 16384)

/-- MEC_TRK_HWM after k further entries. -/
def trackHwm (n k : Nat) (s : State) : State :=
  let t := trkOf s n + k
  modMec s n (fun m => if t > m.trkHwm.toNat then { m with trkHwm := BitVec.ofNat 15 t } else m)

/-- The granules of a list that fail their check: those known to, and the first of the others where the check bits say so now. -/
def failing (s : State) (gs : List Nat) (ecc : Ecc) : List Nat :=
  gs.filter (fun g => s.badGranules.contains g) ++
    (if ecc = .uncorrectable then (gs.filter (fun g => !s.badGranules.contains g)).take 1 else [])

/-- The granule in whose data slot an access finds an uncorrectable error (10 R364): the first of it. -/
def slotOf (gs : List Nat) (ecc : Ecc) : List Nat := if ecc = .slotBad then gs.take 1 else []

/-- An uncorrectable error of an access at granule g: of its read, or of its data slot (10 R363, R364). -/
def accessUe (slot : List Nat) (n g : Nat) (s : State) : State := if slot.contains g then mecUeAt n g s else mecUe n g s

/-- An uncorrectable error of granule g in a request at MEC n (10 R363). -/
def readUe (slot : List Nat) (n : Nat) (p : Packet) (g : Nat) (s : State) : State :=
  let s := accessUe slot n g s
  match ownerOf s p.src with
  | some q => ueFault q p.src (if awPaged (p.payload.headD 0) then some p.ctx else none) (64 * g) s
  | none => s

/-- Write words to DRAM: whole granules are good again (10 R347). -/
def dramWrite (n a : Nat) (ws : List W64) (s : State) : State :=
  let len := 8 * ws.length
  let parts := partGranules a len
  let gs := granules a len
  let s := { s with dram := wrN s.dram a (wordsBytes ws),
                    badGranules := s.badGranules.filter (fun g => !gs.contains g || parts.contains g) }
  modMec s n (fun m => { m with wr := addCnt m.wr gs.length })

/-- MEC n performs an access at physical address a: rows 5 to 9 of 10 R343. -/
def serveDram (n : Nat) (p : Packet) (a : Nat) (ecc : Ecc) (s : State) : State :=
  let w := p.payload.headD 0
  let write := p.op == opDwrite
  let paged := awPaged w
  let len := 8 * awWords w
  if !mayAccess s p a len write paged then
    nack p (mecId n) nkDike (modMec s n (fun m => { m with denys := incCnt m.denys, flags := setBit m.flags 3 }))
  else if !stackOn s (stackOf s a) then nack p (mecId n) nkOff s
  else
    let s := trackHwm n (granules a len).length s
    let reads := if write then partGranules a len else granules a len
    let s := modMec s n (fun m => { m with rd := addCnt m.rd reads.length })
    let bad := failing s reads ecc
    let slot := (slotOf (granules a len) ecc).filter (fun g => !bad.contains g)
    if !(slot ++ bad).isEmpty then nack p (mecId n) nkAddr (forEach (slot ++ bad) (readUe slot n p) s)
    else
      let s := eccNote n reads.length ecc s
      if write then reply p (mecId n) opAck 0 0 0 [] (dramWrite n a (p.payload.drop 1) s)
      else
        reply p (mecId n) opRdata (awWords w - 1) (awLand w) 0 (bytesWords (awWords w) (rdN s.dram a len)) s

/-! ## Translation (10 R348 to R352) -/

/-- Reasons of a page fault. -/
inductive PfReason where
  | range | invalid | readonly | frame | reserved | pteErr
  deriving DecidableEq, Repr

/-- The code of a reason in MEC_PF (10 R374). -/
def pfCode (r : PfReason) : Nat :=
  match r with | .range => 1 | .invalid => 2 | .readonly => 3 | .frame => 4 | .reserved => 5 | .pteErr => 6

/-- Page-table mirror of MEC n for a context: PT_BASE, PT_PAGES. -/
def mirrorOf (s : State) (n c : Nat) : Nat × Nat :=
  let m := mget (0, 0) (getMec s n).mirror c
  (m.1.toNat, m.2.toNat)

/-- Address of the entry of a page. -/
def pteAddr (base vpn : Nat) : Nat := base * 4096 + 8 * vpn

/-- What an entry gives (10 R350): the physical address, or the reason of a fault. -/
def pteCheck (pte : W64) (va : Nat) (write : Bool) : Except PfReason Nat :=
  if bitsOf pte.toNat 15 2 != 0 || bitsOf pte.toNat 63 41 != 0 then .error .reserved
  else if !pte.getLsbD 0 then .error .invalid
  else if write && !pte.getLsbD 1 then .error .readonly
  else
    let pa := bitsOf pte.toNat 40 16 * 65536 + va % 65536
    if populated pa then .ok pa else .error .frame

/-- A page fault (10 R352): the first since PF was cleared is recorded; PAGE_FAULT at most once per wafer tick. -/
def pageFault (n ctx va : Nat) (r : PfReason) (s : State) : State :=
  let m := getMec s n
  let rec_ := !bit m.flags 2
  let m' := { m with flags := setBit m.flags 2, pfRaised := true }
  let m' := if rec_ then { m' with pfVa := BitVec.ofNat 30 va, pfCtx := BitVec.ofNat 13 ctx,
                                   pfReason := BitVec.ofNat 3 (pfCode r), pfValid := true } else m'
  let s := setMec s n m'
  if m.pfRaised then s else raise 0x50 none (some ctx) none (va + 2 ^ 32 * pfCode r + 2 ^ 35 * n) s

/-- The cached entry of a page (10 R351). -/
def tlbFind (s : State) (n c vpn : Nat) : Option W64 :=
  ((getMec s n).tlb.find? (fun e => e.1 == c && e.2.1 == vpn)).map (fun e => e.2.2)

/-- Cache an entry: 4,096 entries, the oldest making room (log 12, DESIGN CHOICE). -/
def tlbPut (n c vpn : Nat) (pte : W64) (s : State) : State :=
  modMec s n (fun m =>
    let l := m.tlb ++ [(c, vpn, pte)]
    { m with tlb := if l.length > 4096 then l.drop 1 else l })

/-- Read a page-table entry at address pa on the MEC of its stack: the entry, or none where the read fails its check. -/
def pteRead (n pa : Nat) (ecc : Ecc) (s : State) : Option W64 × State :=
  if !populated pa || !stackOn s (stackOf s pa) then (none, s)
  else
    let s := modMec s n (fun m => { m with rd := incCnt m.rd })
    match failing s [pa / 64] ecc with
    | g :: _ => (none, mecUe n g s)
    | [] => (some (BitVec.ofNat 64 (rdLe s.dram pa 8)), eccNote n 1 ecc s)

/-- A translated request goes to the MEC of its stack, over the ring (10 R349, R340); `ecc` is that of its access where this
MEC serves it. -/
def forward (n : Nat) (p : Packet) (pa : Nat) (ecc : Ecc) (s : State) : State :=
  let k := stackOf s pa
  if k = n then serveDram n p pa ecc s
  else if targetOff s (mecId k) then nack p (mecId n) nkOff s
  else { s with ring := s.ring ++ [{ dest := k, reply := false, pkt := p, pa := pa, origin := n }] }

/-- MEC n answers a page fault of a request. -/
def faultReply (n : Nat) (p : Packet) (r : PfReason) (s : State) : State :=
  nack p (mecId n) nkAddr (pageFault n p.ctx (8 * awAddr (p.payload.headD 0) % 2 ^ 30) r s)

/-- The result of a walk at the translating MEC n: forwarded, or faulted. A walk that faults caches nothing, nor does one whose
context's translations have been dropped meanwhile (10 R351). -/
def walked (n : Nat) (p : Packet) (pte : Option W64) (cache : Bool) (ecc : Ecc) (s : State) : State :=
  let va := 8 * awAddr (p.payload.headD 0)
  match pte with
  | none => faultReply n p .pteErr s
  | some e =>
    match pteCheck e va (p.op == opDwrite) with
    | .error r => faultReply n p r s
    | .ok pa => forward n p pa ecc (if cache then tlbPut n p.ctx (va / 65536) e s else s)

/-- The entries that a translation of context c looks up and that fail their check (10 R364): a translation cache entry is dropped, a
mirror entry is loaded again from the context table. -/
def lookupCheck (n c vpn : Nat) (ecc : Ecc) (s : State) : State :=
  if ecc = .cacheBad then modMec s n (fun m => { m with tlb := m.tlb.filter (fun e => !(e.1 == c && e.2.1 == vpn)) })
  else if ecc = .mirrorBad then
    let x := getCtx s c
    modMec s n (fun m => { m with mirror := if x.ptPages = 0 then merase m.mirror c else mput m.mirror c (x.ptBase, x.ptPages) })
  else s

/-- MEC n translates a paged request (10 R349, R350). -/
def translate (n : Nat) (p : Packet) (ecc : Checks) (s : State) : State :=
  let va := 8 * awAddr (p.payload.headD 0)
  let vpn := va / 65536
  let s := lookupCheck n p.ctx vpn ecc.walk s
  let m := mirrorOf s n p.ctx
  if vpn ≥ m.2 then faultReply n p .range s
  else
    match tlbFind s n p.ctx vpn with
    | some e =>
      let s := modMec s n (fun m => { m with hits := incCnt m.hits })
      match pteCheck e va (p.op == opDwrite) with
      | .error r => faultReply n p r s
      | .ok pa => forward n p pa ecc.data s
    | none =>
      let s := modMec s n (fun m => { m with misses := incCnt m.misses })
      let pa := pteAddr m.1 vpn
      if !populated pa || targetOff s (mecId (stackOf s pa)) then faultReply n p .pteErr s
      else if stackOf s pa = n then
        let r := pteRead n pa ecc.walk s
        walked n p r.1 true ecc.data r.2
      else trackHwm n 0 { s with ring := s.ring ++ [{ dest := stackOf s pa, reply := false, pkt := p, pa := pa, origin := n, walk := true }] }

/-- MEC n takes its oldest request of an opcode, once it has the tracker entries and can inject the reply (10 R344). -/
def mecTake (n op : Nat) (ecc : Checks) (s : State) : Out :=
  if n ≥ 32 then .fault (.noSuchObject n)
  else
    match nextReq s (mecId n) op with
    | none => .next s
    | some p =>
      if replyWaits s (mecId n) || !trkFree s n (reqEntries p) then .next s
      else
      let s0 := s
      let s := orderRisk (mecId n) p (dropReq (mecId n) op s)
      match dramForm p with
      | some c => .next (nack p (mecId n) c (badOpVia s0 (mecId n) op c s))
      | none =>
        let w := p.payload.headD 0
        if awPaged w then .next (translate n p ecc s) else .next (serveDram n p (8 * awAddr w) ecc.data s)

/-- DREAD: MEC n takes its oldest DREAD. -/
def execDread (n : Nat) (ecc : Checks) (s : State) : Out := mecTake n opDread ecc s

/-- DWRITE: MEC n takes its oldest DWRITE. -/
def execDwrite (n : Nat) (ecc : Checks) (s : State) : Out := mecTake n opDwrite ecc s

/-- The first ring message of a class for MEC n, and the ring without it: messages between two MECs keep their order. -/
def takeRing (n : Nat) (isReply : Bool) : List RingMsg → Option (RingMsg × List RingMsg)
  | [] => none
  | m :: l => if m.dest = n && m.reply == isReply then some (m, l) else (takeRing n isReply l).map (fun r => (r.1, m :: r.2))

/-- RING_REQUEST: MEC n takes a forwarded request or a walk's read off the ring, once it has the tracker entries (10 R340, R349); one
whose quadrant domain is off takes none. -/
def execRingRequest (n : Nat) (ecc : Checks) (s : State) : Out :=
  if n ≥ 32 then .fault (.noSuchObject n)
  else
    match takeRing n false s.ring with
    | none => .next s
    | some (m, l) =>
      if targetOff s (mecId n) || !trkFree s n (if m.walk then 1 else reqEntries m.pkt) then .next s
      else
        let s := { s with ring := l }
        if m.walk then
          let r := pteRead n m.pa ecc.walk (trackHwm n 1 s)
          .next { r.2 with ring := r.2.ring ++
            [{ m with dest := m.origin, reply := true, ok := r.1.isSome, pte := r.1.getD 0 }] }
        else .next (serveDram n m.pkt m.pa ecc.data s)

/-! ## The page-table mirror and the translation cache (10 R351) -/

/-- Is context k the one whose translations are dropped, none meaning all. -/
def dropsCtx (c : Option Nat) (k : Nat) : Bool := match c with | some j => k == j | none => true

/-- Drop the translations of a context, or all, in every MEC; what a walk under way brings is not cached. -/
def tlbDrop (c : Option Nat) (s : State) : State :=
  { s with
    mecs := s.mecs.map (fun e => (e.1, { e.2 with tlb := e.2.tlb.filter (fun x => !dropsCtx c x.1) })),
    ses := s.ses.map (fun e => (e.1, { e.2 with got := e.2.got.filter (fun x => !dropsCtx c x.1) })),
    ring := s.ring.map (fun m => if m.walk && dropsCtx c m.pkt.ctx then { m with nocache := true } else m) }

/-- Write the mirror entry of a context in every MEC, dropping its translations. -/
def mirrorWrite (c : Nat) (base : BitVec 29) (pages : BitVec 15) (s : State) : State :=
  forEach (List.range 32) (fun n s => modMec s n (fun m =>
    { m with mirror := if pages = 0 then merase m.mirror c else mput m.mirror c (base, pages) })) (tlbDrop (some c) s)

/-- MEM_TLB_INV_CTX: one context's translations are dropped; BUSY reads 1 until the next base-clock period. -/
def execMemTlbInvCtx (h : Req) (c : Nat) (s : State) : Out :=
  if c ≥ 8192 then .fault (.noSuchObject c)
  else .next (complete h stOk [] { tlbDrop (some c) s with tlbBusy := true })

/-- MEM_TLB_INV_ALL. -/
def execMemTlbInvAll (h : Req) (s : State) : Out := .next (complete h stOk [] { tlbDrop none s with tlbBusy := true })

/-- Is every polder VACANT. -/
def allVacant (s : State) : Bool := s.polders.all (fun e => e.2.state == 0)

/-- DRAM as granule code v shows it: the stacks hold what they held, at the same offsets (10 R335). -/
def regranule (v : BitVec 2) (s : State) : State :=
  let t := { s with ilv := v }
  let at_ := fun a => stackAddr t (stackOf s a) (stackOffset s a)
  { t with dram := s.dram.foldl (fun d e => wr8 d (at_ e.1) e.2) [],
           badGranules := s.badGranules.foldl (fun l g => insertNat (at_ (64 * g) / 64) l) [] }

/-- The effect of a write of MEM_CFG: its status and the state (10 R335). -/
def memCfg (v : W32) (s : State) : Nat × State :=
  if !allVacant s then (stState, s)
  else if v.toNat % 4 = 3 then (stAddr, s)
  else (stOk, regranule (BitVec.ofNat 2 v.toNat) s)

/-- MEM_CFG_WRITE. -/
def execMemCfgWrite (h : Req) (v : W32) (s : State) : Out :=
  let r := memCfg v s
  .next (complete h r.1 [] r.2)

/-! ## Background work (10 R365 to R369) -/

/-- Does a foreground request wait at MEC n (10 R365 rank 3). -/
def foreground (s : State) (n : Nat) : Bool :=
  (nextReq s (mecId n) opDread).isSome || (nextReq s (mecId n) opDwrite).isSome || s.ring.any (fun m => m.dest == n && !m.reply)

/-- CALIBRATION_DUE: a pass of 32 steps falls due; its steps run in the next maintenance window (log 27, DEDUCED). -/
def execCalibrationDue (n : Nat) (s : State) : Out :=
  if n ≥ 32 then .fault (.noSuchObject n)
  else if !stackOn s n then .next s
  else .next (modMec s n (fun m => if m.calLeft = 0 then { m with calLeft := 32 } else m))

/-- A pass completes. -/
def calDone (s : State) (m : Mec) : Mec := { m with calLeft := 0, calTick := s.tick.count, tempCal := m.tempNow }

/-- CAL_LATE: 100 ms after the pass fell due its remaining steps run at once (10 R367). -/
def execCalLate (n : Nat) (s : State) : Out :=
  if n ≥ 32 then .fault (.noSuchObject n)
  else if (getMec s n).calLeft = 0 then .next s
  else .next (raise 0x52 none none none n (modMec s n (fun m => { calDone s m with flags := setBit m.flags 4 })))

/-- Granules of 4,096 B of stack offset in a stack (10 R332, R374). -/
def scrubGranules : Nat := 48 * 2 ^ 30 / 4096

/-- Granules the schedule of 24 hours asks for after t base-clock periods (10 R368), less those of the last second. -/
def scrubSchedule (t : Nat) : Nat := (t - 1700000000) * scrubGranules / (86400 * 1700000000)

/-- Granules scrubbed since reset. -/
def scrubbed (m : Mec) : Nat := m.scrubPasses.toNat * scrubGranules + m.scrubPos.toNat

/-- Is the scrub of a MEC more than 1 s behind its schedule. -/
def scrubBehind (s : State) (m : Mec) : Bool := decide (scrubbed m < m.scrubBase + scrubSchedule (s.now - m.scrubFrom))

/-- SCRUB_LATE shows in every MEC whose scrub has fallen behind (10 R368). -/
def scrubWatch (s : State) : State :=
  { s with mecs := s.mecs.map (fun e =>
      (e.1, if stackOn s e.1 && scrubBehind s e.2 then { e.2 with flags := setBit e.2.flags 5 } else e.2)) }

/-- The maintenance window at the end of a tick period has run the steps that were due (10 R366); SCRUB_LATE is looked at. -/
def calWindow (s : State) : State :=
  scrubWatch { s with mecs := s.mecs.map (fun e => (e.1, if e.2.calLeft > 0 then calDone s e.2 else e.2)) }

/-- The scrub's position after a granule. -/
def scrubNext (m : Mec) : Mec :=
  if m.scrubPos.toNat + 1 = scrubGranules then { m with scrubPos := 0, scrubPasses := satInc m.scrubPasses }
  else { m with scrubPos := m.scrubPos + 1 }

/-- The 64-byte granules of the granule of 4,096 B at stack offset o. -/
def scrubReads (s : State) (n o : Nat) : List Nat := (List.range 64).map (fun i => stackAddr s n (o + 64 * i) / 64)

/-- PATROL_SCRUB: the next granule of 4,096 B of stack n is read, 64 B of it from every pseudo-channel, so that any foreground request
that waits goes first unless the scrub has fallen behind (10 R365 ranks 2, 3, 5); which 64 B of it fail the spec leaves open (log 3,
DESIGN CHOICE). -/
def execPatrolScrub (n : Nat) (ecc : Ecc) (s : State) : Out :=
  if n ≥ 32 then .fault (.noSuchObject n)
  else if !stackOn s n || (foreground s n && !scrubBehind s (getMec s n)) then .next s
  else
    let m := getMec s n
    let gs := scrubReads s n (4096 * m.scrubPos.toNat)
    let s := modMec s n scrubNext
    let s := if scrubBehind s (getMec s n) then mecFlag n 5 s else s
    let s := forEach (gs.filter (fun g => s.badGranules.contains g)) (fun g s => mecUe n g s) s
    match ecc with
    | .uncorrectable =>
      let r := takeFree s
      .next (mecUe n (gs.getD (r.1.toNat % 64) 0) r.2)
    | e => .next (eccNote n 64 e s)

/-- Has the stack's temperature moved 5 °C from its value at the last pass (10 R367). -/
def tempMoved (m : Mec) : Bool := decide (m.tempNow.toNat ≥ m.tempCal.toNat + 5) || decide (m.tempCal.toNat ≥ m.tempNow.toNat + 5)

/-- The temperature of stack n is read; a move of 5 °C makes a calibration pass due (R367). -/
def tempRead (n t : Nat) (s : State) : State :=
  modMec s n (fun m =>
    let m := { m with tempNow := BitVec.ofNat 8 t, tempMax := BitVec.ofNat 8 (max m.tempMax.toNat (t % 256)) }
    if tempMoved m then { m with calLeft := 32 } else m)

/-- A refresh of stack n, with its temperature readout (10 R365): a free value. -/
def refreshed (n : Nat) (s : State) : State :=
  let (w, s) := takeFree s
  tempRead n (w.toNat % 256) (modMec s n (fun m => { m with refreshes := m.refreshes + 1 }))

/-- The stack's temperature and its on-die error reports are read (10 R369); no register of R374 shows the reports. -/
def mecTelemetry (n : Nat) (t : Telemetry) (s : State) : State :=
  modMec (tempRead n t.temp s) n (fun m => { m with odEcc := BitVec.ofNat 64 t.od })

/-! ## What a command finds of a range -/

/-- The stacks that hold a byte of a range. -/
def stacksOf (s : State) (a n : Nat) : List Nat :=
  if n = 0 then []
  else (List.range (min 32 ((a + n - 1) / granule s - a / granule s + 1))).map (fun i => (a / granule s + i) % 32)

/-- Is a stack of a range off. -/
def rangeOff (s : State) (a n : Nat) : Bool := (stacksOf s a n).any (fun k => !stackOn s k)

/-- The first granule of a range that fails its check. -/
def badIn (s : State) (a n : Nat) : Option Nat := (granules a n).find? (fun g => s.badGranules.contains g)

end Sys2Proof.Machine
end

