-- ==== Sys2Proof/Machine/Se.lean ====
section
/-! DEFINITION. Stream engines (10 R353 to R361, R375). Readings: log 44, DEDUCED. -/

namespace Sys2Proof.Machine

open Sys2Proof

/-! ## The list of a frame -/

/-- The descriptor in progress. -/
def seDesc (x : Se) : Option SeDesc := x.cfg[x.desc]?

/-- Key of an iteration among those begun. -/
def seKey (desc iter : Nat) : Nat := 65536 * desc + iter

/-- An engine that starts its list: SE_STAT but LATE and the assignment returns to reset (10 R375). -/
def seFresh (x : Se) : Se :=
  { x with running := true, desc := 0, iter := 0, err := false, code := 0, pf := false, batchSent := false, batchOk := false,
           listN := none, list := [], gateSent := false, gateOk := false, row := 0, off := 0, openIts := [], halted := false,
           walk := none, got := [] }

/-- What a list that has ended leaves of a request of engine e: a WRITE or READ completes (10 R359), a SYNC or a read of the batch list is
given up; those of the iterations `keep`, which still may signal, and their DONE signals stay. -/
def seOrphan (e : Nat) (keep : Option (List Nat)) (o : Outst) : Option Outst :=
  let kept := fun (it : Nat) => match keep with | some l => l.contains it | none => false
  match o.use with
  | .seWrite k it n => some (if k = e && !kept it then { o with use := .seLeft e n [] } else o)
  | .seRead k it _ l => some (if k = e && !kept it then { o with use := .seLeft e 0 l } else o)
  | .seList k _ => if k = e then none else some o
  | .seSync k gate batch => if k = e && (gate || batch || keep.isNone) then none else some o
  | _ => some o

/-- The list of engine e no longer awaits its requests, those of the iterations `keep` apart. -/
def seForget (e : Nat) (keep : Option (List Nat)) (s : State) : State :=
  modMif s (mecId (e / 16)) (fun m => { m with outst := m.outst.filterMap (seOrphan e keep) })

/-- A list whose last descriptor is done and whose iterations have all signalled is complete (R359, R375); after it, or after one that
an error has ended (R360), the list of the next frame that has come meanwhile starts. -/
def seSettle (e : Nat) (s : State) : State :=
  let x := getSe s e
  let x := if x.running && decide (x.desc ≥ x.cfg.length) && x.openIts.isEmpty then { x with running := false, lists := incCnt x.lists } else x
  if !x.running && x.openIts.isEmpty && decide (x.again > 0) then seForget e none (setSe s e { seFresh x with again := x.again - 1 })
  else setSe s e x

/-- The list of engine e starts, or is to start after the previous frame's (10 R359); one that an abrupt halt has stopped goes on
first where its frame was lost (log 48, DESIGN CHOICE). -/
def seStart (e : Nat) (s : State) : State :=
  let x := getSe s e
  if x.running || !x.openIts.isEmpty then
    setSe s e { x with late := true, lateCnt := incCnt x.lateCnt, again := x.again + 1, halted := false }
  else seSettle e (seForget e none (setSe s e (seFresh x)))

/-- The engines assigned to polder p. -/
def enginesOf (s : State) (p : Nat) : List Nat := (s.ses.filter (fun e => e.2.assigned && e.2.owner.toNat == p)).map (·.1)

/-- Frame-start tick. -/
def seFrame (p : Nat) (s : State) : State := forEach (enginesOf s p) seStart s

/-- Start of a replayed frame: every list afresh. -/
def seReplay (p : Nat) (s : State) : State :=
  forEach (enginesOf s p) (fun e s => seSettle e (modSe (seForget e none s) e (fun x => { seFresh x with again := 0 }))) s

/-- Abrupt halt: no new read or WRITE. -/
def seHalt (p : Nat) (s : State) : State := forEach (enginesOf s p) (fun e s => modSe s e (fun x => { x with halted := true })) s

/-- POLDER_RESET, activation and POLDER_RELEASE: the list is abandoned. -/
def seAbandon (p : Nat) (s : State) : State :=
  forEach (enginesOf s p) (fun e s => modSe (seForget e none s) e (fun x => { seFresh x with running := false, again := 0 })) s

/-- An engine with an assignment or none; LATE, SE_LATE and SE_LISTS stay (10 R375). -/
def seWith (p : Nat) (on : Bool) (cfg : List SeDesc) (depth : Nat) (x : Se) : Se :=
  { owner := BitVec.ofNat 8 p, assigned := on, cfg := cfg, pfdepth := depth, late := x.late, lateCnt := x.lateCnt, lists := x.lists }

/-- The engines of polder p are no longer assigned. -/
def seRelease (p : Nat) (s : State) : State :=
  forEach (enginesOf s p) (fun e s => modSe s e (seWith 0 false [] 0)) (seAbandon p s)

/-- The engines a configuration assigns to polder p (10 R353). -/
def seAssign (p : Nat) (l : List SeRec) (s : State) : State :=
  forEach l (fun r s => modSe s r.engine (seWith p true r.descs r.pfdepth)) (seRelease p s)

/-- An error ends the list for its frame, and no other's (10 R360): iterations begun before the failing one may still signal. -/
def seError (e key code : Nat) (pf : Bool) (s : State) : State :=
  let x := getSe s e
  if x.err then s
  else
    let keep := x.openIts.takeWhile (fun k => k != key)
    let s := seForget e (some keep) (setSe s e
      { x with err := true, code := BitVec.ofNat 5 (if pf then 0 else code), pf := pf, running := false, walk := none, got := [], openIts := keep })
    seSettle e (raise 0x53 (some x.owner.toNat) none none (e + 2 ^ 9 * (if pf then 0 else code) + 2 ^ 14 * b2n pf) s)

/-! ## Addresses of an iteration (10 R355) -/

/-- Context and SEQ_POS of iteration i. -/
def seCtx (x : Se) (d : SeDesc) (i : Nat) : Nat × Nat := if d.ctxsel then x.list.getD i (0, 0) else (d.ctx, 0)

/-- Bytes of a row in the unit. -/
def seRowBytes (d : SeDesc) : Nat := d.padl + d.rowb + d.padr

/-- Unit address of byte off of row `row` of iteration i. -/
def seUnitAddr (d : SeDesc) (i row off : Nat) : Nat :=
  d.uaddr + (if d.ubufs = 0 then i else i % d.ubufs) * d.ubstride + row / d.rows * d.upstride + row % d.rows * d.urstride + off

/-- DRAM address of byte off of a row; none: a zero byte (padding, or a row at or beyond rl). -/
def seDramAddr (d : SeDesc) (pos i row off : Nat) : Option Int :=
  let r := row % d.rows
  let rl := if d.rowsel = 2 then min pos d.rows else d.rows
  if off < d.padl || off ≥ d.padl + d.rowb || r ≥ rl then none
  else
    let r0 := if d.rowsel = 1 then pos else 0
    some ((d.dbase : Int) + (i : Int) * d.bstride + ((row / d.rows : Nat) : Int) * d.pstride + ((r0 + r : Nat) : Int) * d.rstride +
      ((off - d.padl : Nat) : Int))

/-- The next row and byte after word (row, off). -/
def seNext (d : SeDesc) (row off : Nat) : Nat × Nat := if off + 8 ≥ seRowBytes d then (row + 1, 0) else (row, off + 8)

/-- The words of the next WRITE or READ from (row, off): contiguous in the unit and within one 256 B block; each with its DRAM
address. Answers also where the next one starts. -/
def seChunk (d : SeDesc) (pos i : Nat) : Nat → Nat → Nat → List (Option Int) × Nat × Nat
  | 0, row, off => ([], row, off)
  | n + 1, row, off =>
    let a := seUnitAddr d i row off
    let nx := seNext d row off
    let w := seDramAddr d pos i row off
    if nx.1 < d.rows * d.planes && seUnitAddr d i nx.1 nx.2 = a + 8 && (a + 8) % 256 != 0 then
      let r := seChunk d pos i n nx.1 nx.2
      (w :: r.1, r.2)
    else ([w], nx)

/-- The next WRITE or READ from (row, off): the longest chunk whose words lie in at most `pf` granules of DRAM (10 R358). -/
def seChunkFit (d : SeDesc) (pos i pf row off : Nat) : List (Option Int) × Nat × Nat :=
  let fits := fun (c : List (Option Int) × Nat × Nat) => decide (granCount ((c.1.filterMap id).map Int.toNat) ≤ pf)
  (((List.range 31).map (fun k => seChunk d pos i (32 - k) row off)).find? fits).getD (seChunk d pos i 1 row off)

/-! ## The walker of an engine (10 R349, R350) -/

/-- Why an engine's access does not go on: it fails with a code or a page fault at a virtual address, or its walk is under way. -/
inductive SeFail where
  | code (k : Nat)
  | fault (r : PfReason) (va : Nat)
  | wait
  deriving DecidableEq, Repr

/-- The page of virtual address va by its entry: address of the frame. -/
def sePage (pte : W64) (va : Nat) (write : Bool) : Except SeFail Nat :=
  match pteCheck pte (va / 65536 * 65536) write with
  | .ok f => .ok f
  | .error r => .error (.fault r va)

/-- Keep an entry for the words about to be moved. -/
def seGot (e c vpn : Nat) (pte : W64) (s : State) : State := modSe s e (fun x => { x with got := x.got ++ [(c, vpn, pte)] })

/-- An engine's walk for virtual address va of context c in its own MEC: in the stack of the MEC at once, else over the ring (10 R340,
R349). -/
def seWalk (e c va : Nat) (write : Bool) (ecc : Ecc) (s : State) : Except SeFail Nat × State :=
  let n := e / 16
  let s := modMec s n (fun m => { m with misses := incCnt m.misses })
  let pa := pteAddr (mirrorOf s n c).1 (va / 65536)
  if !populated pa || targetOff s (mecId (stackOf s pa)) then (.error (.fault .pteErr va), s)
  else if stackOf s pa = n then
    let r := pteRead n pa ecc s
    match r.1 with
    | none => (.error (.fault .pteErr va), r.2)
    | some g =>
      match sePage g va write with
      | .error x => (.error x, r.2)
      | .ok f => (.ok f, seGot e c (va / 65536) g (tlbPut n c (va / 65536) g r.2))
  else
    let p : Packet := { src := mecId n, dest := mecId (stackOf s pa), op := opDread, ctx := c, payload := [addressWord (va / 8) true 1 0] }
    (.error .wait, modSe { s with ring := s.ring ++ [{ dest := stackOf s pa, reply := false, pkt := p, pa := pa, origin := n, walk := true, eng := some e }] }
      e (fun x => { x with walk := some (c, va) }))

/-- Translate the page of virtual address va of context c for engine e: the frame's address, what `ecc` still has to show, the state. -/
def seTranslate (e c va : Nat) (write : Bool) (ecc : Ecc) (s : State) : Except SeFail Nat × Ecc × State :=
  let n := e / 16
  let vpn := va / 65536
  match (getSe s e).got.find? (fun g => g.1 == c && g.2.1 == vpn) with
  | some g => (sePage g.2.2 va write, ecc, s)
  | none =>
    let s := lookupCheck n c vpn ecc s
    if vpn ≥ (mirrorOf s n c).2 then (.error (.fault .range va), .clean, s)
    else
      match tlbFind s n c vpn with
      | some g => (sePage g va write, ecc, seGot e c vpn g (modMec s n (fun m => { m with hits := incCnt m.hits })))
      | none => let r := seWalk e c va write ecc s; (r.1, .clean, r.2)

/-- Translate the first virtual address in each page of a list: page and frame address. -/
def sePages (e c : Nat) (write : Bool) : List Nat → Ecc → State → Except SeFail (List (Nat × Nat)) × Ecc × State
  | [], ecc, s => (.ok [], ecc, s)
  | v :: vs, ecc, s =>
    let r := seTranslate e c v write ecc s
    match r.1 with
    | .error x => (.error x, r.2)
    | .ok f =>
      let t := sePages e c write vs r.2.1 r.2.2
      match t.1 with
      | .error x => (.error x, t.2)
      | .ok l => (.ok ((v / 65536, f) :: l), t.2)

/-- The first address of a list in each page. -/
def firstInPage (l : List Nat) : List Nat :=
  (l.foldl (fun a v => if a.any (fun w => w / 65536 == v / 65536) then a else v :: a) []).reverse

/-- The physical addresses of a list of word addresses of descriptor d in context c for engine e of polder p, all checks passed (10
R343, R346). -/
def seResolve (e p : Nat) (d : SeDesc) (c : Nat) (l : List Int) (ecc : Ecc) (s : State) : Except SeFail (List Nat) × Ecc × State :=
  if d.paged then
    match l.find? (fun a => decide (a < 0) || decide (a ≥ 2 ^ 30)) with
    | some a => (.error (.fault .range (a % 2 ^ 30).toNat), ecc, s)
    | none =>
      let vs := l.map Int.toNat
      let r := sePages e c d.store (firstInPage vs) ecc s
      match r.1 with
      | .error x => (.error x, r.2)
      | .ok pages =>
        let pas := vs.map (fun v => mget 0 pages (v / 65536) + v % 65536)
        if !polderMay r.2.2 p 0 8 d.store true c then (.error (.code nkDike), r.2)
        else if pas.any (fun a => !stackOn r.2.2 (stackOf r.2.2 a)) then (.error (.code nkOff), r.2)
        else (.ok pas, r.2)
  else if l.any (fun a => decide (a < 0) || !populated a.toNat) then (.error (.code nkAddr), ecc, s)
  else
    let pas := l.map Int.toNat
    if pas.any (fun a => !polderMay s p a 8 d.store false 0) then (.error (.code nkDike), ecc, s)
    else if pas.any (fun a => !stackOn s (stackOf s a)) then (.error (.code nkOff), ecc, s)
    else (.ok pas, ecc, s)

/-! ## An iteration (10 R355 to R358) -/

/-- Read the words at physical addresses: a granule that fails its check, or whose data slot does, reads as zero, and its error is handled (10
R360, R363, R364). -/
def seReadWords (e : Nat) (ctx : Option Nat) (d : SeDesc) (pas : List Nat) (ecc : Ecc) (s : State) : List W64 × State :=
  let gs := (pas.map (· / 64)).eraseDups
  let bad := failing s gs ecc
  let slot := (slotOf gs ecc).filter (fun g => !bad.contains g)
  let s := forEach gs (fun g s => modMec s (stackOf s (64 * g)) (fun m => { m with rd := incCnt m.rd })) s
  let s := match gs with | g :: _ => if bad.isEmpty then eccNote (stackOf s (64 * g)) gs.length ecc s else s | [] => s
  let ws := pas.map (fun a => if (slot ++ bad).contains (a / 64) then (0 : W64) else BitVec.ofNat 64 (rdLe s.dram a 8))
  (ws, forEach (slot ++ bad) (fun g s => ueFault (getSe s e).owner.toNat d.unit ctx (64 * g) (accessUe slot (stackOf s (64 * g)) g s)) s)

/-- The words of a LOAD's WRITE, zero words between the ones read. -/
def seFill : List (Option Int) → List W64 → List W64
  | [], _ => []
  | none :: l, ws => 0 :: seFill l ws
  | some _ :: l, w :: ws => w :: seFill l ws
  | some _ :: l, [] => 0 :: seFill l []

/-- What an access of engine e that does not go on comes to: one refused under R346 shows in MEC_FLAGS.DENY and MEC_DENYS (10 R374). -/
def seFailed (e key c : Nat) (x : SeFail) (s : State) : State :=
  match x with
  | .code k =>
    let n := e / 16
    seError e key k false (if k = nkDike then modMec s n (fun m => { m with denys := incCnt m.denys, flags := setBit m.flags 3 }) else s)
  | .fault r va => seError e key 0 true (pageFault (e / 16) c va r s)
  | .wait => s

/-- The iteration in progress has issued its last transaction: the next iteration, or the next descriptor (10 R358). -/
def seAdvance (count : Nat) (x : Se) : Se :=
  let x := { x with row := 0, off := 0, gateSent := false, gateOk := false }
  if x.iter + 1 < count then { x with iter := x.iter + 1 }
  else { x with desc := x.desc + 1, iter := 0, batchSent := false, batchOk := false, listN := none }

/-- Iterations of the descriptor in progress. -/
def seCount (x : Se) (d : SeDesc) : Nat := if d.ctxsel then x.listN.getD 0 else 1

/-- Transactions an engine holds (10 R358, SE_OUT). -/
def seTrans (s : State) (e : Nat) : Nat :=
  (getMif s (mecId (e / 16))).outst.foldl (fun a o => a + (match o.use with
    | .seWrite k _ n => if k = e then n else 0
    | .seRead k _ _ l => if k = e then granCount l else 0
    | .seLeft k n l => if k = e then n + granCount l else 0
    | _ => 0)) 0

/-- Has the MEC of engine e room for one more request: it never has more than 4,095 outstanding (10 R358). -/
def seRoom (s : State) (e : Nat) : Bool := decide ((getMif s (mecId (e / 16))).outst.length < 4095)

/-- Move the rows of the iteration in progress, one WRITE or READ after another, as far as PFDEPTH, the tracker entries of its MEC and the
request space allow and translations are at hand (10 R344, R355, R358); `ecc` is what the checks of the first of them show (log 11, DESIGN
CHOICE). -/
def seMove (e : Nat) : Nat → Checks → State → State
  | 0, _, s => s
  | fuel + 1, ecc, s =>
    let x := getSe s e
    let n := e / 16
    match seDesc x with
    | none => s
    | some d =>
      let cp := seCtx x d x.iter
      let key := seKey x.desc x.iter
      let ch := seChunkFit d cp.2 x.iter x.pfdepth x.row x.off
      let addrs := ch.1.filterMap id
      let k := granCount (addrs.map Int.toNat)
      if !(decide (seTrans s e + k ≤ x.pfdepth) && trkFree s n k && seRoom s e) then s
      else
        let r := seResolve e x.owner.toNat d cp.1 addrs ecc.walk s
        match r.1 with
        | .error f => seFailed e key cp.1 f r.2.2
        | .ok pas =>
          let s := modSe r.2.2 e (fun x => { x with got := [] })
          let u := seUnitAddr d x.iter x.row x.off
          let pc := if d.paged then some cp.1 else none
          let s :=
            if d.store then
              request (mecId n) { src := mecId n, dest := d.unit, op := opRead, len := pas.length - 1, daddr := u / 8, ctx := cp.1 }
                (.seRead e key pc pas) s
            else
              let w := seReadWords e pc d pas ecc.data s
              let ws := seFill ch.1 w.1
              request (mecId n) { src := mecId n, dest := d.unit, op := opWrite, len := ws.length - 1, daddr := u / 8, ctx := cp.1,
                                  payload := ws } (.seWrite e key (granCount pas)) w.2
          let s := trackHwm n 0 s
          if ch.2.1 ≥ d.rows * d.planes then modSe s e (seAdvance (seCount x d))
          else seMove e fuel { walk := .clean, data := .clean } (modSe s e (fun x => { x with row := ch.2.1, off := ch.2.2 }))

/-- Is iteration i gated, and the value its object must have reached (10 R357). -/
def seGate (d : SeDesc) (i : Nat) : Option Nat :=
  if !d.gateEn then none
  else if d.ubufs = 0 then some (d.gateVal + i)
  else if i ≥ d.ubufs then some (d.gateVal + i - d.ubufs + 1)
  else none

/-- A SYNC of an engine. -/
def seSyncReq (e obj v sop : Nat) (gate batch : Bool) (s : State) : State :=
  request (mecId (e / 16)) (syncPacket (mecId (e / 16)) obj v sop 0) (.seSync e gate batch) s

/-- Low 32 bits of the frame counter of an engine's polder (10 R356). -/
def seFrameNo (s : State) (x : Se) : Nat :=
  let p := getPolder s x.owner.toNat
  (match p.frame with | some f => f.num | none => p.frames).toNat % 2 ^ 32

/-- The batch list's place: unit and byte offset (02 R87). -/
def batchPlace (s : State) (p : Nat) : Nat × Nat :=
  match (getPolder s p).cfg with | some c => (c.batchMu, c.batchOff) | none => (0, 0)

/-- READ n words of the batch list from word k. -/
def seListRead (e k n : Nat) (s : State) : State :=
  let b := batchPlace s (getSe s e).owner.toNat
  request (mecId (e / 16)) { src := mecId (e / 16), dest := b.1, op := opRead, len := n - 1, daddr := b.2 / 8 + k } (.seList e k) s

/-- Is a READ of the batch list under way. -/
def seListOut (s : State) (e : Nat) : Bool :=
  (getMif s (mecId (e / 16))).outst.any (fun o => match o.use with | .seList k _ => k == e | _ => false)

/-- What a descriptor with CTXSEL = 1 still does before its iterations (10 R356): it waits for the batch, then reads the list; none:
nothing. The batch of a polder whose maximum batch is 0 is empty without either (02 R85). -/
def seBatch (e : Nat) (x : Se) (c : Option PolderCfg) (s : State) : Option State :=
  if (c.getD {}).maxBatch = 0 then none
  else if !x.batchOk then
    some (if x.batchSent || !seRoom s e then s
      else modSe (seSyncReq e (c.getD {}).batchSync (seFrameNo s x) 4 false true s) e (fun x => { x with batchSent := true }))
  else
    match x.listN with
    | none => some (if seListOut s e || !seRoom s e then s else seListRead e 0 2 s)
    | some n =>
      if x.list.length < n then
        some (if seListOut s e || !seRoom s e then s else seListRead e (2 + x.list.length) (min (n - x.list.length) 32) s)
      else none

/-- SE_ITERATION: an engine starts its next iteration once its batch list and its gate allow, and moves its rows. -/
def execSeIteration (r : EngineRun) (s : State) : Out :=
  let e := r.engine
  if e ≥ 512 then .fault (.noSuchObject e)
  else
    let x := getSe s e
    if !x.running || x.halted || x.walk.isSome || targetOff s (mecId (e / 16)) then .next s
    else
      match seDesc x with
      | none => .next (seSettle e s)
      | some d =>
        match (if d.ctxsel then seBatch e x (getPolder s x.owner.toNat).cfg s else none) with
        | some t => .next t
        | none =>
          if seCount x d = 0 then .next (seSettle e (modSe s e (seAdvance 0)))
          else
            match (if x.gateOk then none else seGate d x.iter) with
            | some v =>
              if x.gateSent || !seRoom s e then .next s
              else .next (modSe (seSyncReq e d.gateObj v 3 true false s) e (fun x => { x with gateSent := true }))
            | none =>
              let key := seKey x.desc x.iter
              let s := modSe s e (fun x => { x with openIts := if x.openIts.contains key then x.openIts else x.openIts ++ [key] })
              .next (seMove e 4096 r.ecc s)

/-- The result of engine e's walk has come over the ring (10 R349, R351). -/
def seWalked (e : Nat) (m : RingMsg) (s : State) : State :=
  let x := getSe s e
  let vpn := awAddr (m.pkt.payload.headD 0) / 8192
  match x.walk with
  | none => s
  | some (c, va) =>
    if c != m.pkt.ctx || va / 65536 != vpn then s
    else
      let s := modSe s e (fun x => { x with walk := none })
      let store := match seDesc x with | some d => d.store | none => false
      if !m.ok then seFailed e (seKey x.desc x.iter) c (.fault .pteErr va) s
      else
        let good := match sePage m.pte va store with | .ok _ => true | .error _ => false
        seGot e c vpn m.pte (if good && !m.nocache then tlbPut (e / 16) c vpn m.pte s else s)

/-- RING_REPLY: the result of a walk's read reaches the translating MEC, or the engine of the MEC whose walk it is. -/
def execRingReply (r : RingAt) (s : State) : Out :=
  if r.mec ≥ 32 then .fault (.noSuchObject r.mec)
  else
    match takeRing r.mec true s.ring with
    | none => .next s
    | some (m, l) =>
      let s := { s with ring := l }
      match m.eng with
      | some e => .next (seWalked e m s)
      | none => .next (walked r.mec m.pkt (if m.ok then some m.pte else none) (!m.nocache) r.ecc s)

/-- Has iteration key of engine e a transaction outstanding. -/
def seBusy (s : State) (e key : Nat) : Bool :=
  (getMif s (mecId (e / 16))).outst.any (fun o => match o.use with
    | .seWrite k it _ => k == e && it == key
    | .seRead k it _ _ => k == e && it == key
    | _ => false)

/-- SE_ITERATION_DONE: the first iteration of engine e whose transactions have all completed signals its DONE (10 R357). -/
def execSeIterationDone (e : Nat) (s : State) : Out :=
  if e ≥ 512 then .fault (.noSuchObject e)
  else
    let x := getSe s e
    let present := x.running && decide (x.desc < x.cfg.length)
    match x.openIts.find? (fun k => !(present && k == seKey x.desc x.iter) && !seBusy s e k) with
    | none => .next s
    | some k =>
      let done := match x.cfg[k / 65536]? with | some d => if d.doneEn then some d.doneObj else none | none => none
      if done.isSome && !seRoom s e then .next s
      else
        let s := modSe s e (fun x => { x with openIts := x.openIts.filter (fun j => j != k) })
        .next (seSettle e (match done with | some o => seSyncReq e o 1 0 false false s | none => s))

/-! ## Replies to an engine (10 R356 to R360) -/

/-- Words of the batch list have arrived. -/
def seListData (e k : Nat) (ws : List W64) (s : State) : State :=
  modSe s e (fun x =>
    if k = 0 then { x with listN := some (bitsOf (ws.getD 1 0).toNat 15 0), list := [] }
    else { x with list := x.list ++ ws.map (fun w => (bitsOf w.toNat 12 0, bitsOf w.toNat 63 32)) })

/-- A wait of an engine is satisfied. -/
def seWsat (e : Nat) (gate batch : Bool) (s : State) : State :=
  modSe s e (fun x =>
    let x := if gate then { x with gateOk := true } else x
    if batch then { x with batchOk := true, listN := none, list := [] } else x)

/-- The words of a STORE have arrived: written to DRAM granule by granule; a partly written granule whose read fails its check, or one whose
data slot does, ends the list (10 R343, R347, R364), as does one whose stack has gone off since (R372). `key`: the iteration, none once its
list has been abandoned. -/
def seStore (e : Nat) (key : Option Nat) (ctx : Option Nat) (pas : List Nat) (ws : List W64) (ecc : Ecc) (s : State) : State :=
  let prs := pas.zip ws
  let gs := (pas.map (· / 64)).eraseDups
  let parts := gs.filter (fun g => (prs.filter (fun x => x.1 / 64 == g)).length != 8 && stackOn s (stackOf s (64 * g)))
  let bad := failing s parts ecc
  let slot := (slotOf gs ecc).filter (fun g => !bad.contains g)
  let s := match parts with | g :: _ => if bad.isEmpty then eccNote (stackOf s (64 * g)) parts.length ecc s else s | [] => s
  let ends := fun (code : Nat) (s : State) => match key with | some k => seError e k code false s | none => s
  forEach gs (fun g s =>
    let mine := prs.filter (fun x => x.1 / 64 == g)
    let n := stackOf s (64 * g)
    if !stackOn s n then ends nkOff s
    else
      let s := if parts.contains g then modMec s n (fun m => { m with rd := incCnt m.rd }) else s
      if (slot ++ bad).contains g then
        ends nkAddr (ueFault (getSe s e).owner.toNat (mecId (e / 16)) ctx (64 * g) (accessUe slot n g s))
      else
        let s := { s with dram := mine.foldl (fun d x => wrN d x.1 (toLe 8 x.2.toNat)) s.dram,
                          badGranules := s.badGranules.filter (fun h => h != g) }
        modMec s n (fun m => { m with wr := incCnt m.wr })) s

/-- A request of an engine ends with a NACK or TIMEOUT (10 R360). -/
def seNack (e : Nat) (use : Use) (code : Nat) (s : State) : State :=
  let x := getSe s e
  let key := match use with
    | .seWrite _ k _ => k
    | .seRead _ k _ _ => k
    | _ => seKey x.desc x.iter
  seError e key code false s

end Sys2Proof.Machine
end

