-- ==== Sys2Proof/Machine/Span.lean ====
section
/-! DEFINITION. Span ports (13): windows, relays, span routing, the span ring, the span link, fallback and sluice mode. Readings: log 44,
DEDUCED. -/

namespace Sys2Proof.Machine

open Sys2Proof

/-! ## Flags and state of a port -/

/-- Set a flag of SP_FLAGS. -/
def spFlag (p i : Nat) (s : State) : State := modSpan s p (fun x => { x with flags := setBit x.flags i })

/-- Is the link of span port p UP. -/
def spanUp (s : State) (p : Nat) : Bool := (getSpan s p).st == 2

/-- Is the domain of span port p on. -/
def spanPowered (s : State) (p : Nat) : Bool := domOn s (96 + p / 4)

/-- Apply f to the span registers. -/
def modSpanCfg (s : State) (f : Span → Span) : State := { s with span := f s.span }

/-- Own wafer ID. -/
def ownWafer (s : State) : Nat := s.span.waferId.toNat

/-- The span ports that are UP. -/
def upSpans (s : State) : List Nat := (List.range 16).filter (spanUp s)

/-! ## Sending on a link (13 R442) -/

/-- Words of buffer that a packet takes: its tag, its two head flits and its payload. -/
def spanWords (k : SpanPkt) : Nat := 3 + k.pkt.payload.length

/-- Does the port have credit and replay room for a packet. -/
def spanRoom (x : SpanPort) (k : SpanPkt) : Bool :=
  decide (x.tx.length < 2048) && decide (spanWords k ≤ (if k.reply then x.creditRpl else x.creditReq))

/-- Put a packet in a DATA frame. -/
def spanFrame (k : SpanPkt) (x : SpanPort) : SpanPort :=
  let x := { x with tx := x.tx ++ [(x.txNext, SpanFrame.data [k])], txNext := x.txNext + 1 }
  if k.reply then { x with creditRpl := x.creditRpl - spanWords k } else { x with creditReq := x.creditReq - spanWords k }

/-- REACH frames that wait leave as far as the replay buffer, of 2,048 frames, has room (12 R410). -/
def reachDrain (x : SpanPort) : SpanPort :=
  let l := x.reachQ.take (2048 - x.tx.length)
  { x with reachQ := x.reachQ.drop l.length, txNext := x.txNext + BitVec.ofNat 32 l.length,
           tx := x.tx ++ (List.range l.length).map (fun i => (x.txNext + BitVec.ofNat 32 i, SpanFrame.reach (l.getD i (0, 0)).1 (l.getD i (0, 0)).2)) }

/-- Send what waits: the first packet of each class goes as soon as its credit allows, so that a reply never waits for a
request's buffer (13 R448). -/
def spanDrain : Nat → SpanPort → SpanPort
  | 0, x => x
  | n + 1, x =>
    match (x.outq.filter (fun k => !k.reply)).head?, (x.outq.filter (fun k => k.reply)).head? with
    | some k, r =>
      if spanRoom x k then spanDrain n (spanFrame k { x with outq := x.outq.erase k })
      else match r with
        | some k => if spanRoom x k then spanDrain n (spanFrame k { x with outq := x.outq.erase k }) else x
        | none => x
    | none, some k => if spanRoom x k then spanDrain n (spanFrame k { x with outq := x.outq.erase k }) else x
    | none, none => x

/-- Send a packet on the link of port q. -/
def spanSend (q : Nat) (k : SpanPkt) (s : State) : State :=
  modSpan s q (fun x => spanDrain (x.outq.length + 1) { x with outq := x.outq ++ [k] })

/-! ## Routing (13 R447, R448) -/

/-- The code of a span packet, and whether it is that of a fallen-back entry. -/
def spanCode (s : State) (dw : Nat) : Nat × Bool :=
  let e := s.span.table.getD dw {}
  if e.fell then (e.alt.toNat, true) else (e.pri.toNat, false)

/-- A message enters the span ring at port p for port c (13 R441): the shorter way, clockwise where both are equal; ports are numbered clockwise
(00 R7). -/
def ringPut (p c : Nat) (k : SpanPkt) (s : State) : State :=
  let m : SpanRing := { pkt := k, pos := p, port := c, cw := decide ((c + 16 - p) % 16 ≤ 8), left := 2 }
  modSpanCfg s (fun x => if k.reply then { x with ringRpl := x.ringRpl ++ [m] } else { x with ringReq := x.ringReq ++ [m] })

/-- A packet held at port p goes on by port c: on its own link, one hop more, or on the span ring (13 R448). -/
def spanOn (p c : Nat) (fell : Bool) (k : SpanPkt) (s : State) : State :=
  let k := { k with pkt := { k.pkt with dtr := k.pkt.dtr || fell } }
  if c = p then spanSend p { k with hops := k.hops + 1 } s else ringPut p c k s

/-- A packet discarded at port p. -/
def spanLost (p : Nat) (s : State) : State := modSpan s p (fun x => { x with lost := incCnt x.lost })

/-- Deliver a reply for this wafer at its egress port: the source, its SEQ, its VC and its landing address restored, the rest of it unchanged
(13 R445); in sluice mode it is discarded (13 R453). -/
def spanReplyHere (k : SpanPkt) (s : State) : State :=
  if s.span.sluice then s
  else
    let q := unitX k.pkt.dest - 32
    match (getSpan s q).egress.find? (fun r => r.seq == k.pkt.seq) with
    | none => modMif s (spId q) (fun m => { m with stale := incCnt m.stale })
    | some r =>
      let s := modSpan s q (fun x => { x with egress := x.egress.filter (fun e => e.seq != r.seq) })
      injectAt (spId q) { k.pkt with dest := r.src, seq := r.rseq, vc := r.vc, daddr := if k.pkt.op = opRdata then r.land else 0 } s

/-- Route a reply held at port p (13 R448). -/
def spanReply (p : Nat) (k : SpanPkt) (s : State) : State :=
  let c := spanCode s k.dwafer
  if c.1 = 16 then spanReplyHere k s
  else if c.1 ≥ 16 || !spanUp s c.1 then spanLost p s
  else if k.hops = 15 then spanLost p s
  else spanOn p c.1 c.2 k s

/-- Port p answers a span request with a NACK to its SWAFER; one of this wafer is answered here. A NACK to a MSG is discarded and counted at
the ingress port (13 R445), and at a port of the MSG's own wafer, which keeps no relay entry for it. -/
def spanNack (p code : Nat) (ingress : Bool) (k : SpanPkt) (s : State) : State :=
  if k.pkt.op = opMsg && (ingress || k.swafer == ownWafer s) then modSpan s p (fun x => { x with msgNacks := incCnt x.msgNacks })
  else
    let a : SpanPkt := { dwafer := k.swafer, swafer := ownWafer s, hops := 0, reply := true, pkt := replyTo k.pkt (spId p) opNack 0 0 code [] }
    if k.swafer = ownWafer s then spanReplyHere a s else spanReply p a s

/-- Does the import table admit a request (13 R446): a valid rectangle that holds DEST, whose mask includes SWAFER. -/
def importAdmits (s : State) (k : SpanPkt) : Bool :=
  isUnit k.pkt.dest && (List.range 16).any (fun i =>
    let e := (mget (0 : W64) s.span.imp i).toNat
    let x := unitX k.pkt.dest
    let y := unitY k.pkt.dest
    bitsOf e 40 40 == 1 && decide (bitsOf e 9 0 ≤ x) && decide (x ≤ bitsOf e 29 20) && decide (bitsOf e 19 10 ≤ y) &&
      decide (y ≤ bitsOf e 39 30) && (mget (0 : W64) s.span.impMask i).getLsbD k.swafer)

/-- Is the use of a request that of a relayed one from an egress port of a wafer with a SEQ. -/
def isRelay (w q e : Nat) (u : Use) : Bool := match u with | .relay a b c => a == w && b == q && c == e | _ => false

/-- The ingress port injects a request with its own SRC and SEQ (13 R445): a resend takes the place of the entry it matches. -/
def spanInject (p : Nat) (k : SpanPkt) (s : State) : State :=
  if k.pkt.op = opMsg then requestOnly (spId p) k.pkt s
  else
    let s := modMif s (spId p) (fun m =>
      { m with outst := m.outst.filter (fun o => !isRelay k.swafer k.pkt.seq k.pkt.src o.use) })
    request (spId p) k.pkt (.relay k.swafer k.pkt.seq k.pkt.src) s

/-- A request for this wafer at ingress port p (13 R445, R446, R453). -/
def spanIngress (p : Nat) (k : SpanPkt) (s : State) : State :=
  if s.span.sluice then spanNack p nkReset true k s
  else if !importAdmits s k then spanNack p nkDike true k (spFlag p 2 s)
  else if k.pkt.op != opMsg && (getMif s (spId p)).outst.length ≥ 4095 &&
      !(getMif s (spId p)).outst.any (fun o => isRelay k.swafer k.pkt.seq k.pkt.src o.use) then
    modSpan s p (fun x => { x with hold := x.hold ++ [k] })
  else spanInject p k s

/-- Route a span packet held at port p (13 R448). -/
def spanRoute (p : Nat) (k : SpanPkt) (s : State) : State :=
  if k.reply then spanReply p k s
  else
    let c := spanCode s k.dwafer
    if c.1 = 16 then spanIngress p k s
    else if c.1 ≥ 16 || !spanUp s c.1 then spanNack p nkNoRoute false k s
    else if k.hops = 15 then spanNack p nkNoRoute false k (spFlag p 3 s)
    else spanOn p c.1 c.2 k s

/-- One base-clock period of a message on the span ring: each hop takes two (13 R441). -/
def ringMove (m : SpanRing) : SpanRing :=
  if m.left > 1 then { m with left := m.left - 1 } else { m with pos := (m.pos + if m.cw then 1 else 15) % 16, left := 2 }

/-- One base-clock period of the span ring: messages that reach their port are routed there (13 R441, R448), replies before requests. -/
def ringPeriod (s : State) : State :=
  let rpl := s.span.ringRpl.map ringMove
  let req := s.span.ringReq.map ringMove
  let there := fun (m : SpanRing) => m.pos == m.port
  let s := modSpanCfg s (fun x => { x with ringRpl := rpl.filter (fun m => !there m), ringReq := req.filter (fun m => !there m) })
  forEach ((rpl ++ req).filter there) (fun m s => spanRoute m.port m.pkt s) s

/-- A relay entry is free again: a request that waited for one goes on, and its buffer words are returned (13 R442). -/
def spanUnhold (p : Nat) (s : State) : State :=
  match (getSpan s p).hold with
  | [] => s
  | k :: ks =>
    if (getMif s (spId p)).outst.length ≥ 4095 then s
    else
      spanIngress p k (modSpan s p (fun x => { x with hold := ks, ackSent := some (x.rxNext, false), ackCredit := (spanWords k, 0) }))

/-- The reply to a relayed request goes back to its wafer with the egress port's SEQ (13 R445). -/
def relayBack (p : Nat) (r : Packet) (swafer eseq eport : Nat) (s : State) : State :=
  let k : SpanPkt := { dwafer := swafer, swafer := ownWafer s, hops := 0, reply := true, pkt := { r with dest := eport, seq := eseq } }
  spanUnhold p (spanReply p k s)

/-! ## Egress (13 R444, R445) -/

/-- Words that a packet covers in its target. -/
def coverWords (p : Packet) : Nat := if p.op = opWrite then p.payload.length else if p.op = opRead then p.len + 1 else 0

/-- The bit of OPS that permits an opcode: bit 1 MSG, bit 2 WRITE, bit 3 READ of the window word. -/
def opsBit (op : Nat) : Nat := if op = opMsg then 1 else if op = opWrite then 2 else 3

/-- The NACK that a packet draws at an egress port. -/
def egressCode (x : SpanPort) (p : Packet) : Option Nat :=
  if !(p.op = opMsg || (p.op = opWrite && !p.mcast) || p.op = opRead) || !lenOk p then some nkBadOp
  else
    let w := mget (0 : W64) x.win (bitsOf p.daddr 19 14)
    let o := p.daddr % 16384
    if !w.getLsbD 0 || !w.getLsbD (opsBit p.op) || o + coverWords p > 16384 || bitsOf w.toNat 49 30 + o + coverWords p > 0x100000
    then some nkAddr
    else none

/-- A relay entry for a request: a resend takes the place of the entry it matches. -/
def egressEntry (p : Packet) (x : SpanPort) : Option (Nat × SpanPort) :=
  let l := x.egress.filter (fun r => !(r.src == p.src && r.rseq == p.seq))
  if l.length ≥ 4095 then none
  else
    match ((List.range 4096).map (fun i => (x.relayNext + i) % 4096)).find? (fun q => !l.any (fun r => r.seq == q)) with
    | none => none
    | some q => some (q, { x with egress := l ++ [{ seq := q, src := p.src, rseq := p.seq, land := p.arg, vc := p.vc }], relayNext := (q + 1) % 4096 })

/-- SPAN_EGRESS: port p takes its oldest request once it can inject the reply (07 R247), translates it by its window and relays it (13 R444,
R445). -/
def execSpanEgress (p : Nat) (s : State) : Out :=
  if p ≥ 16 then .fault (.noSuchObject p)
  else
    match s.flights.find? (fun f => f.loc == .arrived (spId p) && f.net == .req) with
    | none => .next s
    | some f =>
      let k := f.pkt
      let x := getSpan s p
      if replyWaits s (spId p) then .next s
      else
      match egressCode x k with
      | some c => .next (nack k (spId p) c (badOpVia s (spId p) k.op c (dropReq (spId p) k.op s)))
      | none =>
        let w := (mget (0 : W64) x.win (bitsOf k.daddr 19 14)).toNat
        let out := fun q => { k with dest := bitsOf w 29 10, daddr := bitsOf w 49 30 + k.daddr % 16384, hold := false, src := spId p, seq := q }
        let sp := fun q => { dwafer := bitsOf w 9 4, swafer := ownWafer s, hops := 0, reply := false, pkt := out q : SpanPkt }
        if k.op = opMsg then .next (spanRoute p (sp k.seq) (dropReq (spId p) k.op s))
        else
          match egressEntry k x with
          | none => .next s
          | some (q, x') => .next (spanRoute p (sp q) (dropReq (spId p) k.op (setSpan s p x')))

/-- RELAY_TIMEOUT: the relay entry of a SEQ at port p has had no reply for 2^20 base-clock periods (13 R445). -/
def execRelayTimeout (p : Nat) (egress : Bool) (q : Nat) (s : State) : Out :=
  if p ≥ 16 then .fault (.noSuchObject p)
  else
    let gone := fun (s : State) => modSpan s p (fun x => { x with stale := incCnt x.stale })
    if egress then
      if (getSpan s p).egress.any (fun r => r.seq == q) then
        .next (gone (modSpan s p (fun x => { x with egress := x.egress.filter (fun r => r.seq != q) })))
      else .next s
    else
      match findOut s (spId p) q with
      | some _ => .next (spanUnhold p (gone (dropOut (spId p) q s)))
      | none => .next s

/-! ## Receiving frames (13 R442; 12 R409) -/

/-- Is sequence number a below b, modulo 2^32 (12 R409). -/
def seqBelow (a b : W32) : Bool := decide (0 < (b - a).toNat) && decide ((b - a).toNat < 2 ^ 31)

/-- A sequenced frame at span port p: accepted, a duplicate, or ahead of RXNEXT (a NAK is sent once); an ACK leaves at once for what
is accepted or is a duplicate (log 26, DEDUCED). -/
def spanSeq (p : Nat) (seq : W32) (s : State) : Bool × State :=
  let x := getSpan s p
  let x0 := { x with ackCredit := (0, 0) }
  if seq = x.rxNext then (true, setSpan s p { x0 with rxNext := x.rxNext + 1, nakSent := false, ackSent := some (x.rxNext + 1, false) })
  else if seqBelow seq x.rxNext then (false, setSpan s p { x0 with ackSent := some (x.rxNext, false) })
  else if x.nakSent then (false, s)
  else (false, setSpan s p { x0 with nakSent := true, ackSent := some (x.rxNext, true) })

/-- CRC-32 with the polynomial of IEEE 802.3, bit-reflected, from all ones and inverted as that standard has it (log 10, PRESUMED). -/
def crcBit (c : W32) : W32 := if c.getLsbD 0 then (c >>> 1) ^^^ 0xEDB88320 else c >>> 1

/-- One byte enters the CRC. -/
def crcByte (c : W32) (b : Byte) : W32 := (List.range 8).foldl (fun c _ => crcBit c) (c ^^^ b.zeroExtend 32)

/-- The CRC-32 of bytes. -/
def crc32 (bs : List Byte) : W32 := ~~~(bs.foldl crcByte 0xFFFFFFFF)

/-- The bytes of a frame under its CRC: header and payload, little-endian. -/
def frameBytes (header : BitVec 128) (payload : List W64) : List Byte := toLe 16 header.toNat ++ wordsBytes payload

/-- A field of a span frame's header. -/
def spBits (fr : SpanIn) (hi lo : Nat) : Nat := bitsOf fr.header.toNat hi lo

/-- SEQ or ACKSEQ of a span frame. -/
def spSeq (fr : SpanIn) : W32 := fr.header.extractLsb' 12 32

/-- Is a span frame whole, as its codewords, WORDS and CRC-32 show it (R442 with 12 R406, R407). -/
def spanWhole (fr : SpanIn) : Bool :=
  fr.fec != .uncorrectable && fr.payload.length == bitsOf fr.header.toNat 10 4 && fr.crc == crc32 (frameBytes fr.header fr.payload)

/-! ## Packets in a DATA frame (07 R249; 13 R442, R443) -/

/-- Payload flits of a packet by its head flit: MSG, WRITE and RDATA carry LEN + 1. -/
def headPayload (h : Nat) : Nat := if [opMsg, opWrite, opRdata].contains (bitsOf h 43 39) then bitsOf h 26 22 + 1 else 0

/-- A packet by its span tag, head flit, route flit and payload. The VC is no part of a flit: a request's is its opcode's, a reply takes its own
at the egress port. -/
def spanPkt (t h r : Nat) (ws : List W64) : SpanPkt :=
  { dwafer := bitsOf t 5 0, swafer := bitsOf t 11 6, hops := bitsOf t 15 12, reply := bitsOf t 16 16 == 1,
    pkt := { dest := bitsOf h 63 44, op := bitsOf h 43 39, tag := bitsOf h 38 27, len := bitsOf h 26 22, hold := bitsOf h 21 21 == 1,
             mcast := bitsOf h 20 20 == 1, daddr := bitsOf h 19 0, src := bitsOf r 63 44, seq := bitsOf r 43 32, ctx := bitsOf r 31 19,
             epoch := bitsOf r 18 18 == 1, dtr := bitsOf r 17 17 == 1, arg := bitsOf r 16 0, payload := ws,
             vc := vcOf (bitsOf h 43 39) (bitsOf h 21 21 == 1) } }

/-- The packets of a DATA frame's payload, at most n; none where they do not fill it whole. -/
def spanUnpack : Nat → List W64 → Option (List SpanPkt)
  | _, [] => some []
  | n + 1, t :: h :: r :: l =>
    let k := headPayload h.toNat
    if l.length < k then none
    else (spanUnpack n (l.drop k)).map (fun ps => spanPkt t.toNat h.toNat r.toNat (l.take k) :: ps)
  | _, _ => none

/-- A flag as a bit of a word. -/
def bitAt (n : Nat) (b : Bool) : Nat := 2 ^ n * b2n b

/-- The words of a packet in a DATA frame that the port sends. -/
def spanPack (k : SpanPkt) : List W64 :=
  let p := k.pkt
  BitVec.ofNat 64 (k.dwafer + 2 ^ 6 * k.swafer + 2 ^ 12 * k.hops + bitAt 16 k.reply) ::
  BitVec.ofNat 64 (2 ^ 44 * p.dest + 2 ^ 39 * p.op + 2 ^ 27 * p.tag + 2 ^ 22 * p.len + bitAt 21 p.hold + bitAt 20 p.mcast + p.daddr) ::
  BitVec.ofNat 64 (2 ^ 44 * p.src + 2 ^ 32 * p.seq + 2 ^ 19 * p.ctx + bitAt 18 p.epoch + bitAt 17 p.dtr + p.arg) :: p.payload

/-- A frame arrives on span port p: one that fails its CRC or has a reserved TYPE is discarded and counted in SP_CRC; one of TYPE `typ`
(0 ACK, 1 DATA, 2 REACH) goes on; another is another command's. -/
def spanIn (p : Nat) (fr : SpanIn) (typ : Nat) (f : State → Out) (s : State) : Out :=
  if p ≥ 16 then .fault (.noSuchObject p)
  else if !spanUp s p then .next s
  else if !spanWhole fr || spBits fr 3 0 > 2 then .next (modSpan s p (fun x => { x with crc := incCnt x.crc }))
  else if spBits fr 3 0 = typ then f s
  else .next s

/-- Buffer words of a class that a list of packets takes. -/
def classWords (reply : Bool) (l : List SpanPkt) : Nat := (l.filter (fun k => k.reply == reply)).foldl (fun a k => a + spanWords k) 0

/-- The packets of an accepted DATA frame are routed; the ACK returns the buffer words of those that do not wait (13 R442). -/
def spanTake (p : Nat) (pkts : List SpanPkt) (s : State) : State :=
  let before := classWords false (getSpan s p).hold
  let s := forEach pkts (fun k s => spanRoute p k s) s
  modSpan s p (fun x =>
    if x.st != 2 then x
    else { x with ackCredit := (classWords false pkts + before - classWords false x.hold, classWords true pkts) })

/-- SPAN_DATA: a DATA frame arrives on port p; one whose payload is no whole packets fails as a bad CRC does (log 44, DEDUCED). -/
def execSpanData (p : Nat) (header : BitVec 128) (body : FrameBody) (fec : Fec) (s : State) : Out :=
  let fr : SpanIn := ⟨header, body.payload, body.crc, fec⟩
  spanIn p fr 1 (fun s =>
    match spanUnpack body.payload.length body.payload with
    | none => .next (modSpan s p (fun x => { x with crc := incCnt x.crc }))
    | some pkts =>
      let r := spanSeq p (spSeq fr) s
      if r.1 then .next (spanTake p pkts r.2) else .next r.2) s

/-! ## Fallback (13 R451, R452) -/

/-- The set of wafers whose entries a test picks, as a 64-bit map. -/
def waferMap (t : Nat → Bool) : Nat := (List.range 64).foldl (fun a w => a + 2 ^ w * b2n (t w)) 0

/-- Fall back every entry that a test picks; SPAN_FALLBACK names them. -/
def fallBack (t : Nat → Bool) (s : State) : State :=
  let pick := fun w => t w && !(s.span.table.getD w {}).fell
  let m := waferMap pick
  if m = 0 then s
  else
    raise 0x62 none none none m (modSpanCfg s (fun x =>
      { x with table := (List.range 64).map (fun w =>
          let e := x.table.getD w {}
          if pick w then { e with fell := true } else e) }))

/-- Has a wafer no route that leads on: UNREACH, or a port that is not UP. -/
def unreachable (s : State) (w : Nat) : Bool :=
  let c := (spanCode s w).1
  c != 16 && (decide (c ≥ 16) || !spanUp s c)

/-- Send a REACH frame on every UP link but one (13 R451). -/
def sendReach (but hops m : Nat) (s : State) : State :=
  forEach ((upSpans s).filter (fun q => q != but)) (fun q s => modSpan s q (fun x =>
    reachDrain { x with reachQ := x.reachQ ++ [(hops, BitVec.ofNat 64 m)] })) s

/-- A link goes DOWN (13 R451): flag and event, its entries fall back, what its replay buffer holds is routed again with DTR
(a MSG is lost), what waited for it is routed again, and REACH goes out on the others for the wafers that it was the way to. -/
def spanLinkDown (p : Nat) (s : State) : State :=
  let x := getSpan s p
  if x.st != 2 then modSpan s p (fun x => { x with st := 0, lanes := 0, peerV := false })
  else
    let sent := x.tx.flatMap (fun e => match e.2 with | .data l => l | .reach _ _ => [])
    let by_ := fun w => (spanCode s w).1 == p
    let s := setSpan s p { x with st := 0, lanes := 0, peerV := false, flags := setBit x.flags 0, tx := [], outq := [], reachQ := [], replayRun := 0, nakSent := false, ackSent := none }
    let s := raise 0x60 none none none p s
    let s := fallBack (fun w => (s.span.table.getD w {}).pri.toNat == p) s
    let again := fun (k : SpanPkt) (dtr : Bool) => { k with hops := k.hops - 1, pkt := { k.pkt with dtr := k.pkt.dtr || dtr } }
    let s := forEach sent (fun k s => if k.pkt.op = opMsg then spanLost p s else spanRoute p (again k true) s) s
    let s := forEach x.outq (fun k s => spanRoute p (again k false) s) s
    sendReach p 1 (waferMap (fun w => by_ w && unreachable s w)) s

/-- A port whose link may train is in TRAIN (12 R406, 13 R442). -/
def spanTrain (p : Nat) (s : State) : State :=
  if s.span.en && spanPowered s p && (getSpan s p).st == 0 then modSpan s p (fun x => { x with st := 1 }) else s

/-- The unacknowledged frames of a span port are sent again; the sixteenth time with no advance takes the link DOWN (12 R406, R410). -/
def spanReplay (p : Nat) (s : State) : State :=
  let x := getSpan s p
  if x.tx.isEmpty then s
  else
    let s := setSpan s p { x with replays := addCnt x.replays x.tx.length, flags := setBit x.flags 1, replayRun := x.replayRun + 1 }
    if x.replayRun + 1 ≥ 16 then spanTrain p (spanLinkDown p s) else s

/-- An ACK frame frees the frames below ACKSEQ, returns credit, and may ask for a replay. -/
def spanAckIn (p : Nat) (ackseq : W32) (nak : Bool) (creq crpl : Nat) (s : State) : State :=
  let x := getSpan s p
  let tx := x.tx.filter (fun e => !seqBelow e.1 ackseq)
  let run := if tx.length < x.tx.length then 0 else x.replayRun
  let x := { x with tx := tx, creditReq := min 512 (x.creditReq + creq), creditRpl := min 512 (x.creditRpl + crpl), replayRun := run }
  let s := setSpan s p (spanDrain (x.outq.length + 1) (reachDrain x))
  if nak then spanReplay p s else s

/-- SPAN_ACK: NAK [44], CREQ [54:45], CRPL [64:55]. -/
def execSpanAck (p : Nat) (header : BitVec 128) (payload : List W64) (crc : W32) (fec : Fec) (s : State) : Out :=
  let fr : SpanIn := ⟨header, payload, crc, fec⟩
  spanIn p fr 0 (fun s => .next (spanAckIn p (spSeq fr) (spBits fr 44 44 == 1) (spBits fr 54 45) (spBits fr 64 55) s)) s

/-- SPAN_DOWN: the link of port p loses lock or exhausts its replays, and trains again. -/
def execSpanDown (p : Nat) (s : State) : Out :=
  if p ≥ 16 then .fault (.noSuchObject p)
  else if !spanUp s p then .next s
  else .next (spanTrain p (spanLinkDown p s))

/-- SPAN_UP: the lanes of port p have locked; the link goes UP where the IDs differ and both sides are enabled (13 R442, R452). -/
def execSpanUp (p peer : Nat) (peerEn : Bool) (s : State) : Out :=
  if p ≥ 16 then .fault (.noSuchObject p)
  else
    let s := spanTrain p s
    let x := getSpan s p
    if x.st != 1 then .next s
    else if peer % 64 = ownWafer s then .next (setSpan s p { x with clash := true, lanes := 0xFFFF })
    else if !peerEn then .next (setSpan s p { x with lanes := 0xFFFF })
    else
      .next (raise 0x61 none none none p (setSpan s p
        { x with st := 2, peer := BitVec.ofNat 6 peer, peerV := true, clash := false, lanes := 0xFFFF, txNext := 0, rxNext := 0,
                 tx := [], reachQ := [], replayRun := 0, creditReq := 512, creditRpl := 512, nakSent := false, ackSent := none }))

/-- REACH: a REACH frame on port p names wafers that its sender no longer reaches (13 R451). -/
def execReach (p : Nat) (fr : SpanIn) (hops : Nat) (wmap : W64) (s : State) : Out :=
  spanIn p fr 2 (fun s =>
    let r := spanSeq p (spSeq fr) s
    if !r.1 then .next r.2
    else
      let s := r.2
      let named := fun w => (s.span.table.getD w {}).pri.toNat == p && wmap.getLsbD w
      let s := fallBack named s
      let m := waferMap (fun w => named w && unreachable s w)
      if hops ≥ 15 || m = 0 then .next s
      else .next (sendReach p (hops + 1) m s)) s

/-! ## Commands and registers (13 R453 to R456) -/

/-- Is a range of n bytes in DRAM wholly populated (10 R334). -/
def dramRange (a n : Nat) : Bool := decide (a + n ≤ 0x18000000000)

/-- An entry of the table of SPAN_TABLE is legal: codes of R447, reserved bits 0. -/
def spanEntOk (e : Nat) : Bool :=
  let ok := fun c => decide (c ≤ 16) || c == 31
  ok (e % 32) && ok (bitsOf e 9 5) && bitsOf e 15 10 == 0

/-- The 64 entries at a DRAM address. -/
def spanTableAt (s : State) (a : Nat) : List Nat := (List.range 64).map (fun i => rdLe s.dram (a + 2 * i) 2)

/-- SPAN_TABLE (13 R455); a table that cannot be read as for every command that reads DRAM (log 31, DESIGN CHOICE). -/
def execSpanTable (q : Nat) (s : State) : Out :=
  hostCmd q 0x80 (fun c s =>
    let a := bitsOf c.a1.toNat 40 0
    let es := spanTableAt s a
    let own := es.getD (ownWafer s) 0
    if a % 64 != 0 || !dramRange a 128 then finish q stAddr 0 s
    else if rangeOff s a 128 then finish q stPdown 0 s
    else if (badIn s a 128).isSome then finish q stInteg 0 s
    else if !es.all spanEntOk || own % 32 != 16 || bitsOf own 9 5 != 16 then finish q stAddr 0 s
    else
      finish q stOk 0 (modSpanCfg s (fun x =>
        { x with installs := satInc x.installs,
                 table := es.map (fun e => { pri := BitVec.ofNat 5 e, alt := BitVec.ofNat 5 (e / 32), fell := false }) }))) s

/-- SPAN_SLUICE (13 R455). -/
def execSpanSluice (q : Nat) (s : State) : Out :=
  hostCmd q 0x81 (fun c s =>
    if !s.span.en then finish q stState 0 s
    else finish q stOk 0 (modSpanCfg s (fun x => { x with sluice := c.a0.getLsbD 0 }))) s

/-- The effect of a write of SPAN_CFG (13 R456): its status and the state. A cleared EN takes the links DOWN; a set EN lets them train. -/
def spanCfg (v : W32) (s : State) : Nat × State :=
  let id := BitVec.ofNat 6 v.toNat
  if s.span.en && id != s.span.waferId then (stState, s)
  else
    let s := modSpanCfg s (fun x => { x with waferId := id, en := v.getLsbD 6 })
    if v.getLsbD 6 then (stOk, forEach (List.range 16) spanTrain s)
    else (stOk, forEach (List.range 16) spanLinkDown s)

/-- SPAN_CFG_WRITE. -/
def execSpanCfgWrite (h : Req) (v : W32) (s : State) : Out :=
  let r := spanCfg v s
  .next (complete h r.1 [] r.2)

/-- The effect of a write of 1 to SP_CTRL.RETRAIN. -/
def spRetrain (p : Nat) (s : State) : Nat × State :=
  if !spanPowered s p then (stPdown, s) else (stOk, spanTrain p (spanLinkDown p s))

/-- SP_CTRL_RETRAIN. -/
def execSpCtrlRetrain (h : Req) (p : Nat) (s : State) : Out :=
  if p ≥ 16 then .fault (.noSuchObject p)
  else
    let r := spRetrain p s
    .next (complete h r.1 [] r.2)

/-- The span side of a wafer reset that keeps span forwarding (13 R454): SLUICE is set, requests that wait for a relay entry are answered with
TARGET_RESET, the relay tables are emptied. -/
def spanKeep (s : State) : State :=
  let s := modSpanCfg s (fun x => { x with sluice := true })
  forEach (List.range 16) (fun p s =>
    let l := (getSpan s p).hold
    let s := modMif (modSpan s p (fun x => { x with egress := [], hold := [] })) (spId p) (fun m => { m with outst := [] })
    forEach l (spanNack p nkReset true) s) s

/-- The span ports of a list lose their links and their state; SPAN_CFG, the span table, the windows and the import table are cleared, as
for every quadrant that switches off and every wafer reset that does not keep the span (13 R454). The span ring carries on what it holds
(R441). -/
def spanOff (ports : List Nat) (s : State) : State :=
  let s := forEach ports (fun p s => modMif (setSpan (spanLinkDown p s) p {}) (spId p) (fun m => { m with outst := [] })) s
  { s with span := { ports := s.span.ports.map (fun e => (e.1, { e.2 with win := [] })), installs := s.span.installs,
                       ringReq := s.span.ringReq, ringRpl := s.span.ringRpl } }

/-- A wafer reset of another kind. -/
def spanClear (s : State) : State := { spanOff (List.range 16) s with span := {} }

end Sys2Proof.Machine
end

