-- ==== Sys2Proof/Machine/Link.lean ====
section
/-! DEFINITION. The Nimmos link (12 R405 to R426, R438): frames, replay, port modes and failover, events and unit messages, and
the parts of a host access that the mesh carries. Readings: log 10, DESIGN CHOICE; log 26, DEDUCED. -/

namespace Sys2Proof.Machine

open Sys2Proof

/-! ## Port modes (12 R420) -/

/-- The active port: of active/standby operation. -/
def activePort (s : State) : Option Nat :=
  let a := b2n s.host.activeB
  if portUp s a then some a else if portUp s (1 - a) then some (1 - a) else none

/-- The event port. -/
def eventPort (s : State) : Option Nat :=
  if s.host.mode then activePort s else if portUp s 0 then some 0 else if portUp s 1 then some 1 else none

/-- The active port is NL_MODE.PREF when that port is UP, otherwise the other. -/
def chooseActive (s : State) : State :=
  modHost s (fun h => { h with activeB := if portUp s (b2n h.pref) then h.pref else !h.pref })

/-- The effect of a write of NL_MODE. -/
def nlMode (v : W32) (s : State) : State :=
  chooseActive (modHost s (fun h => { h with mode := v.getLsbD 0, pref := v.getLsbD 1 }))

/-- NL_MODE_WRITE. -/
def execNlModeWrite (h : Req) (v : W32) (s : State) : Out := .next (complete h stOk [] (nlMode v s))

/-! ## Events and unit messages to the host (12 R411, R424, R426) -/

/-- May port p send one more EVT or UMSG frame. -/
def hasCredit (s : State) (p : Nat) : Bool :=
  let x := getPort s p
  decide (creditUsed x + (x.txWait.filter creditFrame).length < x.ecredit)

/-- Send held unit messages, oldest first, as credit allows. -/
def drainHold : Nat → State → State
  | 0, s => s
  | n + 1, s =>
    match eventPort s, s.host.hold with
    | some p, m :: ms =>
      if hasCredit s p then drainHold n (sendFrame p (.umsg m) (modHost s (fun h => { h with hold := ms }))) else s
    | _, _ => s

/-- EVT: up to 16 logged events leave in one EVT frame on the event port. -/
def execEvt (s : State) : Out :=
  match eventPort s with
  | none => .next s
  | some p =>
    if s.host.log.isEmpty || !hasCredit s p then .next s
    else .next (sendFrame p (.evt (s.host.log.take 16)) (modHost s (fun h => { h with log := h.log.drop 16 })))

/-- Unit ID of a destination of unit messages: 0 NA, 1 NB, 2 the management complex. -/
def umsgUnit (x : Nat) : Nat := if x = 2 then mgcId else naId x

/-- UMSG: a MSG addressed to a Nimmos port or the management complex is passed to the host (12 R426, R422). -/
def execUmsg (x : Nat) (s : State) : Out :=
  if x ≥ 3 then .fault (.noSuchObject x)
  else
    match nextReq s (umsgUnit x) opMsg with
    | none => .next s
    | some p =>
      let s' := dropReq (umsgUnit x) opMsg s
      let m : Umsg := { dest := x, tag := p.tag, src := p.src, ctx := p.ctx, words := p.payload }
      match eventPort s with
      | none => .next (modHost s' (fun h => { h with umsgLost := incCnt h.umsgLost }))
      | some q =>
        if s.host.hold.isEmpty && hasCredit s q then .next (sendFrame q (.umsg m) s')
        else if s.host.hold.length < 256 then .next (modHost s' (fun h => { h with hold := h.hold ++ [m] }))
        else .next s

/-! ## The link (12 R406) -/

/-- Is PD 100 on and the port enabled: it may train. -/
def mayTrain (s : State) (p : Nat) : Bool := domOn s 100 && (getPort s p).en

/-- A DOWN port that may train is in TRAIN. -/
def linkTrain (p : Nat) (s : State) : State :=
  if mayTrain s p && (getPort s p).st == 0 then modPort s p (fun x => { x with st := 1, lanes := 0 }) else s

/-- With no port UP, what port p has not seen acknowledged: events return to the log, and a log that is full loses them (12 R422, R424);
unit messages and completions are lost. -/
def lostFrames (p : Nat) (s : State) : State :=
  let x := getPort s p
  let tx := x.oldTx.map (·.2) ++ x.oldWait ++ x.tx.map (·.2) ++ x.txWait
  let recs := tx.flatMap (fun f => match f with | .evt l => l | _ => [])
  let ms := (tx.filter (fun f => match f with | .umsg _ => true | _ => false)).length
  modHost (modPort s p (fun x => { x with tx := [], txWait := [], oldTx := [], oldWait := [] })) (fun h =>
    { h with log := (recs ++ h.log).take 4096, evtLost := addCnt h.evtLost (recs.length + h.log.length - 4096),
             umsgLost := addCnt h.umsgLost (ms + h.hold.length), hold := [] })

/-- The host has lost the module: accesses under way are carried out, and their completions discarded (12 R422). -/
def loseAccesses (s : State) : State :=
  modHost s (fun h => { h with accesses := h.accesses.map (fun a => if a.req.port < 2 then { a with lost := true } else a) })

/-- A port that is DOWN: NL_FLAGS.DOWN, NL_DOWNS where it was not before (12 R438). -/
def portDown (x : NPort) : NPort :=
  { x with st := 0, lanes := 0, ecredit := 0, nakSent := false, replayRun := 0,
           flags := if x.st = 0 then x.flags else setBit x.flags 0, downs := if x.st = 0 then x.downs else incCnt x.downs }

/-- A port goes DOWN (12 R406, R421): where the other is UP it sends FAILOVER there, and what the port has not seen acknowledged waits for
the peer's. Frames for which an earlier one has not come count as not received (log 26, DESIGN CHOICE). -/
def linkGoesDown (p : Nat) (s : State) : State :=
  let x := getPort s p
  let s := setPort s p (portDown x)
  if x.st != 2 then s
  else
    let o := 1 - p
    if portUp s o then
      let s := modPort s p (fun y => { y with oldTx := y.tx, oldWait := y.oldWait ++ y.oldTx.map (·.2) ++ y.txWait, oldRx := y.rxNext,
                                              tx := [], txWait := [] })
      let s := modPort s o (fun y => { y with failSent := some (p, x.rxNext, false), failDone := false, flags := setBit y.flags 3 })
      let s := if s.host.mode && b2n s.host.activeB == p then modHost s (fun h => { h with activeB := o == 1 }) else s
      raise 0x13 none none none p s
    else loseAccesses (lostFrames o (lostFrames p s))

/-- LINK_DOWN. -/
def execLinkDown (p : Nat) (s : State) : Out :=
  if p ≥ 2 then .fault (.noSuchObject p)
  else if !portUp s p then .next s
  else .next (linkTrain p (linkGoesDown p s))

/-- LINK_UP: the lanes of a training port have locked and aligned. -/
def execLinkUp (p : Nat) (s : State) : Out :=
  if p ≥ 2 then .fault (.noSuchObject p)
  else
    let s := linkTrain p s
    let x := getPort s p
    if x.st != 1 || !mayTrain s p then .next s
    else
      let other := portUp s (1 - p)
      let s := setPort s p { x with st := 2, lanes := 0xFF, txNext := 0, rxNext := 0, tx := [], txWait := [], ecredit := 0, nakSent := false,
                                    replayRun := 0, ackSent := none, failSent := none, failDone := true }
      let s := if other then s else modHost s (fun h => { h with activeB := p == 1 })
      .next (if other then raise 0x14 none none none p s else s)

/-- TRAIN_RETRY: 50 ms have passed with only some lanes locked; training starts again. Ports 2 to 17 are the span ports (13 R442). -/
def execTrainRetry (p lanes : Nat) (s : State) : Out :=
  if p ≥ 18 then .fault (.noSuchObject p)
  else if p ≥ 2 then
    let s := spanTrain (p - 2) s
    if (getSpan s (p - 2)).st = 1 then .next (modSpan s (p - 2) (fun x => { x with lanes := BitVec.ofNat 16 lanes })) else .next s
  else
    let s := linkTrain p s
    if (getPort s p).st = 1 then .next (modPort s p (fun x => { x with lanes := BitVec.ofNat 8 lanes })) else .next s

/-- The effect of a write of NL_CTRL.EN. -/
def nlEn (p : Nat) (en : Bool) (s : State) : State :=
  let s := modPort s p (fun x => { x with en := en })
  if en then linkTrain p s else linkGoesDown p s

/-- NL_CTRL_EN. -/
def execNlCtrlEn (h : Req) (port : Nat) (en : Bool) (s : State) : Out :=
  if port ≥ 2 then .fault (.noSuchObject port) else .next (complete h stOk [] (nlEn port en s))

/-- The effect of a write of 1 to NL_CTRL.RETRAIN. -/
def nlRetrain (p : Nat) (s : State) : State := linkTrain p (linkGoesDown p s)

/-- NL_CTRL_RETRAIN. -/
def execNlCtrlRetrain (h : Req) (port : Nat) (s : State) : Out :=
  if port ≥ 2 then .fault (.noSuchObject port) else .next (complete h stOk [] (nlRetrain port s))

/-! ## Frames (12 R407, R408) -/

/-- A field of a header. -/
def hdrBits (fr : LinkFrame) (hi lo : Nat) : Nat := bitsOf fr.header.toNat hi lo

/-- TYPE. -/
def frType (fr : LinkFrame) : Nat := hdrBits fr 3 0
/-- WORDS. -/
def frWords (fr : LinkFrame) : Nat := hdrBits fr 10 4
/-- SEQ, ACKSEQ or RXNEXT. -/
def frSeq (fr : LinkFrame) : W32 := fr.header.extractLsb' 12 32
/-- OP. -/
def frOp (fr : LinkFrame) : Nat := hdrBits fr 47 44
/-- SENDER. -/
def frSender (fr : LinkFrame) : Nat := hdrBits fr 55 48
/-- TAG. -/
def frTag (fr : LinkFrame) : Nat := hdrBits fr 67 56
/-- The byte address whose bits [47:3] are ADDR. -/
def frAddr (fr : LinkFrame) : Nat := 8 * hdrBits fr 112 68
/-- RWORDS_M1. -/
def frRwords (fr : LinkFrame) : Nat := hdrBits fr 119 113
/-- NAK of an ACK frame, FAILED of a FAILOVER frame. -/
def frBit44 (fr : LinkFrame) : Nat := hdrBits fr 44 44
/-- CONFIRM of a FAILOVER frame. -/
def frConfirm (fr : LinkFrame) : Bool := fr.header.getLsbD 45
/-- ECREDIT of an ACK frame. -/
def frCredit (fr : LinkFrame) : Nat := hdrBits fr 60 45

/-- The frame types that the host sends: ACK, REQ, FAILOVER. -/
def ftAck : Nat := 0
/-- REQ. -/
def ftReq : Nat := 1
/-- FAILOVER. -/
def ftFailover : Nat := 5

/-- Is a frame whole: every codeword corrected, the CRC at the place that WORDS gives it, and right (R406, R407). -/
def frGood (fr : LinkFrame) : Bool :=
  fr.fec != .uncorrectable && fr.payload.length == frWords fr && fr.crc == crc32 (frameBytes fr.header fr.payload)

/-- What the FEC found is counted (R406). -/
def noteFec (fr : LinkFrame) (s : State) : State :=
  match fr.fec with
  | .clean => s
  | .corrected => modPort s fr.port (fun x => { x with fecCw := incCnt x.fecCw })
  | .uncorrectable => modPort s fr.port (fun x => { x with fecUcw := incCnt x.fecUcw, flags := setBit x.flags 2 })

/-- A frame arrives at its port: one that is not whole, of a reserved type or of a type that the device sends is discarded and counted
in NL_CRC (R408); one of type `typ` goes on; another is another command's. -/
def frameIn (fr : LinkFrame) (typ : Nat) (f : State → Out) (s : State) : Out :=
  if fr.port ≥ 2 then .fault (.noSuchObject fr.port)
  else if !portUp s fr.port then .next s
  else
    let s := noteFec fr s
    if !frGood fr || !([ftAck, ftReq, ftFailover].contains (frType fr)) then .next (modPort s fr.port (fun x => { x with crc := incCnt x.crc }))
    else if frType fr = typ then f s
    else .next s

/-- The header of an ACK frame of the device: ACKSEQ, NAK, no ECREDIT. -/
def ackHeader (ackseq : W32) (nak : Bool) : BitVec 128 := BitVec.ofNat 128 (2 ^ 12 * ackseq.toNat + 2 ^ 44 * b2n nak)

/-- The header of a FAILOVER frame. -/
def failHeader (failed : Nat) (rxnext : W32) (confirm : Bool) : BitVec 128 :=
  BitVec.ofNat 128 (ftFailover + 2 ^ 12 * rxnext.toNat + 2 ^ 44 * failed + 2 ^ 45 * b2n confirm)

/-- The 4 words of an event record (R423). -/
def eventWords (e : Event) : List W64 :=
  [BitVec.ofNat 64 (e.code.toNat + 2 ^ 16 * (b2n e.polder.isSome + 2 * b2n e.ctx.isSome + 4 * b2n e.unit.isSome) +
     2 ^ 24 * (match e.polder with | some p => p.toNat | none => 0) + 2 ^ 32 * (match e.ctx with | some c => c.toNat | none => 0)),
   BitVec.ofNat 64 ((match e.unit with | some u => u.toNat | none => 0) + 2 ^ 32 * e.seq.toNat), e.arg, e.tick]

/-- The payload of a sequenced frame of the device (R408, R423, R426). -/
def txPayload : TxFrame → List W64
  | .cpl _ _ _ data => data
  | .evt recs => recs.flatMap eventWords
  | .umsg m => BitVec.ofNat 64 (m.tag % 4096 + 2 ^ 12 * (m.words.length - 1) + 2 ^ 14 * m.dest + 2 ^ 16 * m.src + 2 ^ 36 * m.ctx) :: m.words

/-- The header of a sequenced frame of the device with its SEQ: TYPE 2 CPL, 3 EVT, 4 UMSG. -/
def txHeader (seq : W32) (f : TxFrame) : BitVec 128 :=
  let base := 2 ^ 4 * (txPayload f).length + 2 ^ 12 * seq.toNat
  match f with
  | .cpl sender tag status _ => BitVec.ofNat 128 (2 + base + 2 ^ 44 * status + 2 ^ 48 * sender + 2 ^ 56 * tag)
  | .evt _ => BitVec.ofNat 128 (3 + base)
  | .umsg _ => BitVec.ofNat 128 (4 + base)

/-- A frame as it leaves the device: header, payload, CRC-32. -/
def txBytes (seq : W32) (f : TxFrame) : List Byte :=
  let bs := frameBytes (txHeader seq f) (txPayload f)
  bs ++ toLe 4 (crc32 bs).toNat

/-! ## Acknowledgement and replay (12 R409, R410) -/

/-- Send the unacknowledged frames again. The sixteenth time with no advance takes the link DOWN (R406). -/
def replay (p : Nat) (s : State) : State :=
  let x := getPort s p
  if x.tx.isEmpty then s
  else
    let s := setPort s p { x with replays := addCnt x.replays x.tx.length, flags := setBit x.flags 1, replayRun := x.replayRun + 1 }
    if x.replayRun + 1 ≥ 16 then linkTrain p (linkGoesDown p s) else s

/-- An ACK frame of the host frees the frames below ACKSEQ and gives the credit; one with NAK asks for the rest again. -/
def ackIn (port : Nat) (ackseq : W32) (nak : Bool) (ecredit : Nat) (s : State) : State :=
  let x := getPort s port
  let tx := x.tx.filter (fun e => !seqBelow e.1 ackseq)
  let run := if tx.length < x.tx.length then 0 else x.replayRun
  let s := setPort s port (pumpTx x.txWait { x with tx := tx, ecredit := ecredit, replayRun := run, txWait := [] })
  let s := if nak then replay port s else s
  drainHold (s.host.hold.length) s

/-- ACK_FRAME. -/
def execAckFrame (port : Nat) (header : BitVec 128) (body : FrameBody) (fec : Fec) (s : State) : Out :=
  let fr : LinkFrame := ⟨port, header, body.payload, body.crc, fec⟩
  frameIn fr ftAck (fun s => .next (ackIn fr.port (frSeq fr) (frBit44 fr == 1) (frCredit fr) s)) s

/-- REPLAY_TIMEOUT: 8 µs with no advance of ACKSEQ. Ports 2 to 17 are the span ports (13 R442). -/
def execReplayTimeout (p : Nat) (s : State) : Out :=
  if p ≥ 18 then .fault (.noSuchObject p)
  else if p ≥ 2 then (if spanUp s (p - 2) then .next (spanReplay (p - 2) s) else .next s)
  else if !portUp s p then .next s
  else .next (replay p s)

/-- The peer's FAILOVER frame arrives on port `port` (12 R421): what it has not received of the failed port's frames goes out as new
frames of this port, and the frame is confirmed. -/
def failIn (port : Nat) (rxnext : W32) (failed : Nat) (confirm : Bool) (s : State) : State :=
  let f := getPort s failed
  let rest := f.oldWait ++ (f.oldTx.filter (fun e => !seqBelow e.1 rxnext)).map (·.2)
  let s := setPort s failed { f with oldTx := [], oldWait := [] }
  let s := forEach rest (sendFrame port) s
  modPort s port (fun x =>
    { x with failDone := true, failSent := if confirm then x.failSent else some (failed, f.oldRx, true), flags := setBit x.flags 3 })

/-- FAILOVER; one that names its own port as failed means nothing. -/
def execFailover (port : Nat) (header : BitVec 128) (body : FrameBody) (fec : Fec) (s : State) : Out :=
  let fr : LinkFrame := ⟨port, header, body.payload, body.crc, fec⟩
  frameIn fr ftFailover (fun s =>
    if frBit44 fr = fr.port then .next s else .next (failIn fr.port (frSeq fr) (frBit44 fr) (frConfirm fr) s)) s

/-- FAILOVER_REPEAT: a side whose peer's FAILOVER has not come sends its own again, as it stands in failSent. -/
def execFailoverRepeat (port : Nat) (s : State) : Out :=
  if port ≥ 2 then .fault (.noSuchObject port)
  else
    match (getPort s port).failSent with
    | some (f, r, _) =>
      if portUp s port && !(getPort s port).failDone then
        .next (modPort s port (fun x => { x with failSent := some (f, r, false) }))
      else .next s
    | none => .next s

/-! ## A sequenced frame from the host (12 R409, R411) -/

/-- A sequenced frame with a SEQ at its port: accepted, or discarded with what R409 says. An ACK leaves at once for every frame that
is accepted or is a duplicate (log 26, DEDUCED), a NAK once for each RXNEXT. -/
def takeSeq (port : Nat) (seq : W32) (s : State) : Bool × State :=
  let x := getPort s port
  if seq = x.rxNext then (true, setPort s port { x with rxNext := x.rxNext + 1, nakSent := false, ackSent := some (x.rxNext + 1, false) })
  else if seqBelow seq x.rxNext then (false, setPort s port { x with ackSent := some (x.rxNext, false) })
  else if x.nakSent then (false, s)
  else (false, setPort s port { x with nakSent := true, ackSent := some (x.rxNext, true) })

/-- Requests outstanding on a port (12 R411), those whose completion is discarded apart. -/
def portOutstanding (s : State) (p : Nat) : Nat := (s.host.accesses.filter (fun a => a.req.port == p && !a.lost)).length

/-! ## Accesses that the mesh carries (12 R415, R418) -/

/-- The endpoint that carries an access of a requester: its Nimmos port; JTAG's go by NA (log 28, DESIGN CHOICE). -/
def carrier (h : Req) : Nat := naId (if h.port = 1 then 1 else 0)

/-- Open an access of n parts that reads or writes w words. -/
def openAccess (h : Req) (read : Bool) (n w : Nat) (s : State) : Nat × State :=
  let id := s.host.nextAcc
  let a : Access := { id := id, req := h, read := read, parts := n, data := if read then List.replicate w 0 else [] }
  (id, modHost s (fun x => { x with nextAcc := id + 1, accesses := x.accesses ++ [a] }))

/-- Words placed into an access's data from word off on. -/
def placeWords (off : Nat) (ws : List W64) (d : List W64) : List W64 := d.take off ++ ws ++ d.drop (off + ws.length)

/-- One part of an access ends, with words read or with a NACK code; the last part completes the access with the status of
its lowest-addressed failure. -/
def partDone (id off : Nat) (ws : List W64) (code : Option Nat) (s : State) : State :=
  match s.host.accesses.find? (fun a => a.id == id) with
  | none => s
  | some a =>
    let fail := match code, a.fail with
      | none, f => f
      | some c, none => some (off, c)
      | some c, some (o, c') => if off < o then some (off, c) else some (o, c')
    let a := { a with parts := a.parts - 1, data := if a.read then placeWords off ws a.data else [], fail := fail }
    if a.parts = 0 then
      let s := modHost s (fun h => { h with accesses := h.accesses.filter (fun b => b.id != id) })
      if a.lost then s
      else
        match fail with
        | some (_, c) => complete a.req (nackStatus c) [] s
        | none => complete a.req stOk a.data s
    else modHost s (fun h => { h with accesses := h.accesses.map (fun b => if b.id == id then a else b) })

end Sys2Proof.Machine
end

