-- ==== Sys2Proof/Machine/Source.lean ====
section
/-! DEFINITION. Replies at the source of a request (07 R278, R282, R283, R286, R287; 04 R162; 10 R360, R362): acknowledgements,
data, values, refusals, reply timers and resends. Readings: log 30, DEDUCED. -/

namespace Sys2Proof.Machine

open Sys2Proof

/-! ## Common parts -/

/-- Write the predicate of a core at the completion of a mesh instruction. -/
def donePred (u : Nat) (pd : Option Nat) (s : State) : State :=
  match pd with
  | some i => modCore s u (fun c => setPred c i true)
  | none => s

/-- A reply that matches no outstanding request (07 R283). -/
def staleReply (u : Nat) (s : State) : State := modMif s u (fun m => { m with stale := incCnt m.stale, flags := setBit m.flags 4 })

/-- Set a flag of MESH_FLAGS. -/
def meshFlag (u i : Nat) (s : State) : State := modMif s u (fun m => { m with flags := setBit m.flags i })

/-- Resends allowed to a source (07 R282, R291; 10 R358, 12 R416, 13 R440, 07 R580). -/
def retryMax (s : State) (u : Nat) : Nat := if isUnit u then bitsOf (getMif s u).cfg.toNat 27 24 else 4

/-- Send an outstanding request again, with the same SEQ and DTR = 1 (07 R282). -/
def resend (u : Nat) (o : Outst) (s : State) : State :=
  let s := modOut u o.pkt.seq (fun o => { o with resends := o.resends + 1, delayed := false }) s
  let s := modMif s u (fun m => { m with resends := incCnt m.resends })
  send { o.pkt with dtr := true } s

/-- The WRITEs of the batch list of frame `num` of polder p have all been answered: SET on the batch sync object while that frame
is in progress (02 R58). -/
def mgcListDone (p num : Nat) (s : State) : State :=
  let x := getPolder s p
  if (getMif s mgcId).outst.any (fun o => o.use == .mgcList p num) then s
  else
    match x.frame, x.cfg with
    | some f, some c =>
      if f.listed || f.num.toNat != num then s
      else
        request mgcId (syncPacket mgcId c.batchSync f.num.toNat 2 0) (.mgcSet p)
          (setPolder s p { x with frame := some { f with listed := true } })
    | _, _ => s

/-! ## Multicast (07 R278) -/

/-- Send the unicast WRITEs that a multicast still owes. -/
def mcSendMore (u q : Nat) : Nat → State → State
  | 0, s => s
  | n + 1, s =>
    match findOut s u q with
    | some o =>
      match o.use with
      | .mput [] (t :: ts) sent fail pd =>
        if (getMif s u).outst.length ≥ 4000 then s
        else
          let s := modOut u q (fun o => { o with use := .mput [] ts (t :: sent) fail pd }) s
          let s := modMif s u (fun m => { m with resends := incCnt m.resends })
          let data := o.pkt.payload.drop 1
          mcSendMore u q n (request u { src := u, dest := t, op := opWrite, len := data.length - 1, daddr := o.pkt.daddr,
                                        ctx := o.pkt.ctx, payload := data } (.mresend q) s)
      | _ => s
    | none => s

/-- A multicast whose rows have all answered and whose resends are all done completes. -/
def mcFinish (u q : Nat) (s : State) : State :=
  match findOut s u q with
  | some o =>
    match o.use with
    | .mput [] [] [] fail pd =>
      let s := dropOut u q s
      match fail with
      | none => donePred u pd s
      | some _ => meshFlag u 0 s
    | _ => s
  | none => s

/-- One row has answered, with the targets that hold no copy. -/
def mcRow (u : Nat) (o : Outst) (off : Nat) (bad : List Nat) (s : State) : State :=
  match o.use with
  | .mput rows rs sent fail pd =>
    if !rows.contains off then staleReply u s
    else
      let rows := rows.filter (fun r => r != off)
      let rs := rs ++ bad
      let s := modOut u o.pkt.seq (fun o => { o with use := .mput rows rs sent fail pd }) s
      if rows.isEmpty then
        let s := if rs.isEmpty then s else meshFlag u 3 s
        mcFinish u o.pkt.seq (mcSendMore u o.pkt.seq rs.length s)
      else s
  | _ => staleReply u s

/-- A unicast resend to target t of the multicast with SEQ q has ended. -/
def mcResent (u q t : Nat) (code : Option Nat) (s : State) : State :=
  let s := modOut u q (fun o => { o with use := match o.use with
    | .mput rows rs sent fail pd =>
      let fail := match code, fail with
        | none, f => f
        | some c, none => some (t, c)
        | some c, some (t', c') => if t < t' then some (t, c) else some (t', c')
      .mput rows rs (sent.filter (fun x => x != t)) fail pd
    | x => x }) s
  mcFinish u q (mcSendMore u q 1 s)

/-! ## Completion with OK -/

/-- An ACK completes a request, or confirms the arrival of a WAIT. -/
def ackDone (u : Nat) (o : Outst) (p : Packet) (s : State) : State :=
  let q := o.pkt.seq
  let gone := dropOut u q s
  let arrived := modOut u q (fun o => { o with acked := true }) s
  match o.use with
  | .put pd => donePred u pd gone
  | .done pd => donePred u pd gone
  | .sync wait pd => if wait then arrived else donePred u pd gone
  | .mresend of => mcResent u of o.pkt.dest none gone
  | .trace => gone
  | .wback _ _ => winSettle u (flushSettle u gone)
  | .host acc off => hostEnded u (partDone acc off [] none gone)
  | .seWrite _ _ _ => gone
  | .seLeft _ _ _ => gone
  | .seSync _ gate batch => if gate || batch then arrived else gone
  | .relay w e ep => relayBack (unitX u - 32) p w e ep gone
  | .mgcList k n => mgcListDone k n gone
  | .mgcSet _ => gone
  | _ => staleReply u s

/-- Bytes of a fill reach their line (10 R362). -/
def fillLine (u k : Nat) (bs : List Byte) (err : Bool) (s : State) : State :=
  modMu s u (fun m =>
    match mget? m.lines k with
    | some l => { m with mem := wrN m.mem (lineAddr k) bs, lines := mput m.lines k { l with fill := false, err := err } }
    | none => m)

/-- An RDATA completes a request. -/
def dataDone (u : Nat) (ecc : Ecc) (o : Outst) (p : Packet) (s : State) : State :=
  let gone := dropOut u o.pkt.seq s
  match o.use with
  | .get addr pd => donePred u pd (modCore gone u (fun c => { c with sram := wrN c.sram addr (wordsBytes p.payload) }))
  | .fill k => winSettle u (fillLine u k (wordsBytes p.payload) false gone)
  | .host acc off => hostEnded u (partDone acc off p.payload none gone)
  | .seRead e key ctx pas => seStore e (some key) ctx pas p.payload ecc gone
  | .seLeft e _ pas => seStore e none none pas p.payload ecc gone
  | .seList e k => seListData e k p.payload gone
  | .relay w e ep => relayBack (unitX u - 32) p w e ep gone
  | _ => staleReply u s

/-! ## Completion with a NACK or TIMEOUT -/

/-- A line whose fill was refused (10 R362). -/
def dramErr (u : Nat) (s : State) : State := modMu s u (fun m => { m with flags := setBit m.flags 2 })

/-- A refused write-back sets DRAM_ERR (10 R362), which records the loss (05 R196). -/
def lineLost (u : Nat) (s : State) : State := modMu s u (fun m => { m with flags := setBit m.flags 2, lost := true })

/-- A request ends with a NACK code; none: with TIMEOUT (07 R282). -/
def failDone (u : Nat) (o : Outst) (code : Option Nat) (s : State) : State :=
  let s := match code with
    | some _ => meshFlag u 0 s
    | none => modMif s u (fun m => { m with flags := setBit m.flags 1, timeouts := incCnt m.timeouts })
  let k := code.getD nkTimeout
  let gone := dropOut u o.pkt.seq s
  match o.use with
  | .mresend of => mcResent u of o.pkt.dest (some k) gone
  | .trace => traceDrop u gone
  | .fill l => winSettle u (dramErr u (fillLine u l (zeros 128) true gone))
  | .wback l wl =>
    winSettle u (flushSettle u (lineLost u (modMu gone u (fun m =>
      match mget? m.lines l with
      | some x => if x.wline = wl && !x.fill then { m with lines := merase m.lines l } else m
      | none => m))))
  | .host acc off => hostEnded u (partDone acc off [] (some k) gone)
  | .seWrite e _ _ => seNack e o.use k gone
  | .seRead e _ _ _ => seNack e o.use k gone
  | .seList e _ => seNack e o.use k gone
  | .seSync e _ _ => seNack e o.use k gone
  | .relay w e ep =>
    match code with
    | some c => relayBack (unitX u - 32) (replyTo o.pkt o.lastResp opNack 0 0 c []) w e ep gone
    | none => spanUnhold (unitX u - 32) (modSpan gone (unitX u - 32) (fun x => { x with stale := incCnt x.stale }))
  | .mgcList p n => mgcListDone p n gone
  | _ => gone

/-- Is a request a SYNC. -/
def isSync (o : Outst) : Bool := o.pkt.op == opSync

/-- A NACK of a responder to an outstanding request (07 R282). -/
def nackDone (u code resp : Nat) (o : Outst) (s : State) : State :=
  let o := { o with lastNack := code, lastResp := resp }
  if code = nkReset && !isSync o then
    if o.resends ≥ retryMax s u then failDone u o (some code) s
    else modOut u o.pkt.seq (fun o => { o with delayed := true, lastNack := code, lastResp := resp }) s
  else failDone u o (some code) s

/-- MESH_NACKS and MESH_LASTNACK (07 R291). -/
def noteNack (u : Nat) (p : Packet) (s : State) : State :=
  modMif s u (fun m => { m with nacks := incCnt m.nacks, lnCode := BitVec.ofNat 5 p.arg, lnSeq := BitVec.ofNat 12 p.seq,
                                lnResp := BitVec.ofNat 20 p.src })

/-! ## The commands -/

/-- Take the oldest reply with an opcode at endpoint u and hand it to f with the request it matches; one that matches none is
stale (07 R283). -/
def replyCmd (u op : Nat) (f : Outst → Packet → State → State) (s : State) : Out :=
  if !isEndpoint u then .fault (.noSuchObject u)
  else
    match arrivedWith s u op with
    | none => .next s
    | some (p, s) =>
      let s := orderRisk u p s
      match findOut s u p.seq with
      | some o => .next (f o p s)
      | none => .next (staleReply u s)

/-- ACK. -/
def execAck (u : Nat) (s : State) : Out := replyCmd u opAck (fun o p s => ackDone u o p s) s

/-- RDATA. -/
def execRdata (d : DataAt) (s : State) : Out := replyCmd d.u opRdata (fun o p s => dataDone d.u d.ecc o p s) s

/-- WVAL: the value of a WCLAIM. -/
def execWval (u : Nat) (s : State) : Out :=
  replyCmd u opWval (fun o p s =>
    match o.use with
    | .claim sd pd =>
      donePred u pd (modCore (dropOut u o.pkt.seq s) u (fun c => setScalar c sd ((p.payload.headD 0).truncate 32)))
    | _ => staleReply u s) s

/-- WSAT: a WAIT is satisfied. -/
def execWsat (u : Nat) (s : State) : Out :=
  replyCmd u opWsat (fun o _ s =>
    match o.use with
    | .sync true pd => donePred u pd (dropOut u o.pkt.seq s)
    | .seSync e gate batch => seWsat e gate batch (dropOut u o.pkt.seq s)
    | _ => staleReply u s) s

/-- NACK: to a MSG it is counted alone (07 R287, 13 R445); a MSG's alone has VC1. -/
def execNack (u : Nat) (s : State) : Out :=
  if !isEndpoint u then .fault (.noSuchObject u)
  else
    match arrivedWith s u opNack with
    | none => .next s
    | some (p, s) =>
      let s := noteNack u p (orderRisk u p s)
      if p.vc = 1 then
        if isSp u then .next (modSpan s (unitX u - 32) (fun x => { x with msgNacks := incCnt x.msgNacks }))
        else .next (meshFlag u 5 s)
      else
        match findOut s u p.seq with
        | some o => .next (nackDone u p.arg p.src o s)
        | none => .next (staleReply u s)

/-- MC_ACK. -/
def execMcAck (u : Nat) (s : State) : Out := replyCmd u opMcAck (fun o p s => mcRow u o p.arg [] s) s

/-- The targets that an MC_NACK names. -/
def mcNackTargets (o : Outst) (p : Packet) : List Nat :=
  let cols := packetCols o.pkt
  (List.range cols.length).filterMap (fun i =>
    if (p.payload.getD (i / 64) 0).getLsbD (i % 64) then some (unitAt (cols.getD i 0) (unitY o.pkt.dest + p.arg)) else none)

/-- MC_NACK. -/
def execMcNack (u : Nat) (s : State) : Out := replyCmd u opMcNack (fun o p s => mcRow u o p.arg (mcNackTargets o p) s) s

/-- Does the reply timer of a request run: its packet has left, no delay is under way, a WAIT is unacknowledged, a multicast
has rows to come. -/
def timerRuns (s : State) (u : Nat) (o : Outst) : Bool :=
  !o.delayed && !o.acked &&
    !s.flights.any (fun f => f.loc == .inject && f.net == .req && f.pkt.src == u && f.pkt.seq == o.pkt.seq) &&
    (match o.use with | .mput [] _ _ _ _ => false | _ => true)

/-- REPLY_TIMER: the reply timer of the request with SEQ q at source u expires (07 R282). -/
def execReplyTimer (u q : Nat) (s : State) : Out :=
  if !isEndpoint u then .fault (.noSuchObject u)
  else
    match findOut s u q with
    | none => .next s
    | some o =>
      if !timerRuns s u o then .next s
      else if isSync o then .next (failDone u o none s)
      else if o.resends ≥ retryMax s u then .next (failDone u o (if o.lastNack = 0 then none else some o.lastNack) s)
      else .next (resend u o s)

/-- RESEND_DELAY: the 4,096 cclk after a TARGET_RESET have passed (07 R282). -/
def execResendDelay (u q : Nat) (s : State) : Out :=
  if !isEndpoint u then .fault (.noSuchObject u)
  else
    match findOut s u q with
    | some o => if o.delayed then .next (resend u o s) else .next s
    | none => .next s

end Sys2Proof.Machine
end

