-- ==== Sys2Proof/Machine/RowMap.lean ====
section
/-! DEFINITION. The fault map (15 R504, R505) and the map of logical rows onto physical rows (01 R16 to R22). -/

namespace Sys2Proof.Machine

open Sys2Proof

/-! ## The fault map (15 R504, R505) -/

/-- Physical row r of field f in the fault map. -/
def fmapRow (s : State) (f r : Nat) : RowMap := mget {} s.boot.fmap.rows (100 * f + r)

/-- A change of the working fault map: UPDATES advances and a write to flash is due. -/
def mapChange (g : FaultMap → FaultMap) (s : State) : State :=
  modBoot s (fun b => { b with fmap := { g b.fmap with updates := b.fmap.updates + 1 }, mapDue := true })

/-- Change physical row r of field f. -/
def rowChange (f r : Nat) (g : RowMap → RowMap) (s : State) : State :=
  mapChange (fun m => { m with rows := mmod {} m.rows (100 * f + r) (fun x => { g x with bootSeq := m.bootSeq }) }) s

/-- Mark slot `slot` of a chain (0 CC, 1 MU, 2 SFU, 3 the row itself, ROW = 2) faulty. -/
def slotFault (chain slot : Nat) (x : RowMap) : RowMap :=
  if chain = 0 then { x with cc := setBit x.cc slot }
  else if chain = 1 then { x with mu := setBit x.mu slot }
  else if chain = 2 then { x with sfu := setBit x.sfu slot }
  else { x with row := 2 }

/-- Slots of a chain, and the logical units it serves (01 R16). -/
def chainSlots (chain : Nat) : Nat × Nat := if chain = 0 then (84, 80) else (9, 8)

/-- Is slot i of a chain of a row marked faulty. -/
def slotBad (x : RowMap) (chain i : Nat) : Bool :=
  if chain = 0 then x.cc.getLsbD i else if chain = 1 then x.mu.getLsbD i else x.sfu.getLsbD i

/-- The usable slots of a chain, in order (01 R17). -/
def usableSlots (x : RowMap) (chain : Nat) : List Nat := (List.range (chainSlots chain).1).filter (fun i => !slotBad x chain i)

/-- Has a chain too few usable slots (01 R20). -/
def chainSpent (x : RowMap) (chain : Nat) : Bool := decide ((usableSlots x chain).length < (chainSlots chain).2)

/-- Can a physical row serve a logical row. -/
def rowUsable (x : RowMap) : Bool := x.row == 0 && (List.range 3).all (fun c => !chainSpent x c)

/-- A row is fenced: the map, the flag, ROW_FENCED. -/
def fenceRow (f r row : Nat) (s : State) : State :=
  let s := rowChange f r (fun x => { x with row := BitVec.ofNat 2 row }) s
  let s := modBoot s (fun b => { b with flags := setBit b.flags row })
  raise 0x34 none none none (f + 2 ^ 6 * r + 2 ^ 13 * row) s

/-- A physical row of field f without the slots that RPR_CLEAR has cleared since the last remap: they are not yet usable (15 R507). -/
def withoutCleared (s : State) (f r : Nat) (x : RowMap) : RowMap :=
  (getField s f).cleared.foldl (fun x c => if c.1 = r && c.2.1 != 3 then slotFault c.2.1 c.2.2 x else x) x

/-- Physical row r of field f with the slots that may serve until the next remap. -/
def presentRow (s : State) (f r : Nat) : RowMap := withoutCleared s f r (fmapRow s f r)

/-- The rows of field f whose chains are exhausted are fenced (01 R20). -/
def fenceSpent (f : Nat) (s : State) : State :=
  forEach ((List.range 100).filter (fun r => (fmapRow s f r).row == 0 && !rowUsable (presentRow s f r))) (fun r s => fenceRow f r 1 s) s

/-- Mark a slot usable again. -/
def slotClear (chain slot : Nat) (x : RowMap) : RowMap :=
  if chain = 0 then { x with cc := clrBit x.cc slot }
  else if chain = 1 then { x with mu := clrBit x.mu slot }
  else if chain = 2 then { x with sfu := clrBit x.sfu slot }
  else { x with row := 0 }

/-- The down sides of a router that remain when the links to some rows of field f are whole again. -/
def linksWhole (f : Nat) (rows : List Nat) (u : Nat) (r : Router) : Router :=
  let fresh := fun (v : Nat) => fieldOf v == f && rows.contains (localY v)
  { r with down := [Dir.n, .e, .s, .w].foldl (fun b d =>
      let far := match neighbour u d with | some v => fresh v | none => false
      if fresh u || far then clrBit (clrBit b (dirBit d)) (4 + dirBit d) else b) r.down }

/-- Marrow sets the row table entries 96 to 99 of field f in both banks by its row map (15 R498; log 24, DEDUCED). -/
def bankRows (f : Nat) (rows : List Nat) (s : State) : State :=
  let put := fun (b : RouteBank) => { b with rowMap := mput b.rowMap f rows }
  { s with epoch := { s.epoch with bank0 := put s.epoch.bank0, bank1 := put s.epoch.bank1 } }

/-- Local row j onto the j-th usable physical row (01 R22): a logical row that changes its physical row, or whose physical row has
been cleared (15 R507), has whole links and unfenced units. -/
def remap (f : Nat) (s : State) : State :=
  let old := (getField s f).rowMap
  let new := ((List.range 100).filter (fun r => rowUsable (fmapRow s f r))).take 96
  let cleared := (getField s f).cleared
  let rows := (List.range 96).filter (fun j => old[j]? != new[j]? || cleared.any (fun c => new[j]? == some c.1))
  let fresh := fun (u : Nat) => fieldOf u == f && rows.contains (localY u)
  let s := bankRows f new (modField s f (fun x => { x with rowMap := new, cleared := [] }))
  if rows.isEmpty || old.isEmpty then s
  else
    { s with
      routers := s.routers.map (fun e => (e.1, linksWhole f rows e.1 e.2)),
      cores := s.cores.map (fun e => (e.1, if fresh e.1 then { e.2 with fenced := false } else e.2)),
      mus := s.mus.map (fun e => (e.1, if fresh e.1 then { e.2 with fenced := false } else e.2)),
      sfus := s.sfus.map (fun e => (e.1, if fresh e.1 then { e.2 with fenced := false } else e.2)) }

/-- The fields that a list of rectangles covers whole. -/
def wholeFields (rs : List Rect) : List Nat :=
  (rectFields rs).filter (fun f =>
    (List.range 96).all (fun j => (List.range 8).all (fun i => inRects rs (unitAt (96 * (f % 8) + 12 * i) (96 * (f / 8) + j)))))

/-- Marrow maps the rows of every field that a load covers whole (01 R22). -/
def remapWhole (rs : List Rect) (s : State) : State := forEach (wholeFields rs) remap s

end Sys2Proof.Machine
end

