-- ==== Sys2Proof/Machine/Units.lean ====
section
/-! DEFINITION. What the events of a polder do to its units, lanes and registers: the start of a frame and of a replay, an
abrupt halt, the activation of a configuration, a reset, and a unit's end of frame (03 R118; 04 R131, R132, R154, R167;
05 R182, R183, R191, R196 to R201, R209, R210, R214; 06 R243, R244; 07 R291). Readings: log 29, DEDUCED; log 38, DEDUCED. -/

namespace Sys2Proof.Machine

open Sys2Proof

/-- Four empty queues. -/
def noQueues : List Queue := List.replicate 4 {}

/-- The units of polder p that stand on present rows (01 R24). -/
def liveUnits (s : State) (p : Nat) : List Nat := (polderUnits s p).filter (fun u => !rowAbsent s u)

/-! ## Compute cores -/

/-- Registers as a frame finds them (04 R131). -/
def coreLoad (c : Core) : Core :=
  { c with s := c.cfg.sinit, pred := c.cfg.pinit, v := List.replicate 8 0,
           acc := List.replicate 4 (List.replicate 64 0), poison := 0 }

/-- Empty queues, inbox and spill ring (04 R132, R139). -/
def coreEmpty (c : Core) : Core :=
  { c with iq := noQueues, oq := noQueues, inbox := [], ringHead := c.cfg.splBase, ringTail := c.cfg.splBase, ringUsed := 0 }

/-- A core at a frame-start tick (04 R131); where the frame is a replay its queues are emptied (R132). -/
def coreFrame (lo : W32) (replay : Bool) (c : Core) : Core :=
  let c := coreLoad { c with fended := false, ended := false, trapped := false, cycHold := none, frameLo := lo, drawn := 0, trcDropped := false }
  if replay then coreEmpty c else c

/-- A core as its configuration's activation leaves it (03 R96, R118; 04 R131, R166): local SRAM and the registers of 17
R555, R556 stay. SRAM_ECC and SPL_HWM return to zero, FRAME_LO stays (log 46, DESIGN CHOICE). -/
def coreActivate (cfg : CcCfg) (pmode : W32) (c : Core) : Core :=
  coreLoad
    { cfg := cfg, sram := c.sram, ftz8 := pmode.getLsbD 11, e5sat := pmode.getLsbD 12, frameLo := c.frameLo,
      ringHead := cfg.splBase, ringTail := cfg.splBase, fenced := c.fenced, tagc := c.tagc, tagMsgs := c.tagMsgs,
      tagStall := c.tagStall, afCnt := c.afCnt, trcCfg := c.trcCfg, trcSent := c.trcSent, trcDrops := c.trcDrops,
      trcSeq := c.trcSeq, trcDropped := c.trcDropped }

/-! ## Special-function units -/

/-- An SFU at a frame-start tick (05 R182). -/
def sfuFrame (replay : Bool) (c : Sfu) : Sfu :=
  let c := { c with prog := List.replicate 8 {}, svalid := false, sfetch := false, drawn := 0, framed := true, ended := false }
  if replay then { c with siq := noQueues, soq := noQueues } else c

/-- An SFU as its configuration's activation leaves it (05 R183). -/
def sfuActivate (cfg : SfuCfg) (c : Sfu) : Sfu := { cfg := cfg, fenced := c.fenced }

/-! ## Memory units -/

/-- A FIFO bank at a frame-start tick that is no replay (05 R198): freed space returns, the pointers are recorded. -/
def fifoFrame (f : Fifo) : Fifo := { f with free := 3072 - f.held, rd0 := f.rd, held0 := f.held }

/-- A FIFO bank at the start of a replayed frame. -/
def fifoReplay (f : Fifo) : Fifo := { f with rd := f.rd0, held := f.held0, free := 3072 - f.held0 }

/-- Progress of the stream descriptors at a frame's start (05 R191). -/
def sdFrame (cfg : MuCfg) : List MsProg :=
  (List.range 8).map (fun i => match cfg.sds[i]? with | some d => { left := d.rep } | none => {})

/-- A line whose fill failed is valid to the end of the frame (10 R362). -/
def errOut (m : Mu) : Mu := { m with lines := m.lines.filter (fun e => !e.2.err) }

/-- At the start of a replay a line that the halted frame had written stays (05 R196). -/
def errReplay (m : Mu) : Mu := { m with lines := m.lines.filter (fun e => !e.2.err || e.2.dirty) }

/-- An MU at a frame-start tick (05 R191, R198, R209, R210). -/
def muFrame (replay : Bool) (m : Mu) : Mu :=
  let m := if replay then errReplay m else errOut m
  let m := { m with prog := sdFrame m.cfg, ended := false, replay := [], wcFull := false, lost := false }
  if replay then
    { m with miq := noQueues, moq := noQueues, fifo := m.fifo.map fifoReplay, wc := m.wc.map (fun e => (e.1, wcReplayStart e.2)) }
  else { m with fifo := m.fifo.map fifoFrame, wc := m.wc.map (fun e => (e.1, wcFrame e.2)) }

/-- A counter as its record sets it (05 R201, R204). -/
def wcOf (r : WcCfg) : Wc :=
  let b := if r.mode = 1 then r.base else 0
  { mode := r.mode, auto := r.auto, freset := r.freset, limit := r.limit, base := r.base, pos := b, pos0 := b }

/-- The counters of a configuration. -/
def wcsOf (cfg : MuCfg) : Map Wc :=
  cfg.wcs.foldl (fun m r => mput m r.idx (wcOf r)) []

/-- An MU as its configuration's activation leaves it (05 R201, R214): bank bytes and staged slots stay; hits and misses start at zero, also
in a bank that was in CACHE mode before (log 48, DESIGN CHOICE). -/
def muActivate (cfg : MuCfg) (m : Mu) : Mu :=
  { cfg := cfg, mem := m.mem, win := cfg.win, wc := wcsOf cfg, slots := m.slots, lastSlot := m.lastSlot, fenced := m.fenced }

/-- Does an MU hold dirty lines. -/
def muDirty (m : Mu) : Bool := dirtyIn m (fun _ => true)

/-! ## Any unit -/

/-- The mesh interface of a unit at activation (07 R291): what it had outstanding is forgotten. -/
def mifActivate (cfg : W32) (m : MeshIf) : MeshIf := { cfg := cfg, seqNext := m.seqNext }

/-- Requests of unit u that wait in its injection port are given up. -/
def dropInjected (u : Nat) (s : State) : State :=
  { s with flights := s.flights.filter (fun f => !(f.net == .req && f.loc == .inject && f.pkt.src == u)) }

/-- The configuration that unit u has in a polder's configuration; none is the idle one (11 R390). -/
def unitCfg (c : PolderCfg) (u : Nat) : UnitCfg :=
  match mget? c.units u with
  | some x => x
  | none => if isCc u then .cc {} else if isMu u then .mu {} else .sfu {}

/-- Unit u takes configuration x at an activation. -/
def unitActivate (pmode : W32) (u : Nat) (x : UnitCfg) (s : State) : State :=
  match x with
  | .cc c => modMif (dropInjected u (modCore s u (coreActivate c pmode))) u (mifActivate c.meshCfg)
  | .mu c => modMif (dropInjected u (modMu s u (muActivate c))) u (mifActivate c.meshCfg)
  | .sfu c => modSfu s u (sfuActivate c)

/-- The active configuration of unit u, with its polder's precision mode word; an unassigned unit has the idle one. -/
def activeCfg (s : State) (u : Nat) : UnitCfg × W32 :=
  match ownerOf s u with
  | some p => match (getPolder s p).cfg with | some c => (unitCfg c u, c.pmode) | none => (unitCfg {} u, 0)
  | none => (unitCfg {} u, 0)

/-- A unit returns to its state at the activation of its active configuration (15 R508). -/
def unitReload (u : Nat) (s : State) : State :=
  let x := activeCfg s u
  unitActivate x.2 u x.1 s

/-- Lines whose fill failed and that were written since are written back before they are invalidated (05 R196, 10 R362). -/
def errFlush (u : Nat) (s : State) : State :=
  forEach ((getMu s u).lines.filter (fun e => e.2.err && e.2.dirty)) (fun e s =>
    modMu (writeBack u e.1 e.2 s) u (fun m => { m with flush := true })) s

/-- Unit u at a frame-start tick; a replay empties a core's inbox, and RECV_BLK with it. -/
def unitFrame (lo : W32) (replay : Bool) (u : Nat) (s : State) : State :=
  if isCc u then
    let s := modCore s u (coreFrame lo replay)
    if replay then modMif s u (fun m => { m with recvBlk := false }) else s
  else if isMu u then
    let s := if replay then s else errFlush u s
    flushSettle u (modMu s u (muFrame replay))
  else modSfu s u (sfuFrame replay)

/-- Unit u at an abrupt halt (04 R167): a core abandons what it has in progress. -/
def unitHalt (u : Nat) (s : State) : State := if isCc u then abandon u s else s

/-- The fenced mark of a unit. -/
def setFenced (u : Nat) (b : Bool) (s : State) : State :=
  if isCc u then modCore s u (fun c => { c with fenced := b })
  else if isMu u then modMu s u (fun m => { m with fenced := b })
  else modSfu s u (fun c => { c with fenced := b })

/-- Has unit u signalled the end of its frame. -/
def unitEnded (s : State) (u : Nat) : Bool :=
  if isCc u then (getCore s u).ended else if isMu u then (getMu s u).ended else (getSfu s u).ended

/-! ## Lanes (06 R240, R243) -/

/-- The polder that selector k of switch u belongs to. -/
def selOwner (s : State) (u : Nat) (fab : Fab) (k : Nat) : Option Nat :=
  let w := (getSw s u).word
  if selT w fab k then some (tpolder w) else ownerOf s u

/-- The polder that input lane i of switch u belongs to: that of a selector that names it, else the switch's own. -/
def laneOwner (s : State) (u : Nat) (fab : Fab) (i : Nat) : Option Nat :=
  match laneNamers (getSw s u).word fab i with
  | x :: _ => selOwner s u x.1 x.2
  | [] => ownerOf s u

/-- Empty the entries of a list that a test picks by place. -/
def emptyAt {α : Type} (t : Nat → Bool) (l : List (List α)) : List (List α) := l.zipIdx.map (fun x => if t x.2 then [] else x.1)

/-- The fabric by its number. -/
def fabOf (n : Nat) : Fab := if n = 0 then .vec else if n = 1 then .scl else .ctl

/-- What of switch u belongs to polder p is emptied: lanes, slots and, in its own switches, the elements; a merge forgets the input that
it last chose, at the start of a replayed frame as at an activation (log 48, DESIGN CHOICE). -/
def switchEmpty (s : State) (p u : Nat) (w : Switch) : Switch :=
  let mine := fun fab i => laneOwner s u fab i == some p
  let w := { w with
    vin := emptyAt (mine .vec) w.vin, sin := emptyAt (mine .scl) w.sin, cin := emptyAt (mine .ctl) w.cin,
    vslot := emptyAt (mine .vec) w.vslot, sslot := emptyAt (mine .scl) w.sslot,
    taken := w.taken.filter (fun x => !(selOwner s u (fabOf x.1) x.2.2 == some p)) }
  if ownerOf s u == some p then { w with steer := List.replicate 4 {}, joins := List.replicate 4 {}, ca0 := {}, ca1 := {} } else w

/-- The lanes of polder p are emptied, wherever they lie. -/
def lanesEmpty (p : Nat) (s : State) : State :=
  { s with switches := s.switches.map (fun e => (e.1, switchEmpty s p e.1 e.2)) }

/-- The registers of a switch at their reset values (06 R244). -/
def switchRegs (w : Switch) : Switch :=
  { w with flags := 0, recElem := 0, recSide := false, recValid := false, cmbExc := {}, steerErrs := {} }

/-! ## Switch words (06 R224, R240, R389) -/

/-- Bits lo to lo + n - 1. -/
def maskBits (lo n : Nat) : BitVec 768 := BitVec.ofNat 768 ((2 ^ n - 1) * 2 ^ lo)

/-- First bit and width of selector k. -/
def selPlace (fab : Fab) (k : Nat) : Nat × Nat :=
  match fab with
  | .vec => (6 * k, 6)
  | .scl => (168 + 6 * k, 6)
  | .ctl => (288 + 7 * k, 7)

/-- The bits of a word's transit selectors. -/
def transitMask (w : BitVec 768) : BitVec 768 :=
  [Fab.vec, .scl, .ctl].foldl (fun m fab =>
    (List.range (selCount fab)).foldl (fun m k =>
      if selT w fab k then m ||| maskBits (selPlace fab k).1 (selPlace fab k).2 else m) m) 0

/-- Has a word a transit selector. -/
def hasTransit (w : BitVec 768) : Bool := transitMask w != 0

/-- The bits of TPOLDER. -/
def tpolderMask : BitVec 768 := maskBits 645 8

/-- What of a word belongs to the polder in which the switch lies. -/
def localWord (w : BitVec 768) : BitVec 768 := w &&& ~~~(transitMask w ||| tpolderMask)

/-- What of a word belongs to the polder of its transit selectors. -/
def transitWord (w : BitVec 768) : BitVec 768 := if hasTransit w then w &&& (transitMask w ||| tpolderMask) else 0

/-- Switch w after polder p has set it to `new`: in its own switch (`own`) the local settings are replaced; transit selectors of p are
replaced wherever they lie, those of another polder stay, and where they lie they stand in place of the local settings (02 R69, 06
R240, 11 R389). -/
def switchSet (p : Nat) (own : Bool) (new : BitVec 768) (w : Switch) : Switch :=
  let loc := if own then localWord new else w.loc
  let through := if hasTransit new then transitWord new else if tpolder w.word == p then 0 else transitWord w.word
  { w with loc := loc, word := (loc &&& ~~~(transitMask through)) ||| through }

/-- The switch words of a configuration take effect for polder p: in its own switches and where its transit selectors lie. The registers
of its own switches return to their reset values, also at POLDER_RELEASE and POLDER_RESET (log 48, DESIGN CHOICE). -/
def setWords (p : Nat) (units : List Nat) (words : Map (BitVec 768)) (s : State) : State :=
  let old := (s.switches.filter (fun e => hasTransit e.2.word && tpolder e.2.word == p)).map (·.1)
  let all := (units ++ old ++ words.map (·.1)).foldl (fun l n => insertNat n l) []
  forEach all (fun u s => modSw s u (fun w =>
    let own := units.contains u
    let w := switchSet p own (mget 0 words u) w
    if own then switchRegs w else w)) s

/-! ## Writing back dirty lines (05 R196, R201) -/

/-- Where the MECs find window address a of a unit of polder p for a line that is written back (10 R346, R350, R362): the physical address;
or what they note of a refusal. -/
def wbackAddr (s : State) (p a : Nat) (paged : Bool) (ctx : Nat) : Option Nat × State :=
  let n := translator ctx (a / 65536)
  let m := mirrorOf s n ctx
  let pte := pteAddr m.1 (a / 65536)
  let at_ : Except PfReason Nat :=
    if !paged then .ok a
    else if a / 65536 ≥ m.2 then .error .range
    else if !populated pte || !stackOn s (stackOf s pte) then .error .pteErr
    else pteCheck (BitVec.ofNat 64 (rdLe s.dram pte 8)) a true
  match at_ with
  | .error r => (none, pageFault n ctx (a % 2 ^ 30) r s)
  | .ok pa =>
    if !populated (pa + 127) then (none, s)
    else if !polderMay s p pa 128 true paged ctx then
      (none, modMec s (stackOf s pa) (fun m => { m with denys := incCnt m.denys, flags := setBit m.flags 3 }))
    else (if stackOn s (stackOf s pa) then some pa else none, s)

/-- Write back one dirty line at once, where the unit itself is about to lose it (log 29, DEDUCED); a line that is refused is discarded with DRAM_ERR. -/
def lineOut (u p k : Nat) (l : Line) (s : State) : State :=
  let m := getMu s u
  let b := k / 1536
  let a := winBase m b + 128 * l.wline
  match wbackAddr s p a (winPaged m b) (winCtx m b) with
  | (some pa, s) =>
    let bs := rdN m.mem (lineAddr k) 128
    modMu (dramWrite (stackOf s pa) pa (bytesWords 16 bs) s) u (fun m => { m with lines := mput m.lines k { l with dirty := false } })
  | (none, s) => lineLost u (modMu s u (fun m => { m with lines := merase m.lines k }))

/-- The write-backs of unit u of polder p that still stand in its injection port reach DRAM at once, where the port is about to lose them (log
29, DEDUCED). -/
def portOut (u p : Nat) (s : State) : State :=
  forEach (s.flights.filter (fun f => f.net == .req && f.loc == .inject && f.pkt.src == u && f.pkt.op == opDwrite)) (fun f s =>
    let w := f.pkt.payload.headD 0
    match wbackAddr s p (8 * awAddr w) (awPaged w) f.pkt.ctx with
    | (some pa, s) => dramWrite (stackOf s pa) pa (f.pkt.payload.drop 1) s
    | (none, s) => lineLost u s) s

/-- Every dirty line of unit u, and every write-back in its port, reach DRAM at once. -/
def unitOut (u : Nat) (s : State) : State :=
  if !isMu u then s
  else
    match ownerOf s u with
    | some p => portOut u p (forEach ((getMu s u).lines.filter (fun e => e.2.dirty)) (fun e s => lineOut u p e.1 e.2 s) s)
    | none => s

/-- DRAM_ERR of memory unit u stands after its reload where a write-back of it was refused: it is the record of the lost line (05 R196). -/
def keepDramErr (old : State) (u : Nat) (s : State) : State :=
  if isMu u && (getMu old u).lost then lineLost u s else s

/-- The memory units of polder p that stand on present rows. -/
def liveMus (s : State) (p : Nat) : List Nat := (liveUnits s p).filter isMu

/-- Has polder p dirty lines, or write-backs under way. -/
def polderDirty (s : State) (p : Nat) : Bool := (liveMus s p).any (fun u => muDirty (getMu s u) || wbackOut s u)

/-- Unit u writes back every dirty line that it holds. -/
def flushUnit (u : Nat) (s : State) : State :=
  if muDirty (getMu s u) then modMu (flushBanks u (fun _ => true) s) u (fun m => { m with flush := true }) else s

/-- The memory units of polder p write back their dirty lines (05 R196, R201). -/
def flushPolder (p : Nat) (s : State) : State := forEach (liveMus s p) flushUnit s

/-! ## Activation (11 R399) -/

/-- CONFIG entries for the live contexts of polder p (02 R83, 16 R539). -/
def configEvent (p : Nat) (c : PolderCfg) (s : State) : State :=
  let x := getPolder s p
  trEvent 6 ((ctxsOf s p liveStates).map (fun k =>
    (k, digestBytes c.digest ++ toLe 4 c.pmode.toNat ++ zeros 4 ++ toLe 8 x.frames.toNat))) s

/-- Configuration c becomes active in polder p, whose rectangles are c's. -/
def activate (p : Nat) (c : PolderCfg) (s : State) : State :=
  let s := lanesEmpty p s
  let x := getPolder s p
  let s := setPolder s p { x with
    cfg := some c, divM1 := c.divM1, budget := c.budget, maxBatch := BitVec.ofNat 14 c.maxBatch, dwW := c.wM1, cfgActive := c.digest }
  let us := rectUnits c.rects
  let s := setWords p us c.switches s
  let s := forEach us (fun u s => unitActivate c.pmode u (unitCfg c u) s) s
  configEvent p c (seAssign p c.engines (objsAllocate p c.sync s))

/-- A configuration's effects end: lanes, transit selectors, units idle, objects, engines (POLDER_RELEASE). -/
def deactivate (p : Nat) (s : State) : State :=
  let us := polderUnits s p
  let s := lanesEmpty p s
  let s := objsRelease p (seRelease p s)
  let s := setWords p us [] s
  forEach us (fun u s => unitActivate 0 u (unitCfg {} u) s) s

/-! ## Frame start and halt -/

/-- The units, lanes, objects and engines of polder p at a frame-start tick. -/
def startUnits (p : Nat) (lo : W32) (replay : Bool) (s : State) : State :=
  let s := if replay then lanesEmpty p s else s
  let s := forEach (polderUnits s p) (unitFrame lo replay) s
  if replay then seReplay p (objsReplay p s) else seFrame p (objsFrame p s)

/-- FCYCLE of a core holds its value from an abrupt halt on (04 R167). -/
def holdCycle (u : Nat) (s : State) : State :=
  if isCc u then modCore s u (fun c => { c with cycHold := some (coreCycle s u) }) else s

/-- The units and engines of polder p at an abrupt halt. -/
def haltUnits (p : Nat) (s : State) : State := seHalt p (forEach (polderUnits s p) (fun u s => unitHalt u (holdCycle u s)) s)

/-! ## End of a unit's frame (02 R52) -/

/-- May core u signal (04 R154): FEND has issued, its output queues are empty, nothing it requested is outstanding; a core
with no slot ends at once (11 R386). -/
def coreEnds (s : State) (u : Nat) : Bool :=
  let c := getCore s u
  if c.cfg.slots.isEmpty then c.trapCause == 0
  else c.fended && c.trapCause == 0 && c.oq.all (fun q => q.ents.isEmpty) && coreOut (getMif s u) == 0

/-- May an SFU signal (05 R182). -/
def sfuEnds (c : Sfu) : Bool :=
  if c.cfg.descs.all (fun d => d.frameEntries == 0) then true
  else
    (c.cfg.descs.zip c.prog).all (fun x => decide (x.2.count.toNat ≥ x.1.frameEntries)) && c.soq.all (fun q => q.ents.isEmpty)

/-- Has an MU a window that accepts writes. -/
def muWr (m : Mu) : Bool := (List.range 4).any (fun b => bankMode m b == 2 && winWr m b)

/-- May an MU signal (05 R200), its dirty lines apart: one with no used descriptor and no window that accepts writes at once. -/
def muEnds (s : State) (u : Nat) : Bool :=
  let m := getMu s u
  if m.cfg.sds.all (fun d => d.rep == 0) && !muWr m then true
  else
    (m.prog.all (fun p => p.left == 0 && !p.running)) && (List.range 4).all (fun b => !bankOut s u b) &&
      m.winPend.isEmpty && !replyWaits s u

/-- FRAME_END_SIGNAL: unit u signals the end of its frame once it may; an MU first writes back its dirty lines (05 R195). -/
def execFrameEndSignal (u : Nat) (s : State) : Out :=
  if !isUnit u then .fault (.noSuchObject u)
  else if !unitRuns s u || unitEnded s u || unitFenced s u || rowAbsent s u then .next s
  else if isCc u then
    if coreEnds s u then .next (trace u 3 0 [] (modCore s u (fun c => { c with ended := true }))) else .next s
  else if isMu u then
    if !muEnds s u then .next s
    else if muWr (getMu s u) && muDirty (getMu s u) then
      .next (modMu (flushBanks u (fun b => bankMode (getMu s u) b == 2 && winWr (getMu s u) b) s) u (fun m => { m with flush := true }))
    else .next (modMu s u (fun m => { m with ended := true, flush := false }))
  else if sfuEnds (getSfu s u) then .next (modSfu s u (fun c => { c with ended := true }))
  else .next s

end Sys2Proof.Machine
end

