-- ==== Sys2Proof/Machine/Reset.lean ====
section
/-! DEFINITION. The reset and the release of a polder (02 R71, 05 R196): write-back, then the reload of its units or the end of its
configuration; the configuration archive (11 R392); completions and the log of refused commands (02 R71, R79).
Readings: log 38, DEDUCED; log 48, DESIGN CHOICE. -/

namespace Sys2Proof.Machine

open Sys2Proof

/-! ## Commands in progress, refused commands -/

/-- Complete every command in progress that a test picks. -/
def finishWhere (t : Cmd → Bool) (status : Nat) (s : State) : State :=
  forEach (List.range 8) (fun q s =>
    match (getQ s q).cur with
    | some c => if t c then finish q status 0 s else s
    | none => s) s

/-- Is a command one of an opcode on polder p. -/
def isPolderCmd (opc p : Nat) (c : Cmd) : Bool := c.opc.toNat == opc && c.a0.toNat % 256 == p

/-- A command that its polder or context does not allow completes with STATE and is logged (02 R71, R79); `budget`: for reason BUDGET
(02 R51). -/
def refuseState (q : Nat) (c : Cmd) (budget : Bool) (s : State) : State :=
  finish q stState 0 (modHost s (fun h => { h with
    refused := h.refused ++ [{ opc := c.opc, a0 := c.a0, budget := budget, tick := s.tick.count }] }))

/-! ## The archive and a pending swap -/

/-- 64 KiB units of n bytes. -/
def archUnits (n : Nat) : Nat := (n + 65535) / 65536

/-- The digests that a polder's active configuration, a filled slot or a configuration to be activated uses (11 R392). -/
def digestsUsed (s : State) : List W512 :=
  s.polders.flatMap (fun e =>
    (if e.2.state = 0 then [] else [e.2.cfgActive]) ++
      ((List.range 4).filter (fun i => e.2.slotValid.getLsbD i)).map (fun i => e.2.slotDigest.getD i 0) ++
      (match e.2.staging with | some c => [c.digest] | none => []))

/-- Archive copies that nothing uses are given up. -/
def archiveTrim (s : State) : State :=
  let used := digestsUsed s
  modConf s (fun k =>
    let l := k.archive.filter (fun e => used.contains e.1)
    { k with archive := l, archUsed := BitVec.ofNat 25 (l.foldl (fun a e => a + archUnits e.2.2) 0) })

/-- The MUs of polder p, which a POLDER_LOAD was writing, hold no image in slot 0, and LD_BUILD and LD_DIGEST stand as before (11
R397). -/
def loadUndone (c : PolderCfg) (s : State) : State :=
  forEach ((rectUnits c.rects).filter isMu) (fun u s => modMu s u (fun m => { m with slots := clrBit m.slots 0 })) (buildUndone s)

/-- The load or swap of polder p under way is given up before its activation: nothing of it stays but what its slot held before a
swap (11 R397, R400). -/
def confDropped (p : Nat) (s : State) : State :=
  match (getPolder s p).staging with
  | none => s
  | some c =>
    let s := if s.conf.op == 0 then loadUndone c s else s
    archiveTrim (modPolder s p (fun x => { x with staging := none, staged := false, swapPend := false, swapHeld := false }))

/-- The load or swap of polder p under way, given up, completes with a status. -/
def confAbort (p status : Nat) (s : State) : State :=
  let q := s.conf.queue
  finish q status 0 (modConf (confDropped p s) (fun k => { k with busy := false }))

/-- A swap of polder p that is pending ends with a status (11 R400). -/
def cancelSwap (p status : Nat) (s : State) : State :=
  if s.conf.busy && s.conf.op == 2 && s.conf.polder.toNat == p then confAbort p status s else s

/-! ## The source of a reload (11 R392) -/

/-- Has the archive a copy of a digest that reads whole and has that digest. -/
def archiveSound (s : State) (d : W512) : Bool :=
  match s.conf.archive.find? (fun e => e.1 == d) with
  | none => false
  | some e =>
    let a := e.2.1
    let n := e.2.2
    !rangeOff s a n && (badIn s a n).isNone && Config.shake256 (rdN s.dram a (n - 128)) == d

/-- A configuration as it is read from the archive; a copy that fails its check is not used, and the units and switches that it should
serve stand without a configuration (log 21, DESIGN CHOICE). -/
def fromArchive (s : State) (c : PolderCfg) : PolderCfg :=
  if archiveSound s c.digest then c else { c with units := [], switches := [] }

/-! ## Reset -/

/-- Every unit of polder p is reloaded from its active configuration (R71, R83; 05 R201, 06 R243, 08 R303, 10 R359). -/
def reload (p : Nat) (s : State) : State :=
  match (getPolder s p).cfg with
  | none => s
  | some c =>
    let s0 := s
    let k := fromArchive s c
    let s := lanesEmpty p s
    let s := seAbandon p (objsReset p s)
    let us := rectUnits c.rects
    let s := setWords p us k.switches s
    let s := forEach us (fun u s => keepDramErr s0 u (unitActivate c.pmode u (unitCfg k u) s)) s
    configEvent p c s

/-- A polder reset whose write-backs are done: the units are reloaded and the polder is LOADED. -/
def resetEnd (p : Nat) (s : State) : State :=
  let s := modPolder (reload p s) p (fun x => { x with state := 1, evacUnits := false })
  finishWhere (isPolderCmd 0x05 p) stOk s

/-! ## Release -/

/-- Polder p becomes VACANT: its counts and flags stay. -/
def vacate (p : Nat) (s : State) : State :=
  archiveTrim (modPolder s p (fun x =>
    { x with state := 0, cause := 0, cfg := none, frame := none, await := none, replay := false, halting := false, abrupt := [],
             dead := false, evacUnits := false, releasing := false, swapHeld := false, doneF := none, cfgActive := 0, slotValid := 0, active := 7, swapPend := false, staged := false,
             slotDigest := List.replicate 4 0, slotCfg := [], staging := none, image := none }))

/-- A release whose write-backs are done: the polder becomes VACANT. -/
def releaseEnd (p : Nat) (s : State) : State :=
  let s0 := s
  let us := polderUnits s p
  let s := vacate p (weightsInvalid p (deactivate p s))
  finishWhere (isPolderCmd 0x06 p) stOk (forEach us (keepDramErr s0) s)

/-- A reset or release of polder p that is under way ends at the first wafer or idle tick that finds no write-back to come (log 48,
DESIGN CHOICE); a line dirtied meanwhile is written back too. -/
def resetTick (p : Nat) (s : State) : State :=
  let x := getPolder s p
  if x.state != 4 && !x.releasing then s
  else if polderDirty s p then flushPolder p s
  else if x.state == 4 then resetEnd p s
  else releaseEnd p s

end Sys2Proof.Machine
end

