-- ==== Sys2Proof/Machine/Frames.lean ====
section
/-! DEFINITION. Frames (02 R45 to R63, R80 to R87), the dikewatch (08 R305 to R309), halts (R72, R73), throttle steps and
evacuation at a tick (14 R463, R474 to R476), pre-positioning (R467), and the ticks themselves.
Readings: log 41, DEDUCED; log 43, DEDUCED. -/

namespace Sys2Proof.Machine

open Sys2Proof

/-! ## Common parts -/

/-- Does polder p have a unit in field f. -/
def polderIn (s : State) (p f : Nat) : Bool := (polderFields s p).contains f

/-- Has polder p a static lane in a switch that a test picks: transit selectors of its active configuration there (02 R62, 06 R240),
whether or not the field is up. -/
def transitAt (s : State) (p : Nat) (t : Nat → Bool) : Bool :=
  match (getPolder s p).cfg with
  | some c => c.switches.any (fun e => t e.1 && hasTransit e.2 && tpolder e.2 == p)
  | none => false

/-- Has polder p a static lane through field f. -/
def transitIn (s : State) (p f : Nat) : Bool := transitAt s p (fun u => fieldOf u == f)

/-- The slowest step among the polder's fields (02 R75). -/
def slowStep (s : State) (p : Nat) : Nat := (polderFields s p).foldl (fun m f => max m (getField s f).step) 0

/-- D' for a divisor and a step (02 R60). -/
def effDivAt (d step : Nat) : Nat := (d * 170 + stepFreq (min step 3) - 1) / stepFreq (min step 3)

/-- The divisor of a polder. -/
def divOf (x : Polder) : Nat := x.divM1.toNat + 1

/-- The bound of 02 R51 on a budget: share (MSHARE + 1) / 200, D ticks of T ns at 1.70 GHz. -/
def budgetFits (c : PolderCfg) (period : Nat) : Bool :=
  decide (c.budget.toNat * 200 * 100 ≤ (200 - (c.mshare + 1)) * (c.divM1.toNat + 1) * period * 170)

/-- The period that applies from the next wafer tick. -/
def nextPeriod (s : State) : Nat := if s.tick.pendingP then s.tick.period.toNat else s.tick.cur.toNat

/-- A PWR_HINT that covers a frame of polder p started at tick t has one frame less to come (14 R485). -/
def hintSpent (p t : Nat) (s : State) : State :=
  modPower s (fun w => { w with hints := (w.hints.map (fun h =>
    if h.p == p && decide (h.start ≤ t) then { h with left := h.left - 1 } else h)).filter (fun h => decide (h.left > 0)) })

/-- Is frame n of a polder heavy by a record. -/
def isHeavy (h : Heavy) (n : Nat) : Bool := n % h.period == h.phase

/-- What is pre-positioned for polder p up to frame n is given up (14 R467). -/
def preposEnd (p n : Nat) (s : State) : State :=
  { s with fields := s.fields.map (fun e => (e.1, { e.2 with prepos := e.2.prepos.filter (fun x => x.1 != p || decide (x.2.1 > n)) })) }

/-! ## Loss of a frame, overruns, the dikewatch record -/

/-- The frame awaiting replay of polder p is lost (02 R81). -/
def dropAwait (p : Nat) (s : State) : State :=
  match (getPolder s p).await with
  | some f =>
    let s := modPolder (loseFrame f s) p (fun x => { x with await := none, replay := false })
    if f.tookBack then s else hintSpent p f.start (preposEnd p f.num.toNat s)
  | none => s

/-- OVERRUN of frame f of polder p with a cause: bit 0 BUDGET, bit 1 TICK (02 R55); the event comes with the first cause. -/
def overrunOf (p cause : Nat) (f : Frame) (s : State) : State :=
  if bit f.causes cause then s
  else
    let first := f.causes == 0
    let s := modPolder s p (fun x => { x with flags := setBit x.flags cause, failed := if first then incCnt x.failed else x.failed })
    if first then
      let s := forEach (batchCtxs f) (fun c s => modCtx s c (fun k => { k with overruns := incCnt k.overruns })) s
      raise 0x20 (some p) none none (2 ^ cause + 2 ^ 32 * (f.num.toNat % 2 ^ 32)) s
    else s

/-- OVERRUN of the frame in progress of polder p with a cause. -/
def overrun (p cause : Nat) (s : State) : State :=
  match (getPolder s p).frame with
  | none => s
  | some f => modPolder (overrunOf p cause f s) p (fun x => { x with frame := some { f with causes := setBit f.causes cause } })

/-- The largest cycle count among the fields of a frame (02 R53, R75). -/
def frameCycles (s : State) (f : Frame) : Nat :=
  f.base.foldl (fun m e => max m ((getField s e.1).cclk - e.2)) 0

/-- Does the frame in progress exceed the budget. -/
def overBudget (s : State) (p : Nat) : Bool :=
  match (getPolder s p).frame with
  | some f => decide (frameCycles s f > (getPolder s p).budget.toNat)
  | none => false

/-- An OVERRUN with cause BUDGET that has come due is raised. -/
def overrunDue (p : Nat) (s : State) : State := if overBudget s p then overrun p 0 s else s

/-- OVERRUN: a field's cycle count of polder p's frame exceeds the budget. -/
def execOverrun (p : Nat) (s : State) : Out :=
  if p ≥ 256 then .fault (.noSuchObject p) else .next (overrunDue p s)

/-- Units of polder p that have not signalled the end of their frame. -/
def unended (s : State) (p : Nat) : List Nat := (liveUnits s p).filter (fun u => !unitEnded s u)

/-- Own waiters of polder p: object and waiter, field by field. -/
def ownWaiters (s : State) (p : Nat) : List (Nat × Waiter) :=
  s.fields.flatMap (fun e => (e.2.waiters.filter (ownWaiter s p)).map (fun w => (w.obj, w)))

/-- The least of a list, if any. -/
def least? (l : List Nat) : Option Nat := match l with | [] => none | a :: t => some (t.foldl min a)

/-- The causes of 08 R308 that apply to a frame: MUTUAL_SEND_STALL cores, trapped cores, stalled switches, waiters. -/
def dwRecord (s : State) (p : Nat) (f : Frame) : DwRec :=
  let us := unended s p
  let cores := (liveUnits s p).filter isCc
  let mss := cores.filter (fun u => (getMif s u).sendBlk && (getMif s u).recvBlk)
  let trapped := cores.any (fun u => (getCore s u).trapped)
  let rec_ := f.reconv.map (· / 8)
  let ws := ownWaiters s p
  let obj := least? (ws.map (·.1))
  let causes := b2n (!mss.isEmpty) + 2 * b2n trapped + 4 * b2n (!rec_.isEmpty) + 8 * b2n (!ws.isEmpty) + 16
  let cause := if !mss.isEmpty then 1 else if trapped then 2 else if !rec_.isEmpty then 3 else if !ws.isEmpty then 4 else 5
  { cause := BitVec.ofNat 3 cause, causes := BitVec.ofNat 5 causes, valid := true, pending := BitVec.ofNat 20 us.length,
    frame := f.num, tick := BitVec.ofNat 64 f.dwAt,
    fields := BitVec.ofNat 64 (((us.map fieldOf).foldl (fun l n => insertNat n l) []).foldl (fun a g => a + 2 ^ g) 0),
    pend := BitVec.ofNat 20 ((least? us).getD 0),
    mss := BitVec.ofNat 20 ((least? mss).getD 0), mssValid := !mss.isEmpty,
    obj := BitVec.ofNat 16 (obj.getD 0), waiters := BitVec.ofNat 13 ((ws.filter (fun w => some w.1 == obj)).length),
    objValid := obj.isSome, reconv := BitVec.ofNat 20 ((least? rec_).getD 0), reconvValid := !rec_.isEmpty }

/-- The rest of a firing dikewatch (08 R306 steps 2, 3, R307): the record of what stood at the firing tick (R308), PST_FLAGS,
DIKEWATCH; the frame is lost. -/
def dikewatchDone (p : Nat) (s : State) : State :=
  let x := getPolder s p
  match x.await with
  | some f =>
    if f.dikewatched then
      let r := f.dwRec.getD (dwRecord s p f)
      let s := setPolder s p { x with dw := r, dwCount := incCnt x.dwCount, flags := setBit x.flags 2 }
      dropAwait p (raise 0x21 (some p) none none (r.cause.toNat + 2 ^ 4 * r.causes.toNat) s)
    else s
  | none => s

/-- DIKEWATCH. -/
def execDikewatch (p : Nat) (s : State) : Out :=
  if p ≥ 256 then .fault (.noSuchObject p) else .next (dikewatchDone p s)

/-! ## Halts (02 R72, R73) -/

/-- Probes outstanding at units of polder p are abandoned as it leaves RUNNING (15 R583). -/
def probesDrop (p : Nat) (s : State) : State :=
  { s with fields := s.fields.map (fun e => (e.1, { e.2 with probes := e.2.probes.filter (fun u => ownerOf s u != some p) })) }

/-- Is a command RST_FIELD of field f. -/
def isFieldReset (f : Nat) (c : Cmd) : Bool := c.opc.toNat == 0x42 && bitsOf c.a0.toNat 29 24 == f

/-- Polder p is HALTED with a cause; a POLDER_HALT that waited for it completes. -/
def haltedWith (p cause : Nat) (s : State) : State :=
  let s := modPolder (probesDrop p s) p (fun x => { x with state := 3, cause := BitVec.ofNat 8 cause, halting := false, abrupt := [] })
  finishWhere (isPolderCmd 0x03 p) stOk s

/-- An abrupt halt of polder p: its units and lanes freeze and its frame awaits its fate; a frame that has not yet started its
replay goes on awaiting it (02 R81). -/
def haltAbrupt (p cause : Nat) (s : State) : State :=
  if (getPolder s p).state != 2 then s
  else
    let s := haltUnits p s
    let s := modPolder s p (fun x =>
      match x.frame with
      | some f => { x with await := some { f with haltCause := BitVec.ofNat 8 cause }, frame := none, replay := false,
                           swapHeld := x.swapHeld || x.swapPend }
      | none => x)
    haltedWith p cause s

/-- Has a POLDER_HALT halted polder p in this mclk. -/
def hostNow (s : State) (x : Polder) : Bool := x.state == 3 && x.cause == 1 && x.hostAt == some (mclk s)

/-- Polder p is to halt abruptly at the next wafer tick with a cause; over a POLDER_HALT of the same mclk the cause is recorded
(02 R73), also where the frame completes before the tick. -/
def haltAtTick (p cause : Nat) (s : State) : State :=
  modPolder s p (fun x =>
    if x.state == 2 then
      { x with abrupt := x.abrupt ++ [BitVec.ofNat 8 cause], hostAt := if x.hostAt == some (mclk s) then none else x.hostAt }
    else if hostNow s x then { x with cause := BitVec.ofNat 8 cause }
    else x)

/-- The causes whose halt loses the frame at once: FIELD_EVAC, ROW_EXHAUSTED, ROW_LANE (14 R476, 15 R519). -/
def losesFrame (l : List (BitVec 8)) : Bool := l.any (fun c => c == 4 || c == 5 || c == 6)

/-- What is due at this tick for the frame in progress of polder p: OVERRUN with cause BUDGET or TICK, then the dikewatch (02 R54,
R55, R57; 08 R305, R306 step 1). -/
def frameDue (p : Nat) (s : State) : State :=
  let t := s.tick.count.toNat
  let s := overrunDue p s
  match (getPolder s p).frame with
  | none => s
  | some f =>
    let s := if t ≥ f.deadline && !f.late then
        overrun p 1 (modPolder s p (fun x => { x with frame := some { f with late := true } })) else s
    if t ≥ f.dwTick && !f.dikewatched then
      modPolder s p (fun y => { y with frame := y.frame.map (fun f =>
        { f with dikewatched := true, dwAt := t, dwRec := some (dwRecord s p { f with dwAt := t }) }) })
    else s

/-- The abrupt halt that is due for polder p; the dikewatch gives way to any other cause (08 R306). -/
def abruptTick (p : Nat) (s : State) : State :=
  let x := getPolder s p
  let fired := match x.frame with | some f => f.dikewatched | none => false
  let l := x.abrupt ++ (if fired then [3] else [])
  match l with
  | [] => s
  | c :: _ =>
    let s := haltAbrupt p c.toNat s
    if losesFrame l && !fired then dropAwait p s else s

/-! ## Steps of a field (14 R462, R463, R474) and its crossings (01 R29 to R32) -/

/-- The core supply of a step as R462 gives it, in mV, and the least for its clock. -/
def stepMv (step : Nat) : Nat := if step = 0 then 750 else if step = 1 then 700 else if step = 2 then 650 else if step = 3 then 580 else 0
def stepMinMv (step : Nat) : Nat := if step = 0 then 690 else if step = 1 then 640 else if step = 2 then 590 else if step = 3 then 520 else 0

/-- The limits of a class 1 item, in mV above R462's set point (15 R502): within 30 mV, and 40 mV above the least supply. -/
def supplyLimits (step : Nat) : Int × Int := (max (-30) (stepMinMv step + 40 - stepMv step : Int), 30)

/-- A calibration value in force: the factory's, with the user table's delta on top (15 R501, R503). -/
def calOf (s : State) (cls idx : Nat) : Int :=
  Config.factoryValue cls idx + ((s.boot.cal.find? (fun e => e.1 == 4096 * cls + idx)).elim 0 (·.2))

/-- The set point of field f for a step, in mV (14 R462, 15 R501, R502). -/
def stepSupply (s : State) (f step : Nat) : Nat :=
  if step ≥ 4 then 0
  else
    let l := supplyLimits step
    (max l.1 (min l.2 (calOf s 1 (4 * f + step))) + stepMv step).toNat

/-- The mode of the crossing between fields f and g. -/
def crossMode (s : State) (f g : Nat) : Crossing :=
  let a := getField s f
  let b := getField s g
  if !powered s f || !powered s g then .stopped else if a.step = b.step then .meso else .ratio

/-- The crossings of field f: key and the field beyond. -/
def crossingsOf (f : Nat) : List (Nat × Nat) :=
  (if f % 8 < 7 then [(4 * f + 1, f + 1)] else []) ++ (if f % 8 > 0 then [(4 * (f - 1) + 1, f - 1)] else []) ++
    (if f < 56 then [(4 * f + 2, f + 8)] else []) ++ (if f ≥ 8 then [(4 * (f - 8) + 2, f - 8)] else [])

/-- Set a crossing: mesochronous and not re-timing is what an unlisted one is. -/
def putCrossing (k : Nat) (m : Crossing) (retime : Bool) (s : State) : State :=
  { s with crossings := if m = .meso && !retime then merase s.crossings k else mput s.crossings k (m, retime) }

/-- The crossings of field f take the mode of its new state; re-timing where it still runs (01 R31). -/
def recross (f : Nat) (s : State) : State :=
  forEach (crossingsOf f) (fun e s => let m := crossMode s f e.2; putCrossing e.1 m (m != .stopped) s) s

/-- The crossing on side d of field f, if the wafer has one there (01 R29). -/
def crossingAt (f : Nat) (d : Dir) : Option Nat :=
  match d with
  | .e => if f % 8 < 7 then some (4 * f + 1) else none
  | .w => if f % 8 > 0 then some (4 * (f - 1) + 1) else none
  | .s => if f < 56 then some (4 * f + 2) else none
  | .n => if f ≥ 8 then some (4 * (f - 8) + 2) else none

/-- The crossing of key k has re-timed its contents: it raises ready again. -/
def retimeDone (k : Nat) (s : State) : State :=
  match mget? s.crossings k with
  | some (m, true) => putCrossing k m false s
  | _ => s

/-- CROSSING_RETIME: the crossing on side d of field f has re-timed its contents and raises ready again. -/
def execCrossingRetime (f : Nat) (d : Dir) (s : State) : Out :=
  if f ≥ 64 then .fault (.noSuchObject f)
  else
    match crossingAt f d with
    | none => .fault (.noSuchObject f)
    | some k => .next (retimeDone k s)

/-- D', deadline and dikewatch tick of the frame in progress after a field of its polder has stepped (02 R61, R63, 08 R305). -/
def restretch (p : Nat) (slower : Bool) (s : State) : State :=
  let x := getPolder s p
  match x.frame with
  | none => s
  | some f =>
    let e := if slower then max f.effDiv (effDivAt (divOf x) (slowStep s p)) else f.effDiv
    let f' := { f with effDiv := e, deadline := f.start + e, dwTick := f.start + (x.dwW.toNat + 1) * e, throttled := true }
    setPolder s p { x with frame := some f', effDiv := BitVec.ofNat 10 e, nextTick := if slower then f'.deadline else x.nextTick,
                           flags := if e != divOf x then setBit x.flags 4 else x.flags }

/-- Field f runs at a new step from this tick: its regulator holds the step's set point, to which it has raised the supply before the
tick or lowers it within 10 µs after it (14 R463; log 39, DEDUCED: the model lowers it at the tick). -/
def takeStep (f t : Nat) (s : State) : State :=
  let x := getField s f
  let v := stepSupply s f t
  let s := setField s f { x with step := t, steps := incCnt x.steps, change := none, acc := 0, setPoint := v, supply := v }
  let s := recross f s
  forEach (poldersIn s 2) (fun p s => if polderIn s p f then restretch p (decide (t > x.step)) s else s) s

/-! ## A field goes down (14 R475, 12 R436, 08 R304) -/

/-- Mailbox n is emptied and unlocked; an owner loses it (12 R436). -/
def mbxClear (n : Nat) (s : State) : State :=
  let m := getMbx s n
  let s := setMbx s n {}
  if m.owner != 0 then raise 0x12 none none none (n + 2 ^ 8 * m.owner.toNat) s else s

/-- Where a flight stands, if in a field. -/
def flightField (f : Flight) : Option Nat :=
  match f.loc with
  | .inject => if isUnit (sender f) then some (fieldOf (sender f)) else if isFc (sender f) then some (unitX (sender f)) else none
  | .router u _ => if isUnit u then some (fieldOf u) else none
  | .replica u _ => if isUnit u then some (fieldOf u) else none
  | .own u => if isUnit u then some (fieldOf u) else none
  | .causeway _ _ => none
  | .arrived u => if isUnit u then some (fieldOf u) else if isFc u then some (unitX u) else f.via.map fieldOf

/-- What the routers and ports of field f hold is lost. -/
def dropFlights (f : Nat) (s : State) : State := { s with flights := s.flights.filter (fun x => flightField x != some f) }

/-- The load or swap in progress for a polder in field f ends with PDOWN (11 R397, R400). -/
def configDown (f : Nat) (s : State) : State :=
  let p := s.conf.polder.toNat
  match (getPolder s p).staging with
  | some c => if s.conf.busy && (rectFields c.rects).contains f then confAbort p stPdown s else s
  | none => s

/-- What lies in field f loses its state with the field's supply: units, switches, routers, mesh interfaces. -/
def unitsOff (f : Nat) (s : State) : State :=
  let out := fun (u : Nat) => !(isUnit u && fieldOf u == f)
  { s with
    cores := s.cores.filter (fun e => out e.1), sfus := s.sfus.filter (fun e => out e.1), mus := s.mus.filter (fun e => out e.1),
    switches := s.switches.filter (fun e => out e.1), routers := s.routers.filter (fun e => out e.1),
    mifs := s.mifs.filter (fun e => out e.1 && e.1 != fcId f) }

/-- Faults of field f that wait for their repair: entered in the map, their shift takes effect when the field next comes up; the
halted frames are lost (15 R521). -/
def dropFaults (f : Nat) (s : State) : State :=
  let mine := fun (x : FaultRec) => fieldOf x.unit == f
  let l := (match s.boot.repair with | some r => r.faults | none => []) ++ s.boot.later
  let s := forEach (l.filter mine) (fun x s => match ownerOf s x.unit with | some p => dropAwait p (dikewatchDone p s) | none => s) s
  modBoot s (fun b =>
    let later := b.later.filter (fun x => !mine x)
    match b.repair with
    | none => { b with later := later }
    | some r =>
      let l := r.faults.filter (fun x => !mine x)
      if l.isEmpty then { b with repair := if later.isEmpty then none else some { faults := later }, later := [] }
      else { b with repair := some { r with faults := l, moved := r.moved.filter (fun u => fieldOf u != f) }, later := later })

/-- The logic of field f has no supply: what its units, switches, routers and controller hold is lost (14 R465, 12 R436). -/
def fieldPowerLost (f : Nat) (s : State) : State :=
  let s := modField s f (fun x => { x with waiters := [], probes := [], fcSram := [], seeds := [], firmware := none, setPoint := 0, supply := 0 })
  unitsOff f (mbxClear f (dropFlights f s))

/-- Field f is down and its domain off; a reset of it that was under way ends with PDOWN (log 38, DEDUCED). -/
def fieldGone (f : Nat) (s : State) : State :=
  let s := dropFaults f (fieldWaiters f s)
  let s := finishWhere (isFieldReset f) stPdown s
  let s := modField s f (fun x =>
    { x with step := 4, up := false, draining := false, starting := false, change := none, prepos := [], resetPhase := 0, dark := false,
             held := false })
  let s := modDom s f (fun d => { d with st := 0 })
  armDown (fieldPowerLost f (configDown f (crossingsFail f (recross f s))))

/-- Step 1 of R475: the polders with units or lanes in field f halt with cause FIELD_EVAC and lose their frames; `lost` adds the
fault of a regulator (R465). What the tick makes due for a frame, OVERRUN among it, comes before its halt (log 48, DESIGN CHOICE). -/
def evacHalts (f : Nat) (lost : Bool) (s : State) : State :=
  forEach ((List.range 256).filter (fun p => (getPolder s p).state != 0)) (fun p s =>
    let unit := polderIn s p f
    let s := if unit then modPolder s p (fun x => { x with evacUnits := true }) else s
    if (getPolder s p).state == 2 && (unit || transitIn s p f) then
      let s := frameDue p s
      let x := getPolder s p
      let s := match x.frame with | some fr => if lost then faultEvent fr (fcId f) 8 0 s else s | none => s
      let s := modPolder s p (fun x => { x with abrupt := x.abrupt ++ [4], flags := setBit x.flags 3 })
      let s := abruptTick p s
      raise 0x22 (some p) none none f s
    else if hostNow s (getPolder s p) && (unit || transitIn s p f) then
      raise 0x22 (some p) none none f (modPolder s p (fun x => { x with cause := 4, flags := setBit x.flags 3 }))
    else s) s

/-- The evacuation tick of field f (R475): the polders halt and its MUs begin to write back their dirty lines. -/
def evacuate (f : Nat) (why : Down) (s : State) : State :=
  let s := if why == .command then s else modPower s (fun w => { w with flags := setBit w.flags 5 })
  let s := modField s f (fun x => { x with why := why })
  let reg := why == .regulator
  let s := evacHalts f reg s
  if reg then fieldGone f (modField s f (fun x => { x with steps := incCnt x.steps, saved := false }))
  else
    let x := getField s f
    let s := if x.step < 3 then takeStep f 3 s else modField s f (fun x => { x with steps := incCnt x.steps, change := none })
    let us := (s.mus.filter (fun e => fieldOf e.1 == f)).map (·.1)
    forEach us flushUnit (modDom (modField s f (fun x => { x with draining := true })) f (fun d => { d with st := 2 }))

/-- The decided step changes at a tick that follows `ns` after the last: those now due take effect. -/
def stepTick (ns : Nat) (s : State) : State :=
  forEach (s.fields.map (·.1)) (fun f s =>
    let x := getField s f
    match x.change with
    | none => s
    | some c =>
      if c.wait > ns then
        setField s f { x with change := some { c with wait := c.wait - ns },
                              supply := if x.supply < x.setPoint then min x.setPoint (x.supply + ns / 100) else x.supply }
      else if c.target ≥ 4 then evacuate f c.why s
      else takeStep f c.target s) s

/-! ## The start of a frame (02 R58, R84 to R87) -/

/-- Is context a before b in a batch: priority, tick of becoming READY, number. -/
def batchBefore (s : State) (a b : Nat) : Bool :=
  let x := getCtx s a
  let y := getCtx s b
  if x.prio != y.prio then decide (x.prio.toNat < y.prio.toNat)
  else if x.readyTick != y.readyTick then decide (x.readyTick < y.readyTick)
  else decide (a < b)

/-- Insert a context in batch order. -/
def batchInsert (s : State) (c : Nat) : List Nat → List Nat
  | [] => [c]
  | d :: l => if batchBefore s c d then c :: d :: l else d :: batchInsert s c l

/-- The contexts selected for a frame of polder p. -/
def selectBatch (s : State) (p : Nat) : List Nat :=
  ((ctxsOf s p [2]).foldl (fun l c => batchInsert s c l) []).take (getPolder s p).maxBatch.toNat

/-- cclk of each field of polder p now. -/
def frameBase (s : State) (p : Nat) : Map Nat := (polderFields s p).map (fun f => (f, (getField s f).cclk))

/-- A frame of polder p starts now with a batch. -/
def openFrame (p : Nat) (f : Frame) (s : State) : State :=
  let x := getPolder s p
  let e := effDivAt (divOf x) (slowStep s p)
  let t := s.tick.count.toNat
  let f := { f with num := x.frames + 1, start := t, effDiv := e, deadline := t + e, dwTick := t + (x.dwW.toNat + 1) * e,
                    base := frameBase s p, throttled := e != divOf x, listed := x.maxBatch == 0, causes := 0, late := false,
                    reconv := [] }
  setPolder s p { x with frames := x.frames + 1, effDiv := BitVec.ofNat 10 e, frame := some f, nextTick := t + e,
                         batchN := BitVec.ofNat 14 f.batch.length, flags := if e != divOf x then setBit x.flags 4 else x.flags }

/-- An empty frame to fill in. -/
def blankFrame : Frame := { num := 0, start := 0, effDiv := 0, deadline := 0, dwTick := 0 }

/-- A new frame of polder p. -/
def newFrame (p : Nat) (s : State) : State :=
  let cs := selectBatch s p
  let b := cs.map (fun c => let k := getCtx s c; ({ ctx := c, left := k.left, pos := k.pos } : BatchEnt))
  let s := forEach cs (fun c s => modCtx s c (fun k => { k with state := 3 })) s
  let s := openFrame p { blankFrame with batch := b } s
  startUnits p ((getPolder s p).frames.truncate 32) false s

/-- The awaited frame of polder p starts again (02 R81). -/
def replayFrame (p : Nat) (f : Frame) (s : State) : State :=
  let s := forEach (batchCtxs f) (fun c s => modCtx s c (fun k => { k with replays := incCnt k.replays })) s
  let s := openFrame p { blankFrame with batch := f.batch, isReplay := true, replays := f.replays + 1 } s
  let s := modPolder s p (fun x => { x with await := none, replay := false })
  let n := (getPolder s p).frames
  let s := trEvent 5 ((batchCtxs f).map (fun c => (c, toLe 8 n.toNat ++ toLe 8 f.num.toNat ++ [f.haltCause] ++ zeros 7))) s
  startUnits p (n.truncate 32) true s

/-- Does every MU of a configuration's clusters set bank 3 to CONFIG (11 R395). -/
def allConfig3 (c : PolderCfg) : Bool :=
  ((rectUnits c.rects).filter isMu).all (fun u => match unitCfg c u with | .mu m => m.modes.getD 3 0 == 5 | _ => false)

/-- The registers of a polder whose load with configuration c takes effect: LOADED, its slots (11 R395), its dikewatch record
(08 R309). -/
def loadedWith (c : PolderCfg) (x : Polder) : Polder :=
  let kept := allConfig3 c
  { x with state := 1, activations := 0, dw := {}, slotValid := if kept then 1 else 0, active := if kept then 0 else 7,
           slotDigest := (if kept then c.digest else 0) :: List.replicate 3 0, slotCfg := if kept then [(0, c)] else [] }

/-- A load or a swap that waits for its activation takes effect in polder p (11 R395, R398); a load that covers a field whole maps its
rows (01 R22). -/
def activateNow (p : Nat) (s : State) : State :=
  let x := getPolder s p
  match x.staging with
  | none => s
  | some c =>
    let s := if x.state == 0 then remapWhole c.rects (weightsInvalid p s) else s
    let y := { getPolder s p with staging := none, staged := false, swapPend := false, swapHeld := false }
    let y := if x.state == 0 then loadedWith c y
      else { y with active := BitVec.ofNat 3 x.swapSlot.toNat, activations := satInc x.activations }
    finish s.conf.queue stOk 0 (modConf (activate p c (setPolder s p y)) (fun k => { k with busy := false, phase := 3 }))

/-- Is a waiting configuration of polder p due at this tick; `start`: a frame of it starts now. A swap that has met a halted frame
is due at a frame's start alone (11 R398 step 3). -/
def activateDue (s : State) (p : Nat) (start : Bool) : Bool :=
  let x := getPolder s p
  x.staged && !x.releasing && x.await.isNone && (x.state == 0 || ((x.state == 1 || x.state == 3) && !x.swapHeld) || (x.state == 2 && start))

/-- A configuration that is due in polder p takes effect, or dirty lines are written back first (05 R201, 11 R398). -/
def activateTick (p : Nat) (s : State) : State := if polderDirty s p then flushPolder p s else activateNow p s

/-- Is a frame of polder p to start at this tick. -/
def startDue (s : State) (p : Nat) : Bool :=
  let x := getPolder s p
  x.state == 2 && x.frame.isNone && !x.halting && decide (x.nextTick ≤ s.tick.count.toNat)

/-- The start of a frame of polder p at this tick, unless Shallot's queue is full (16 R541) or a swap that is due waits for dirty
lines: its frame waits with it (log 48, DESIGN CHOICE). -/
def startTick (p : Nat) (s : State) : State :=
  if !startDue s p then (if activateDue s p false then activateTick p s else s)
  else if s.sec.queue.length ≥ 4096 then
    let first := (getPolder s p).nextTick == s.tick.count.toNat
    modSec s (fun k => { k with flags := setBit k.flags 1, trStalls := if first then incCnt k.trStalls else k.trStalls })
  else
    let x := getPolder s p
    match x.await with
    | some f => if x.replay then replayFrame p f s else s
    | none =>
      if !activateDue s p true then newFrame p s
      else if polderDirty s p then flushPolder p s
      else newFrame p (activateNow p s)

/-! ## Pre-positioning (14 R467) -/

/-- Pre-position field f for frame n of polder p. -/
def prepos (p n f h : Nat) (s : State) : State :=
  modField s f (fun x => if x.prepos.contains (p, n, h) then x else { x with prepos := x.prepos ++ [(p, n, h)] })

/-- The frame of polder p after which its next one is expected: in progress, or complete before its deadline. -/
def lastFrame (x : Polder) : Option Frame := if x.frame.isSome then x.frame else x.doneF

/-- Does a PWR_HINT cover the next frame of a polder, expected at tick `due`: what is left of it beyond the frame in progress. -/
def hintNext (x : Polder) (due : Nat) (h : Hint) : Bool :=
  let now := match x.frame with | some f => decide (h.start ≤ f.start) | none => false
  decide (h.start ≤ due) && decide (h.left > (if now then 1 else 0))

/-- What is pre-positioned at this tick for the next frame of polder p: expected at the last frame's start and D' (14 R467). -/
def preposTick (p : Nat) (s : State) : State :=
  let x := getPolder s p
  let t := s.tick.count.toNat
  let n := x.frames.toNat + 1
  match (if x.state = 2 then lastFrame x else none), x.cfg with
  | some f, some c =>
    let due := f.start + f.effDiv
    let s := forEach c.heavy (fun h s => if isHeavy h n && t + h.lead == due then prepos p n h.field h.hint s else s) s
    forEach s.power.hints (fun h s => if h.p == p && t + 1 == due && hintNext x due h then prepos p n h.f h.hint s else s) s
  | _, _ => s

/-! ## Ticks -/

/-- The polders in ascending number that are not VACANT or await a configuration. -/
def tickPolders (s : State) : List Nat := s.polders.map (·.1)

/-- Bit 1 of FLAGS, OVR_TICK, in the body of a FRAME entry (16 R539). -/
def markOvr (body : List Byte) : List Byte := lmod body 15 (fun b => b ||| 2)

/-- The FRAME entries of frame f that Shallot has not yet applied show OVR_TICK. -/
def markLate (f : Frame) (s : State) : State :=
  modSec s (fun k => { k with queue := k.queue.map (fun e =>
    if e.typ == 2 then
      { e with ctxs := e.ctxs.map (fun c =>
          if (batchCtxs f).contains c.1 && c.2.take 8 == toLe 8 f.num.toNat then (c.1, markOvr c.2) else c) }
    else e) })

/-- A context of polder p whose frame's completion does not count: RUNNING again, as the frame's start left it. -/
def ctxBack (p : Nat) (throttled : Bool) (e : BatchEnt) (k : Ctx) : Ctx :=
  if k.polder.toNat == p && [1, 2, 4].contains k.state then
    { k with state := 3, left := e.left, pos := e.pos, frames := k.frames - 1,
             throttles := if throttled then { k.throttles with count := k.throttles.count - 1 } else k.throttles }
  else k

/-- Is an event of Shallot's queue the completion of frame f. -/
def isCompletion (f : Frame) (e : TrEvent) : Bool :=
  e.typ == 2 && e.ctxs.any (fun c => (batchCtxs f).contains c.1 && c.2.take 8 == toLe 8 f.num.toNat)

/-- The completion of frame f of polder p, in the cclk in which a field observes its dikewatch tick, does not count (08 R305): the
frame is in progress still. -/
def takeBack (p : Nat) (f : Frame) (s : State) : State :=
  let s := forEach f.batch (fun e s => modCtx s e.ctx (ctxBack p f.throttled e)) s
  let s := modSec s (fun k => { k with queue := k.queue.filter (fun e => !isCompletion f e) })
  modPolder s p (fun x => { x with state := 2, cause := 0, frame := some { f with tookBack := true }, last := x.priorLast })

/-- A completed frame of polder p at its deadline tick or its dikewatch tick: where a field of it is still in the cclk of the
completion, the completion does not count. At the deadline tick the frame was late, and the next starts after this tick (02 R54 to R56);
at the dikewatch tick the frame is in progress still and the dikewatch fires for it (08 R305). -/
def doneTick (p : Nat) (s : State) : State :=
  let x := getPolder s p
  let t := s.tick.count.toNat
  match x.doneF with
  | none => s
  | some f =>
    if t < f.deadline then s
    else
      let s := modPolder s p (fun x => { x with doneF := none })
      if !f.base.any (fun e => (getField s e.1).cclk == e.2) then s
      else if t == f.dwTick && x.frame.isNone && x.await.isNone && (x.state == 2 || (x.state == 3 && x.cause == 1)) then takeBack p f s
      else if t == f.deadline then
        modPolder (markLate f (overrunOf p 1 f s)) p (fun x => { x with nextTick := max x.nextTick (t + 1) })
      else s

/-- Deadline, dikewatch and halts of polder p at a wafer tick. -/
def frameTick (p : Nat) (s : State) : State := abruptTick p (frameDue p (doneTick p s))

/-- What holds once per wafer tick starts again (08 R301, 10 R352). -/
def onceFlags (s : State) : State :=
  { s with fields := s.fields.map (fun e => (e.1, { e.2 with wqRaised := false })),
           mecs := s.mecs.map (fun e => (e.1, { e.2 with pfRaised := false })) }

/-- The input monitor measures the bus voltage and current, at every wafer and idle tick and governor tick (14 R464): free values; no
current is drawn while the input stage is open (18 R567). -/
def inputSample (s : State) : State :=
  modPower s (fun w =>
    let v := Config.inputVoltage w.inSeen
    let i := if w.inputOpen then 0 else Config.inputCurrent w.inSeen
    { w with vin := v, iin := i, inSeen := w.inSeen + 1, inN := w.inN + 1, inSum := w.inSum + v.toNat * i.toNat / 10000 })

/-- Has the governor its turn after `ns` more nanoseconds (14 R468). -/
def govTick (ns : Nat) (idleTick : Bool) (s : State) : State :=
  modPower s (fun w => if idleTick || w.lastGov + ns ≥ 10000 then { w with govDue := true, lastGov := 0 }
    else { w with lastGov := w.lastGov + ns })

/-- A repair under way has met its halting tick (15 R514). -/
def repairTick (s : State) : State := modBoot s (fun b => { b with repair := b.repair.map (fun r => { r with ticked := true }) })

/-- The tick generator counts a wafer tick (02 R45, R46). -/
def countTick (s : State) : State :=
  let k := s.tick
  { s with tick := { k with count := k.count + 1, time := BitVec.ofNat 64 (s.now * 10 / 17), cur := if k.pendingP then k.period else k.cur,
                            pendingP := false } }

/-- WAFER_TICK. -/
def execWaferTick (s : State) : Out :=
  if !s.tick.run then .next s
  else
    let ns := s.tick.cur.toNat
    let s0 := s
    let s := stepTick ns (onceFlags (countTick s))
    let ps := tickPolders s
    let s := forEach ps frameTick s
    let s := repairTick s
    let s := forEach ps resetTick s
    let s := forEach ps startTick s
    let s := forEach ps preposTick s
    .next (eventsByCode s0 (govTick ns false (inputSample (calWindow (epochTick s)))))

/-- IDLE_TICK (02 R48): steps, evacuations, activations, the ends of resets and the route epoch alone. -/
def execIdleTick (s : State) : Out :=
  if s.tick.run || s.boot.phase.toNat < 2 || s.power.shed then .next s
  else
    let s0 := s
    let s := stepTick 10000 s
    let s := forEach (tickPolders s) (fun p s => let s := resetTick p s; if activateDue s p false then activateTick p s else s) s
    .next (eventsByCode s0 (govTick 10000 true (inputSample (scrubWatch (epochTick s)))))

/-! ## The batch list (02 R58, R87) -/

/-- The bytes of a frame's batch list. -/
def listBytes (f : Frame) : List Byte :=
  toLe 8 f.num.toNat ++ toLe 2 f.batch.length ++ zeros 6 ++
    f.batch.flatMap (fun e => toLe 8 (e.ctx + 2 ^ 16 * e.left.toNat + 2 ^ 32 * e.pos.toNat))

/-- Pieces of words from unit byte address a, none across a 256 B block. -/
def blockParts : Nat → Nat → List W64 → List (Nat × List W64)
  | 0, _, _ => []
  | n + 1, a, ws =>
    if ws.isEmpty then []
    else
      let k := (256 - a % 256) / 8
      (a, ws.take k) :: blockParts n (a + 8 * k) (ws.drop k)

/-- BATCH_LIST_WRITE: the management complex writes the batch list of polder p's frame (07 R580); SET follows its last ACK. The low 3
bits of a list location's offset count for nothing (log 48, DESIGN CHOICE). -/
def execBatchListWrite (p : Nat) (s : State) : Out :=
  if p ≥ 256 then .fault (.noSuchObject p)
  else
    let x := getPolder s p
    match x.frame, x.cfg with
    | some f, some c =>
      let u := Use.mgcList p f.num.toNat
      if f.listed || (getMif s mgcId).outst.any (fun o => o.use == u) then .next s
      else
        let bs := listBytes f
        let parts := blockParts (bs.length / 8 + 1) (c.batchOff / 8 * 8) (bytesWords (bs.length / 8) bs)
        .next (forEach parts (fun q s =>
          request mgcId { src := mgcId, dest := c.batchMu, op := opWrite, len := q.2.length - 1, daddr := q.1 / 8, payload := q.2 } u s) s)
    | _, _ => .next s

/-! ## The end of a frame (02 R52, R80) -/

/-- Has every mesh write of the polder's units been answered. -/
def writesDone (s : State) (p : Nat) : Bool :=
  (liveUnits s p).all (fun u => !(getMif s u).outst.any (fun o => o.pkt.op == opWrite || o.pkt.op == opDwrite))

/-- Is the frame in progress of polder p complete. -/
def frameDone (s : State) (p : Nat) : Bool := (unended s p).isEmpty && writesDone s p

/-- The body of a FRAME entry (16 R539). -/
def frameBody (s : State) (p : Nat) (f : Frame) (cycles i : Nat) (e : BatchEnt) : List Byte :=
  toLe 8 f.num.toNat ++ toLe 4 e.pos.toNat ++ toLe 2 f.effDiv ++ toLe 1 (slowStep s p) ++ toLe 1 (frameFlags f) ++ toLe 4 cycles ++
    toLe 2 i ++ zeros 2

/-- A context at the completion of its frame (02 R80); THROTTLES counts frames that complete (R63; log 48, DESIGN CHOICE). -/
def ctxDone (throttled : Bool) (tick : Nat) (k : Ctx) : Ctx :=
  let left := k.left - 1
  let pos := BitVec.ofNat 32 (min (k.pos.toNat + k.adv.toNat) 0xFFFFFFFF)
  let k := { k with left := left, pos := pos, frames := k.frames + 1, throttles := if throttled then incCnt k.throttles else k.throttles }
  if k.parkPend then { k with state := 4, parkPend := false }
  else if left = 0 then { k with state := 1 }
  else { k with state := 2, readyTick := tick }

/-- The HALT_CAUSE of a POLDER_HALT that takes effect at the completion of the frame: HOST, or the abrupt cause of the mclk in which
it was taken (02 R73). -/
def completionCause (x : Polder) : Nat :=
  match x.abrupt with
  | c :: _ => if x.hostAt.isNone then c.toNat else 1
  | [] => 1

/-- FRAME_COMPLETE: the frame in progress of polder p completes. -/
def execFrameComplete (p : Nat) (s : State) : Out :=
  if p ≥ 256 then .fault (.noSuchObject p)
  else
    let s := overrunDue p s
    let x := getPolder s p
    match x.frame with
    | none => .next s
    | some f =>
      if x.state != 2 || !frameDone s p then .next s
      else
        let cycles := min (frameCycles s f) 0xFFFFFFFF
        let t := s.tick.count.toNat
        let s := trEvent 2 (f.batch.zipIdx.map (fun e => (e.1.ctx, frameBody s p f cycles e.2 e.1))) s
        let s := forEach (batchCtxs f) (fun c s => modCtx s c (ctxDone f.throttled t)) s
        let s := setPolder s p { x with frame := none, last := BitVec.ofNat 32 cycles, priorLast := x.last, nextTick := max f.deadline (t + 1),
                                        doneF := some { f with base := frameBase s p } }
        let s := hintSpent p f.start (preposEnd p f.num.toNat s)
        let s := forEach (liveMus s p) (fun u s => modMu s u errOut) s
        .next (if x.halting then haltedWith p (completionCause x) s else s)

/-! ## The tick generator's registers (02 R45, R47, R48) -/

/-- Is any polder RUNNING. -/
def anyRunning (s : State) : Bool := s.polders.any (fun e => e.2.state == 2)

/-- A write of TICK_PERIOD: status and state. -/
def tickPeriod (v : W32) (s : State) : Nat × State :=
  if anyRunning s then (stState, s)
  else (stOk, { s with tick := { s.tick with period := BitVec.ofNat 26 (max (v.toNat % 2 ^ 26) 1000), pendingP := true } })

/-- A write of TICK_CTRL; before READY a write of RUN answers BUSY, so that RUN is 0 at READY (15 R500; log 43, DEDUCED). -/
def tickCtrl (v : W32) (s : State) : Nat × State :=
  if v.getLsbD 0 && !s.boot.ready then (stBusy, s)
  else if !v.getLsbD 0 && s.tick.run && anyRunning s then (stState, s)
  else (stOk, { s with tick := { s.tick with run := v.getLsbD 0 } })

/-- A register write's outcome as a completion. -/
def regDone (h : Req) (r : Nat × State) : Out := .next (complete h r.1 [] r.2)

/-- TICK_PERIOD_WRITE. -/
def execTickPeriodWrite (h : Req) (v : W32) (s : State) : Out := regDone h (tickPeriod v s)
/-- TICK_RUN_SET. -/
def execTickRunSet (h : Req) (s : State) : Out := regDone h (tickCtrl 1 s)
/-- TICK_RUN_CLEAR. -/
def execTickRunClear (h : Req) (s : State) : Out := regDone h (tickCtrl 0 s)

end Sys2Proof.Machine
end

