-- ==== Sys2Proof/Machine/Treatment.lean ====
section
/-! DEFINITION. Treatment digests, the journal and sealing (16 R538 to R545), and the buffers in DRAM that commands copy
into (12 R431). Readings: log 31, DESIGN CHOICE; log 32, DESIGN CHOICE; log 42, DEDUCED. -/

namespace Sys2Proof.Machine

open Sys2Proof

/-! ## Buffers in DRAM -/

/-- Byte ranges a to a + n - 1 and b to b + m - 1 meet. -/
def overlaps (a n b m : Nat) : Bool := decide (n > 0) && decide (m > 0) && decide (a < b + m) && decide (b < a + n)

/-- The staging window while it is mapped (11 R392): base and size, of size 0 while EN is 0. -/
def stagingArea (s : State) : Nat × Nat := (s.conf.stageBase.toNat * 65536, if s.conf.stageEn then 0x10000000 else 0)

/-- The configuration archive: base and size. -/
def archiveArea (s : State) : Nat × Nat := (s.conf.archBase.toNat * 65536, s.conf.archSize.toNat * 65536)

/-- Does a range meet the staging area or the archive. -/
def inConfArea (s : State) (a n : Nat) : Bool :=
  overlaps a n (stagingArea s).1 (stagingArea s).2 || overlaps a n (archiveArea s).1 (archiveArea s).2

/-- The buffer checks of CTX_RECORD (12 R431): none where a copy of `need` bytes may go to a buffer of `size` bytes at a. A
buffer with a byte in a stack that is off answers PDOWN (log 31, DESIGN CHOICE). -/
def bufferStatus (s : State) (a size need : Nat) : Option Nat :=
  if a % 64 != 0 || size < need || !dramRange a size then some stAddr
  else if inConfArea s a size then some stPerm
  else if rangeOff s a need then some stPdown
  else none

/-- Copy words into DRAM, in pieces that lie in one stack. -/
def copyOut : Nat → Nat → List W64 → State → State
  | 0, _, _, s => s
  | n + 1, a, ws, s =>
    if ws.isEmpty then s
    else
      let k := (128 - a % 128) / 8
      copyOut n (a + 8 * k) (ws.drop k) (dramWrite (stackOf s a) a (ws.take k) s)

/-- Copy bytes into DRAM from a word boundary on, the last word filled with zeros. -/
def copyBytes (a : Nat) (bs : List Byte) (s : State) : State :=
  copyOut (bs.length / 128 + 2) a (bytesWords ((bs.length + 7) / 8) bs) s

/-- A command that copies bytes into its buffer: ARG1 address, ARG2 size (12 R431); RESULT is the length. -/
def copyCmd (q : Nat) (c : Cmd) (bs : List Byte) (s : State) : State :=
  let a := bitsOf c.a1.toNat 40 0
  match bufferStatus s a (bitsOf c.a2.toNat 31 0) bs.length with
  | some st => finish q st (if st = stAddr then bs.length else 0) s
  | none => finish q stOk bs.length (copyBytes a bs s)

/-! ## Bytes of records -/

/-- Bytes of an ASCII string. -/
def ascii (t : String) : List Byte := t.toList.map (fun c => BitVec.ofNat 8 c.toNat)

/-- An event counter as 8 bytes (00 R13). -/
def cntBytes (c : Cnt) : List Byte := toLe 8 (cntWord c).toNat

/-- The certificate's SERIAL (16 R530). -/
def serialBytes : List Byte := (List.range 16).map (fun i => Config.certByte (8 + i))

/-- A rectangle as R380 writes it. -/
def rectWord (r : Rect) : Nat := r.c0 + 64 * r.c1 + 4096 * r.r0 + 2 ^ 22 * r.r1

/-- The 64 bytes of RECT (11 R380). -/
def rectBytes (rs : List Rect) : List Byte := rs.flatMap (fun r => toLe 4 (rectWord r)) ++ zeros (64 - 4 * rs.length)

/-- The precision mode word of a polder's active configuration; zero where it has none. -/
def pmodeOf (x : Polder) : W32 := match x.cfg with | some c => c.pmode | none => 0

/-- The weight digest of a polder, zero while it is not VALID (16 R539). -/
def weightOf (x : Polder) : W512 := if x.wgtValid then x.wgtDigest else 0

/-! ## The digest chain (16 R538) -/

/-- An entry: its header and body. -/
def entryBytes (typ : Nat) (tick : W64) (body : List Byte) : List Byte :=
  [BitVec.ofNat 8 typ, 0] ++ toLe 2 body.length ++ zeros 4 ++ toLe 8 tick.toNat ++ body

/-- The next digest of the chain. -/
def chain (d : W512) (e : List Byte) : W512 := Config.shake256 (ascii "KMLYTRD1" ++ digestBytes d ++ e)

/-! ## The journal (16 R545) -/

/-- The prefix of a journal record. -/
def jnlPrefix (ctx len seq : Nat) (fill : Bool) : List Byte := toLe 8 (ctx + 2 ^ 15 * b2n fill + 2 ^ 16 * len + 2 ^ 32 * seq)

/-- Where a record of n bytes goes in a ring of `size` bytes: none where the space before HEAD does not hold it; else its
offset and whether a filler takes the tail. One word stays free, so that an equal HEAD and TAIL mean an empty ring (log 32, DESIGN CHOICE). -/
def jnlPlace (size head tail n : Nat) : Option (Nat × Bool) :=
  let space := (head + size - tail - 8) % size
  if tail + n ≤ size then (if n ≤ space then some (tail, false) else none)
  else if size - tail + n ≤ space then some (0, true)
  else none

/-- Does a stack that is off hold a byte of a record of n bytes at `off` of a journal ring, or of the filler's prefix at the tail: the
record then has no place (log 32, DESIGN CHOICE). -/
def jnlOff (s : State) (n off : Nat) (filler : Bool) : Bool :=
  let base := s.sec.jnlBase.toNat
  rangeOff s (base + off) n || (filler && rangeOff s (base + s.sec.jnlTail.toNat) 8)

/-- Append an entry of context c to the journal. -/
def journal (c : Nat) (e : List Byte) (s : State) : State :=
  let k := s.sec
  let size := k.jnlSize.toNat
  if size = 0 then s
  else
    let n := 8 + e.length
    match (jnlPlace size k.jnlHead.toNat k.jnlTail.toNat n).filter (fun x => !jnlOff s n x.1 x.2) with
    | none =>
      let s := modSec s (fun k => { k with jnlLost := incCnt k.jnlLost, flags := setBit k.flags 2 })
      modCtx s c (fun x => { x with shRec := { x.shRec with jnlGap := true } })
    | some (off, filler) =>
      let base := k.jnlBase.toNat
      let s := if filler then copyBytes (base + k.jnlTail.toNat) (jnlPrefix 0 (size - k.jnlTail.toNat - 8) 0 true) s else s
      let s := copyBytes (base + off) (jnlPrefix c e.length k.jnlSeq.toNat false ++ e) s
      modSec s (fun k => { k with jnlTail := BitVec.ofNat 30 ((off + n) % size), jnlSeq := k.jnlSeq + 1 })

/-! ## Applying entries (16 R541) -/

/-- Shallot's own counts for an entry of a type (16 R543). -/
def countEntry (typ : Nat) (r : OpenRec) : OpenRec :=
  if typ = 4 then { r with lost := incCnt r.lost }
  else if typ = 6 then { r with configs := satInc r.configs }
  else if typ = 7 then { r with wgtChg := satInc r.wgtChg }
  else r

/-- Apply an entry to context c. -/
def applyEntry (c typ : Nat) (tick : W64) (body : List Byte) (s : State) : State :=
  let e := entryBytes typ tick body
  journal c e (modCtx s c (fun x => { x with digest := chain x.digest e, shRec := countEntry typ x.shRec }))

/-- TREATMENT_ENTRY: the next entry of the first queued event is applied; the event leaves the queue with its last. -/
def execTreatmentEntry (s : State) : Out :=
  match s.sec.queue with
  | [] => .next s
  | ev :: rest =>
    match ev.ctxs with
    | [] => .next (modSec s (fun k => { k with queue := rest }))
    | (c, body) :: more =>
      let s := modSec s (fun k => { k with queue := if more.isEmpty then rest else { ev with ctxs := more } :: rest })
      .next (applyEntry c ev.typ ev.tick body s)

/-- Does an entry of context c wait in the queue. -/
def entryWaits (s : State) (c : Nat) : Bool := s.sec.queue.any (fun ev => ev.ctxs.any (fun e => e.1 == c))

/-- Contexts that wait to be sealed. -/
def sealsPending (s : State) : Nat := (s.ctxs.filter (fun e => e.2.state == 5)).length

/-! ## Sealing (16 R542, R543) -/

/-- The body of a CLOSE entry. -/
def closeBody (x : Ctx) : List Byte :=
  toLe 8 x.frames.toNat ++ cntBytes x.faults ++ cntBytes x.replays ++ cntBytes x.throttles ++ cntBytes x.overruns ++
    toLe 4 x.pos.toNat ++ [x.shRec.reason] ++ zeros 3

/-- Bytes 0x000 to 0x27F of the treatment record of context c, sealed at a tick in a polder. -/
def recordBody (c : Nat) (x : Ctx) (p : Polder) (tick : W64) : List Byte :=
  let r := x.shRec
  let flags := b2n r.unmeasured + 2 * b2n (!p.wgtValid) + 4 * b2n r.jnlGap
  toLe 4 0x43455254 ++ toLe 2 1 ++ zeros 2 ++ toLe 4 768 ++ zeros 4 ++ serialBytes ++
    toLe 2 c ++ toLe 1 x.polder.toNat ++ toLe 1 x.prio.toNat ++ toLe 4 r.pmode.toNat ++ toLe 8 x.tag.toNat ++
    toLe 8 r.openTick.toNat ++ toLe 8 tick.toNat ++ toLe 8 x.frames.toNat ++ toLe 4 x.pos.toNat ++ [r.reason] ++ toLe 1 flags ++ zeros 2 ++
    cntBytes x.faults ++ cntBytes x.replays ++ cntBytes x.throttles ++ cntBytes x.overruns ++ cntBytes r.lost ++
    toLe 4 r.configs.toNat ++ toLe 4 r.wgtChg.toNat ++ toLe 1 r.nrect ++ zeros 7 ++ rectBytes r.rects ++
    toLe 4 (pmodeOf p).toNat ++ zeros 52 ++ digestBytes r.cfgDigest ++ digestBytes p.cfgActive ++ digestBytes r.wgtDigest ++
    digestBytes (weightOf p) ++ digestBytes r.dOpen ++ digestBytes x.digest

/-- The whole record with its signature under the device identity key, 768 bytes in all. -/
def sealedBytes (s : State) (body : List Byte) : List Byte :=
  body ++ toLe 114 (Config.ed448Sign s.sec.dik "KMLYTRC1" true body).toNat ++ zeros 14

/-- SEAL: the CLOSE entry of a CLOSING context is applied once no entry of it waits, and its record is signed. -/
def execSeal (c : Nat) (s : State) : Out :=
  if c ≥ 8192 then .fault (.noSuchObject c)
  else if (getCtx s c).state != 5 || entryWaits s c then .next s
  else
    let s := applyEntry c 10 s.tick.count (closeBody (getCtx s c)) s
    let x := getCtx s c
    .next (setCtx s c { x with state := 6, record := sealedBytes s (recordBody c x (getPolder s x.polder.toNat) s.tick.count) })

/-! ## Opening (16 R539) -/

/-- The body of the OPEN entry of context c in polder p. -/
def openBody (c : Nat) (x : Ctx) (p : Polder) : List Byte :=
  serialBytes ++ toLe 2 c ++ toLe 1 x.polder.toNat ++ toLe 1 x.prio.toNat ++ toLe 4 (pmodeOf p).toNat ++ toLe 8 x.tag.toNat ++
    digestBytes p.cfgActive ++ digestBytes (weightOf p) ++ toLe 4 (b2n (!p.wgtValid)) ++ toLe 1 (rectsOf p).length ++ zeros 3 ++
    rectBytes (rectsOf p) ++ toLe 8 p.frames.toNat

/-- Start the digest of context c (16 R538): D after OPEN, and what the record keeps of the opening. -/
def startDigest (c : Nat) (s : State) : State :=
  let x := getCtx s c
  let p := getPolder s x.polder.toNat
  let r : OpenRec :=
    { prio := x.prio, pmode := pmodeOf p, openTick := s.tick.count, unmeasured := !p.wgtValid, nrect := (rectsOf p).length,
      rects := rectsOf p, cfgDigest := p.cfgActive, wgtDigest := weightOf p }
  let s := setCtx s c { x with digest := 0, shRec := r }
  let s := applyEntry c 1 s.tick.count (openBody c x p) s
  modCtx s c (fun x => { x with shRec := { x.shRec with dOpen := x.digest } })

/-- Every context that is not FREE or SEALED goes to CLOSING with FRAMES_LEFT cleared (14 R484, 15 R510); a seed write that is still to
come is given up, so that such a context has no seed (log 48, DESIGN CHOICE). -/
def closeAll (reason : Nat) (s : State) : State :=
  { s with ctxs := s.ctxs.map (fun e =>
      if e.2.state == 0 || e.2.state == 6 then e
      else if e.2.state == 5 then (e.1, { e.2 with left := 0, seedDue := false })
      else (e.1, { e.2 with state := 5, parkPend := false, left := 0, seedDue := false, shRec := { e.2.shRec with reason := BitVec.ofNat 8 reason } })) }

end Sys2Proof.Machine
end

