-- ==== Sys2Proof/Machine/Context.lean ====
section
/-! DEFINITION. The context commands (02 R79, 12 R429 to R431) and the seed table (03 R114). Readings: log 41, DEDUCED. -/

namespace Sys2Proof.Machine

open Sys2Proof

/-- The context a command names: ARG0 [12:0]. -/
def ctxArg (c : Cmd) : Nat := bitsOf c.a0.toNat 12 0

/-- The polder a command names: ARG0 [7:0]. -/
def polderArg (c : Cmd) : Nat := bitsOf c.a0.toNat 7 0

/-- CTX_OPEN: the settings are taken, counts start at zero, the mirror is written and translations of the context are
dropped (10 R351), Shallot starts the digest. -/
def execCtxOpen (q : Nat) (s : State) : Out :=
  hostCmd q 0x10 (fun c s =>
    let n := ctxArg c
    let p := bitsOf c.a0.toNat 23 16
    let a := bitsOf c.a1.toNat 40 0
    let pages := bitsOf c.a2.toNat 14 0
    if (getCtx s n).state != 0 || !([1, 2, 3].contains (getPolder s p).state) || (getPolder s p).releasing then refuseState q c false s
    else if pages > 16384 || a % 4096 != 0 || !dramRange a (8 * pages) then finish q stAddr 0 s
    else
      let x : Ctx :=
        { state := 1, polder := BitVec.ofNat 8 p, prio := BitVec.ofNat 4 (bitsOf c.a0.toNat 27 24), ptBase := BitVec.ofNat 29 (a / 4096),
          ptPages := BitVec.ofNat 15 pages, tag := c.a3, seedDue := true }
      let s := tlbDrop (some n) (mirrorWrite n x.ptBase x.ptPages (setCtx s n x))
      finish q stOk 0 (startDigest n s)) s

/-- CTX_SUBMIT; before the context's seed stands in the field controllers it answers BUSY (03 R114). -/
def execCtxSubmit (q : Nat) (s : State) : Out :=
  hostCmd q 0x11 (fun c s =>
    let n := ctxArg c
    let x := getCtx s n
    let left := bitsOf c.a1.toNat 15 0
    if x.state != 1 then refuseState q c false s
    else if left = 0 then finish q stAddr 0 s
    else if x.seedDue then finish q stBusy 0 s
    else
      finish q stOk 0 (setCtx s n { x with
        state := 2, left := BitVec.ofNat 16 left, adv := BitVec.ofNat 12 (bitsOf c.a1.toNat 27 16), readyTick := s.tick.count.toNat })) s

/-- CTX_PARK. -/
def execCtxPark (q : Nat) (s : State) : Out :=
  hostCmd q 0x12 (fun c s =>
    let n := ctxArg c
    let x := getCtx s n
    if x.state = 1 || x.state = 2 then finish q stOk 0 (setCtx s n { x with state := 4 })
    else if x.state = 3 then finish q stOk 0 (setCtx s n { x with parkPend := true })
    else refuseState q c false s) s

/-- CTX_UNPARK. -/
def execCtxUnpark (q : Nat) (s : State) : Out :=
  hostCmd q 0x13 (fun c s =>
    let n := ctxArg c
    let x := getCtx s n
    if x.state != 4 then refuseState q c false s
    else if x.left != 0 then finish q stOk 0 (setCtx s n { x with state := 2, readyTick := s.tick.count.toNat })
    else finish q stOk 0 (setCtx s n { x with state := 1 })) s

/-- CTX_PRIO. -/
def execCtxPrio (q : Nat) (s : State) : Out :=
  hostCmd q 0x14 (fun c s =>
    let n := ctxArg c
    let x := getCtx s n
    if [1, 2, 4].contains x.state then finish q stOk 0 (setCtx s n { x with prio := BitVec.ofNat 4 c.a1.toNat })
    else refuseState q c false s) s

/-- CTX_CLOSE: CLOSING, unless 128 seals are pending (16 R542). -/
def execCtxClose (q : Nat) (s : State) : Out :=
  hostCmd q 0x15 (fun c s =>
    let n := ctxArg c
    let x := getCtx s n
    if !([1, 2, 4].contains x.state) then refuseState q c false s
    else if sealsPending s ≥ 128 then finish q stBusy 0 s
    else finish q stOk 0 (setCtx s n { x with state := 5, left := 0, shRec := { x.shRec with reason := 0 } })) s

/-- CTX_RECORD: the record of a SEALED context is copied into the buffer. -/
def execCtxRecord (q : Nat) (s : State) : Out :=
  hostCmd q 0x16 (fun c s =>
    let x := getCtx s (ctxArg c)
    if x.state != 6 then refuseState q c false s else copyCmd q c x.record s) s

/-- Entry n of the master seed table and of every seed table in a field that is up. -/
def seedPut (n : Nat) (v : W64) (s : State) : State :=
  let put := fun (m : Map W64) => if v = 0 then merase m n else mput m n v
  { s with seeds := put s.seeds, fields := s.fields.map (fun e => (e.1, if e.2.up then { e.2 with seeds := put e.2.seeds } else e.2)) }

/-- CTX_FREE: the entry, its mirrors and its seeds are zeroed, its translations dropped. -/
def execCtxFree (q : Nat) (s : State) : Out :=
  hostCmd q 0x17 (fun c s =>
    let n := ctxArg c
    if (getCtx s n).state != 6 then refuseState q c false s
    else
      let s := tlbDrop (some n) (mirrorWrite n 0 0 { s with ctxs := merase s.ctxs n })
      finish q stOk 0 (seedPut n 0 s)) s

/-- The rounding seed of a context (03 R114): bytes 0 to 7 of its digest after OPEN; 1 in place of zero. -/
def openSeed (x : Ctx) : W64 :=
  let v := x.shRec.dOpen.truncate 64
  if v = 0 then 1 else v

/-- SEED_WRITE: the seed of a newly opened context is written into every field controller's table. -/
def execSeedWrite (c : Nat) (s : State) : Out :=
  if c ≥ 8192 then .fault (.noSuchObject c)
  else
    let x := getCtx s c
    if !x.seedDue then .next s else .next (seedPut c (openSeed x) (setCtx s c { x with seedDue := false }))

end Sys2Proof.Machine
end

