-- ==== Sys2Proof/Machine/Queue.lean ====
section
/-! DEFINITION. The registers of the command queues (12 R427, R437) and the mailboxes (12 R433 to R436). A register write
answers its status and the state it leaves. Readings: log 41, DEDUCED. -/

namespace Sys2Proof.Machine

open Sys2Proof

/-! ## Command queues -/

/-- A write of SQ_TAIL: one that would make more than 63 descriptors pending is refused. -/
def writeSqTail (q : Nat) (v : W32) (s : State) : Nat × State :=
  let x := getQ s q
  let t := BitVec.ofNat 6 v.toNat
  if ringCount x.sqHead.toNat x.sqTail.toNat + ringCount x.sqTail.toNat t.toNat > 63 then (stAddr, s)
  else (stOk, skipReserved 64 q (setQ s q { x with sqTail := t }))

/-- SQ_TAIL. -/
def execSqTail (h : Req) (q : Nat) (v : W32) (s : State) : Out :=
  if q ≥ 8 then .fault (.noSuchObject q) else regDone h (writeSqTail q v s)

/-- A write of CQ_HEAD. -/
def writeCqHead (q : Nat) (v : W32) (s : State) : Nat × State :=
  (stOk, skipReserved 64 q (modQ s q (fun x => { x with cqHead := BitVec.ofNat 6 v.toNat })))

/-- CQ_HEAD. -/
def execCqHead (h : Req) (q : Nat) (v : W32) (s : State) : Out :=
  if q ≥ 8 then .fault (.noSuchObject q) else regDone h (writeCqHead q v s)

/-! ## Mailboxes -/

/-- What refuses any access to mailbox n by a sender: its domain off, or sender 0 (R433). -/
def mbxRefuse (s : State) (n sender : Nat) : Option Nat :=
  if !domOn s n then some stPdown else if sender = 0 then some stPerm else none

/-- A read of MBX_LOCK: status, the value read, the state. -/
def readMbxLock (n sender : Nat) (s : State) : Nat × Nat × State :=
  match mbxRefuse s n sender with
  | some st => (st, 0, s)
  | none =>
    let m := getMbx s n
    if m.owner = 0 then (stOk, 0, setMbx s n { m with owner := BitVec.ofNat 8 sender }) else (stOk, m.owner.toNat, s)

/-- A write of MBX_LOCK: the owner's own number releases the lock, unless a message waits. -/
def writeMbxLock (n sender : Nat) (v : W32) (s : State) : Nat × State :=
  match mbxRefuse s n sender with
  | some st => (st, s)
  | none =>
    let m := getMbx s n
    if m.owner.toNat != sender || v.toNat % 256 != sender then (stPerm, s)
    else if m.full then (stState, s)
    else (stOk, setMbx s n { m with owner := 0 })

/-- A write of bytes into MBX_SLOT. -/
def writeMbxSlot (n sender off : Nat) (bs : List Byte) (s : State) : Nat × State :=
  match mbxRefuse s n sender with
  | some st => (st, s)
  | none =>
    let m := getMbx s n
    if m.owner.toNat != sender then (stPerm, s)
    else if m.full then (stBusy, s)
    else (stOk, setMbx s n { m with data := wrN m.data off bs })

/-- A write of MBX_SEND. -/
def writeMbxSend (n sender : Nat) (v : W32) (s : State) : Nat × State :=
  match mbxRefuse s n sender with
  | some st => (st, s)
  | none =>
    let m := getMbx s n
    let len := v.toNat % 512
    if m.owner.toNat != sender then (stPerm, s)
    else if m.full then (stBusy, s)
    else if len = 0 || len > 256 then (stAddr, s)
    else (stOk, setMbx s n { m with full := true, len := BitVec.ofNat 9 len })

/-- MBX_LOCK_READ. -/
def execMbxLockRead (h : Req) (n : Nat) (s : State) : Out :=
  if n ≥ 64 then .fault (.noSuchObject n)
  else
    let r := readMbxLock n h.sender s
    .next (complete h r.1 [BitVec.ofNat 64 r.2.1] r.2.2)

/-- MBX_LOCK_WRITE. -/
def execMbxLockWrite (h : Req) (n : Nat) (v : W32) (s : State) : Out :=
  if n ≥ 64 then .fault (.noSuchObject n) else regDone h (writeMbxLock n h.sender v s)

/-- Is an access of n bytes at offset off allowed in a slot of `size` bytes (12 R414). -/
def slotSize (off n size : Nat) : Bool := off % 8 == 0 && n % 8 == 0 && decide (8 ≤ n) && decide (n ≤ 256) && decide (off + n ≤ size)

/-- MBX_SLOT_WRITE. -/
def execMbxSlotWrite (h : Req) (n off : Nat) (data : List W64) (s : State) : Out :=
  if n ≥ 64 then .fault (.noSuchObject n)
  else if !slotSize off (8 * data.length) 256 then regDone h (stAddr, s)
  else regDone h (writeMbxSlot n h.sender off (wordsBytes data) s)

/-- MBX_SEND. -/
def execMbxSend (h : Req) (n : Nat) (v : W32) (s : State) : Out :=
  if n ≥ 64 then .fault (.noSuchObject n) else regDone h (writeMbxSend n h.sender v s)

/-- MBX_EMPTY: field controller n takes the message that waits in its mailbox. -/
def execMbxEmpty (n : Nat) (s : State) : Out :=
  if n ≥ 64 then .fault (.noSuchObject n)
  else
    let m := getMbx s n
    if !m.full || !(getField s n).up then .next s
    else .next (raise 0x11 none none none (n + 2 ^ 8 * m.owner.toNat) (setMbx s n { m with full := false }))

end Sys2Proof.Machine
end

