-- ==== Sys2Proof/Machine/PolderCmd.lean ====
section
/-! DEFINITION. The commands that change a polder's state (02 R71 to R73, R48, R51): start, halt, resume, reset, release.
Readings: log 41, DEDUCED. -/

namespace Sys2Proof.Machine

open Sys2Proof

/-! ## Start, halt, resume -/

/-- Polder p runs: its next frame is due at the next wafer tick. -/
def runs (p : Nat) (s : State) : State :=
  modPolder s p (fun x => { x with state := 2, cause := 0, halting := false, abrupt := [], nextTick := s.tick.count.toNat + 1 })

/-- POLDER_START: a budget above the bound of 02 R51 is refused with reason BUDGET. -/
def execPolderStart (q : Nat) (s : State) : Out :=
  hostCmd q 0x02 (fun c s =>
    let p := polderArg c
    let x := getPolder s p
    let fits := match x.cfg with | some k => budgetFits k (nextPeriod s) | none => false
    if x.state != 1 || x.releasing || !s.tick.run then refuseState q c false s
    else if !fits then refuseState q c true s
    else finish q stOk 0 (runs p s)) s

/-- POLDER_HALT: HALTED at once between frames, else at the completion of the frame in progress, when the command completes;
one taken while a halt is pending completes with OK (R73). -/
def execPolderHalt (q : Nat) (s : State) : Out :=
  hostCmd q 0x03 (fun c s =>
    let p := polderArg c
    let x := getPolder s p
    if x.state != 2 then refuseState q c false s
    else if x.halting || !x.abrupt.isEmpty then finish q stOk 0 s
    else if x.frame.isSome then setPolder s p { x with halting := true, hostAt := some (mclk s) }
    else haltedWith p 1 (modPolder s p (fun x => { x with hostAt := some (mclk s) }))) s

/-- Is a field with units or static lanes of polder p down. -/
def polderDown (s : State) (p : Nat) : Bool := (List.range 64).any (fun f => (polderIn s p f || transitIn s p f) && fieldDown s f)

/-- Polder p is resumed: own waiters are removed (08 R303). -/
def resumed (p : Nat) (s : State) : State := runs p (dropOwn p s)

/-- POLDER_RESUME (R71; 14 R476, 15 R519): the dikewatch record of a halted frame is completed first. -/
def execPolderResume (q : Nat) (s : State) : Out :=
  hostCmd q 0x04 (fun c s =>
    let p := polderArg c
    let x := getPolder s p
    if x.state != 3 || x.releasing || !s.tick.run || x.dead || x.evacUnits then refuseState q c false s
    else if polderDown s p then finish q stPdown 0 s
    else finish q stOk 0 (resumed p (dikewatchDone p s))) s

/-! ## Reset and release -/

/-- POLDER_RESET: a frame that awaits replay is lost (R81), a pending swap ends with STATE, dirty lines are written back; RESETTING
until the reload (Reset.resetTick). -/
def execPolderReset (q : Nat) (s : State) : Out :=
  hostCmd q 0x05 (fun c s =>
    let p := polderArg c
    let x := getPolder s p
    if !([1, 3].contains x.state) || x.releasing || x.dead then refuseState q c false s
    else
      let s := cancelSwap p stState (dropAwait p (dikewatchDone p s))
      flushPolder p (modPolder s p (fun x => { x with state := 4, cause := 0, halting := false, abrupt := [] }))) s

/-- Has polder p a context that is neither FREE nor SEALED. -/
def hasContexts (s : State) (p : Nat) : Bool := !(ctxsOf s p [1, 2, 3, 4, 5]).isEmpty

/-- POLDER_RELEASE: VACANT at once where no dirty line is to be written back, else when that is done (05 R196). -/
def execPolderRelease (q : Nat) (s : State) : Out :=
  hostCmd q 0x06 (fun c s =>
    let p := polderArg c
    let x := getPolder s p
    if !([1, 3].contains x.state) || x.releasing || hasContexts s p then refuseState q c false s
    else
      let s := modPolder (cancelSwap p stState (dropAwait p (dikewatchDone p s))) p (fun x => { x with releasing := true })
      if polderDirty s p then flushPolder p s else releaseEnd p s) s

end Sys2Proof.Machine
end

