-- ==== Sys2Proof/Machine/Domains.lean ====
section
/-! DEFINITION. Power domains (14 R458 to R461, R475): a field comes on and goes down, stacks, quadrants, the Nimmos ports; the
fault map (15 R504) and the row map (01 R22). Readings: log 38, DEDUCED; log 39, DEDUCED. -/

namespace Sys2Proof.Machine

open Sys2Proof

/-- Chain of a unit: 0 CC, 1 MU, 2 SFU. -/
def chainOf (u : Nat) : Nat := if isMu u then 1 else if isSfu u then 2 else 0

/-- Type index of a unit (01 R17). -/
def typeIndex (u : Nat) : Nat :=
  let lx := localX u
  let k := lx / 12
  let r := lx % 12
  if r = 5 || r = 6 then k else if r ≤ 4 then 10 * k + r else 10 * k + r - 2

/-- The faults whose shift is still to come. -/
def pendingFaults (s : State) : List FaultRec := (match s.boot.repair with | some r => r.faults | none => []) ++ s.boot.later

/-- Row r of field f as its units are still served: without the faults whose shift is to come, with the slots that RPR_CLEAR has
cleared since the last remap (15 R507). -/
def servedRow (s : State) (f r : Nat) : RowMap :=
  withoutCleared s f r
    ((pendingFaults s).foldl (fun x y => if fieldOf y.unit = f && y.prow = r then slotClear y.chain y.slot x else x) (fmapRow s f r))

/-- Physical row and serving slot of a unit. -/
def siteOf (s : State) (u : Nat) : Nat × Nat :=
  let r := physRow s (fieldOf u) (localY u)
  (r, (usableSlots (servedRow s (fieldOf u) r) (chainOf u)).getD (typeIndex u) 0)

/-- Field f is fenced whole (01 R25, 15 R496). -/
def fenceField (f : Nat) (s : State) : State := mapChange (fun m => { m with fenced := setBit m.fenced f }) s

/-! ## The field controllers' firmware (15 R496, 07 R274) -/

/-- The field-controller image of the Marrow image that runs. -/
def fcImage (s : State) : List W64 := ((if s.boot.runB then s.boot.imgB.fc else s.boot.imgA.fc)).take 20480

/-- The field controllers that a group of the management complex names (07 R274): X0 to X1 of an entry with Y0 = Y1 = 1022. -/
def groupFcs (g : W64) : List Nat :=
  if bitsOf g.toNat 19 10 = 1022 && bitsOf g.toNat 39 30 = 1022 then (span (bitsOf g.toNat 9 0) (bitsOf g.toNat 29 20)).filter (fun f => decide (f < 64))
  else []

/-- The group that names field controllers X0 to X1. -/
def fcGroup (x0 x1 : Nat) : W64 := BitVec.ofNat 64 (x0 + 2 ^ 10 * 1022 + 2 ^ 20 * x1 + 2 ^ 30 * 1022 + 2 ^ 40 * 3)

/-- Has field controller f its supply. -/
def fcPowered (s : State) (f : Nat) : Bool := (getField s f).up || (getField s f).starting || (getField s f).resetPhase != 0

/-- A multicast WRITE of the management complex to the field controllers of its group g: one WRITE to each, of words from byte address a
of its SRAM on, which lands at once (log 42, DEDUCED). -/
def fcMulticast (g a : Nat) (ws : List W64) (s : State) : State :=
  forEach ((groupFcs (mget 0 s.mgcGroups g)).filter (fcPowered s)) (fun f s =>
    modField s f (fun x => { x with fcSram := wrN x.fcSram a (wordsBytes ws) })) s

/-- Field controller f verifies the digest of the image in its SRAM and starts it. -/
def fcStart (f : Nat) (s : State) : State :=
  let bs := wordsBytes (fcImage s)
  modField s f (fun x =>
    { x with firmware := if Config.shake256 (rdN x.fcSram 0 bs.length) == Config.shake256 bs then some (Config.shake256 bs) else none })

/-- Marrow loads the field controllers X0 to X1 through group 0 of the management complex, and they start. -/
def fcLoad (x0 x1 : Nat) (s : State) : State :=
  let s : State := { s with mgcGroups := mput s.mgcGroups 0 (fcGroup x0 x1) }
  let s := fcMulticast 0 0 (fcImage s) s
  forEach ((span x0 x1).filter (fcPowered s)) fcStart s

/-! ## A field comes on (14 R461) -/

/-- Field f begins to start: its domain is STARTING, and its regulator ramps to the S3 set point. -/
def fieldStart (f : Nat) (s : State) : State :=
  modDom (modField s f (fun x => { x with starting := true, draining := false, why := .none, setPoint := stepSupply s f 3 })) f
    (fun d => { d with st := 3, regFault := false })

/-- The units and switches of polder p in field f take their active configuration again from the archive (11 R392), from reset. -/
def restorePolder (f p : Nat) (s : State) : State :=
  match (getPolder s p).cfg with
  | none => s
  | some c =>
    let c := fromArchive s c
    let us := (rectUnits c.rects).filter (fun u => fieldOf u == f)
    let s0 := s
    let s := forEach us (fun u s => keepDramErr s0 u (unitActivate c.pmode u (unitCfg c u) s)) s
    forEach (c.switches.filter (fun e => fieldOf e.1 == f)) (fun e s =>
      modSw s e.1 (switchSet p (us.contains e.1) e.2)) s

/-- The polders that are not VACANT, rising. -/
def poldersHeld (s : State) : List Nat := (s.polders.filter (fun e => e.2.state != 0)).map (·.1)

/-- The field controller's registers at their reset values (08 R311, 17 R559). -/
def fcReset (x : Field) : Field :=
  fcsReset { x with probeMisses := {}, probeFrom := 0, probes := [], sensMax := List.replicate 16 0, waiters := [] }

/-- Marrow and the field controller restore field f (14 R461 steps 3, 4; 03 R115; 08 R304); the controller has started its firmware. -/
def fieldRestore (f : Nat) (s : State) : State :=
  let s := fcLoad f f s
  let s := forEach (poldersHeld s) (restorePolder f) s
  let s := if (getField s f).saved then s else objsLost f s
  modField s f (fun x => { fcReset x with seeds := s.seeds, saved := false })

/-- The configuration slots of polders with an MU in field f become invalid (14 R461). -/
def slotsLost (f : Nat) (s : State) : State :=
  archiveTrim (forEach ((poldersHeld s).filter (fun p => polderIn s p f)) (fun p s =>
    weightsInvalid p (modPolder s p (fun x => { x with slotValid := 0, active := 7 }))) s)

/-- Field f is up, at S3; a row that a fault has exhausted while the field was down is fenced (15 R521, 01 R20). -/
def fieldComesUp (f : Nat) (s : State) : State :=
  let s := fieldRestore f (unitsOff f s)
  let s := modField s f (fun x => { x with up := true, starting := false, draining := false, step := 3, acc := 0, cclk := 0, change := none,
                                           resetPhase := 0, dark := false, held := false, setPoint := stepSupply s f 3,
                                           supply := stepSupply s f 3 })
  let s := modDom s f (fun d => { d with st := 1 })
  armDown (fenceSpent f (recross f (slotsLost f s)))

/-- Unit shifts of field f that waited for it to come up take effect (15 R521): its units stand on their usable slots. The memory of a
unit that moves so in a field reset stays as it was (log 38, DEDUCED). -/
def shiftField (f : Nat) (s : State) : State :=
  let mine := fun (u : Nat) => isUnit u && fieldOf u == f
  fenceSpent f { s with
    cores := s.cores.map (fun e => (e.1, if mine e.1 then { e.2 with fenced := false } else e.2)),
    mus := s.mus.map (fun e => (e.1, if mine e.1 then { e.2 with fenced := false } else e.2)),
    sfus := s.sfus.map (fun e => (e.1, if mine e.1 then { e.2 with fenced := false } else e.2)) }

/-- The end of a field reset (15 R509 steps 4, 5): the logic of field f is restored and the field is up at its step. Its crossings have
kept running (01 R14). -/
def fieldResetEnd (f : Nat) (s : State) : State :=
  let s := shiftField f (forEach (poldersHeld s) (restorePolder f) (fcLoad f f s))
  let s := modField s f (fun x => { fcReset x with seeds := s.seeds, saved := false, up := true, resetPhase := 0 })
  finishWhere (isFieldReset f) stOk (armDown s)

/-- FIELD_UP: a starting field has completed its power-up (14 R461), or a field in reset its reset (15 R509). -/
def execFieldUp (f : Nat) (s : State) : Out :=
  if f ≥ 64 then .fault (.noSuchObject f)
  else if (getField s f).resetPhase = 2 then .next (fieldResetEnd f s)
  else if !(getField s f).starting then .next s
  else .next (fieldComesUp f s)

/-! ## A field goes down (14 R475 to R477) -/

/-- A field at S4 by CEIL comes back on once CEIL is no longer 4 (R477). -/
def ceilReturn (f : Nat) (s : State) : State :=
  let x := getField s f
  if x.why == .ceil && x.ceil != 4 && !x.up && !x.starting && (getDom s f).st == 0 then fieldStart f s else s

/-- The memory units of field f. -/
def fieldMus (s : State) (f : Nat) : List Nat := (s.mus.filter (fun e => fieldOf e.1 == f)).map (·.1)

/-- The dirty lines of the MUs of field f are written back at once (log 29, DEDUCED). -/
def flushField (f : Nat) (s : State) : State :=
  forEach (fieldMus s f) unitOut s

/-- DRAIN_DONE: the drain of an evacuating field is complete once no MU of it has a dirty line or a write-back under way (14 R475
step 2): it is down and its domain off. Lines dirtied since are written back first. -/
def execDrainDone (f : Nat) (s : State) : Out :=
  if f ≥ 64 then .fault (.noSuchObject f)
  else if !(getField s f).draining then .next s
  else if (fieldMus s f).any (fun u => muDirty (getMu s u) || wbackOut s u) then .next (forEach (fieldMus s f) flushUnit s)
  else .next (ceilReturn f (fieldGone f (modField s f (fun x => { x with saved := true }))))

/-- THERMAL_RESTART: a field at S4 for heat has read below T_COOL for 1 s. -/
def execThermalRestart (f : Nat) (s : State) : Out :=
  if f ≥ 64 then .fault (.noSuchObject f)
  else
    let x := getField s f
    if x.why == .thermal && !x.up && !x.starting && x.ceil != 4 && decide (x.baseTemp.toNat < s.power.tCool.toNat) && s.boot.ready then
      .next (fieldStart f s)
    else .next s

/-! ## Stacks, quadrants, Nimmos ports -/

/-- Stack n is off: its bit in MEM_STACKS and its contents are gone (10 R371, R372). -/
def stackOff (n : Nat) (s : State) : State :=
  let s := modDom s (64 + n) (fun d => { d with st := 0 })
  { s with stackBits := clrBit s.stackBits n, dram := s.dram.filter (fun e => stackOf s e.1 != n),
           badGranules := s.badGranules.filter (fun g => stackOf s (64 * g) != n) }

/-- Stack n is to be trained. -/
def stackStart (n : Nat) (s : State) : State := modDom s (64 + n) (fun d => { d with st := 3, regFault := false })

/-- The mirror of a MEC holds the page table of every context that is not FREE (10 R351). -/
def mirrorOfAll (s : State) : Map (BitVec 29 × BitVec 15) :=
  (s.ctxs.filter (fun e => e.2.state != 0 && e.2.ptPages != 0)).map (fun e => (e.1, (e.2.ptBase, e.2.ptPages)))

/-- The MECs of a list are reset with their stream engines (10 R374, R375), whose assignment the management complex keeps (log 48, DESIGN
CHOICE). -/
def mecsReset (l : List Nat) (s : State) : State :=
  forEach l (fun n s =>
    let s := setMec s n { mirror := mirrorOfAll s }
    let fresh := fun (x : Se) => ({ owner := x.owner, assigned := x.assigned, cfg := x.cfg, pfdepth := x.pfdepth } : Se)
    { s with mifs := merase s.mifs (mecId n), ses := s.ses.map (fun e => (e.1, if e.1 / 16 == n then fresh e.2 else e.2)) }) s

/-- Quadrant q is on: its MECs and span ports start (R459). -/
def quadOn (q : Nat) (s : State) : State :=
  let s := modDom s (96 + q) (fun d => { d with st := 1, regFault := false })
  let s := mecsReset (span (8 * q) (8 * q + 7)) s
  forEach (span (4 * q) (4 * q + 3)) spanTrain s

/-- Quadrant q is off: its span links are DOWN (13 R454), and its MECs serve and await nothing on the ring (10 R340). -/
def quadOff (q : Nat) (s : State) : State :=
  let s := spanOff (span (4 * q) (4 * q + 3)) s
  let s := { s with ring := s.ring.filter (fun m => m.dest / 8 != q && m.origin / 8 != q) }
  let s := mecsReset (span (8 * q) (8 * q + 7)) s
  modDom s (96 + q) (fun d => { d with st := 0 })

/-- The Nimmos ports are off: the host has lost the module (12 R422). -/
def linksOff (s : State) : State :=
  let s := forEach [0, 1] (fun p s =>
    lostFrames p (modPort s p (fun x => { portDown x with ackSent := none, failSent := none, failDone := true }))) s
  modDom (loseAccesses s) 100 (fun d => { d with st := 0 })

/-- The Nimmos ports are on and may train. -/
def linksOn (s : State) : State := forEach [0, 1] linkTrain (modDom s 100 (fun d => { d with st := 1, regFault := false }))

/-! ## All domains (14 R480, 15 R510) -/

/-- A field without its supply: what the management complex keeps of it stays. -/
def fieldDark (x : Field) : Field :=
  { step := 4, ceil := x.ceil, hold := x.hold, temp := x.temp, ehint := x.ehint, ptick := x.ptick, steps := x.steps,
    breachN := x.breachN, clearN := x.clearN, suspectN := x.suspectN, hotN := x.hotN, baseTemp := x.baseTemp, rowMap := x.rowMap }

/-- Every field is off, and the nets of the wafer are empty. -/
def fieldsOff (s : State) : State :=
  let s := { s with fields := (List.range 64).map (fun f => (f, fieldDark (getField s f))), crossings := [], cores := [], sfus := [],
                    mus := [], switches := [], routers := [], mifs := [], flights := [], mcRows := [], ring := [] }
  let s := modHost s (fun h => { h with accesses := [] })
  forEach (List.range 64) (fun f s => modDom s f (fun d => { d with st := 0 })) s

/-- Configuration commands, swaps and route epoch changes under way are given up (14 R480). -/
def configAbandon (s : State) : State :=
  let s : State := { s with polders := s.polders.map (fun e => (e.1, { e.2 with staging := none, staged := false, swapPend := false })) }
  modConf { s with epoch := { s.epoch with armed := false, draining := false, drained := false, expired := false, queue := none, due := false, built := none } }
    (fun k => { k with busy := false })

end Sys2Proof.Machine
end

