-- ==== Sys2Proof/Machine/Governor.lean ====
section
/-! DEFINITION. Telemetry (14 R464, R465) and the power governor (14 R466 to R474). Powers are in quarters of a watt where a
register holds them so; comparisons are exact. Readings: log 39, DEDUCED. -/

namespace Sys2Proof.Machine

open Sys2Proof

/-! ## Telemetry -/

/-- A value that a 16-bit register holds at most. -/
def clamp16 (n : Nat) : Nat := min n 65535

/-- REGULATOR_REPORT: domain d (101 is AO) reports its voltage in mV and its current in tenths of an ampere. -/
def execRegulatorReport (d mv da : Nat) (s : State) : Out :=
  if d > 101 then .fault (.noSuchObject d)
  else
    let p := clamp16 (mv * da * 4 / 10000)
    .next (modDom s d (fun x =>
      { x with volt := BitVec.ofNat 16 mv, curr := BitVec.ofNat 16 da, pnow := BitVec.ofNat 16 p,
               ppeak := BitVec.ofNat 16 (max x.ppeak.toNat p), sum := x.sum + p, n := x.n + 1, stale := false }))

/-- REGULATOR_STALE: domain d has sent no report for 100 µs. -/
def execRegulatorStale (d : Nat) (s : State) : Out :=
  if d > 101 then .fault (.noSuchObject d)
  else if (getDom s d).stale then .next s
  else
    let s := modPower (modDom s d (fun x => { x with stale := true })) (fun w => { w with flags := setBit w.flags 1 })
    .next (raise 0x72 none none none (d + 128) s)

/-- REG_FAULT: a regulator switches its domain off at once; a field goes to S4 at the next tick (14 R465, 08 R304). -/
def execRegFault (d : Nat) (s : State) : Out :=
  if d > 100 then .fault (.noSuchObject d)
  else if (getDom s d).regFault then .next s
  else
    let s0 := s
    let s := modPower (modDom s d (fun x => { x with regFault := true })) (fun w => { w with flags := setBit w.flags 8 })
    let s := raise 0x73 none none none d s
    let s :=
      if d < 64 then
        let x := getField s d
        let s := dropWaiters (fun g _ => g == d) (modDom s d (fun x => { x with st := 0 }))
        if x.up then
          modField (fieldPowerLost d s) d (fun x =>
            { x with draining := false, dark := true, change := some { target := 4, why := .regulator, wait := 0 } })
        else
          let s := if x.resetPhase = 0 then s else fieldGone d s
          modField s d (fun x => { x with starting := false, why := .regulator, setPoint := 0, supply := 0 })
      else if d < 96 then stackOff (d - 64) s
      else if d < 100 then quadOff (d - 96) s
      else linksOff s
    .next (eventsByCode s0 s)

/-! ## Hints (14 R466) -/

/-- The step scale K (R462), in 1/256. -/
def scaleK (step : Nat) : Nat := if step = 0 then 256 else if step = 1 then 190 else if step = 2 then 136 else if step = 3 then 77 else 0

/-- The PWR_HINT that covers a frame of polder p which starts at tick t, with `spent` frames still to be taken off it. -/
def hintAt (s : State) (p f t spent : Nat) : Option Nat :=
  (s.power.hints.find? (fun h => h.p == p && h.f == f && decide (h.start ≤ t) && decide (h.left > spent))).map (·.hint)

/-- The hint of polder p for field f in frame n, which starts at tick t, in units of 4 W. -/
def hintOf (s : State) (p f n t spent : Nat) : Nat :=
  match (getPolder s p).cfg with
  | none => 0
  | some c =>
    match hintAt s p f t spent with
    | some h => h
    | none =>
      match c.heavy.find? (fun h => h.field == f && isHeavy h n) with
      | some h => h.hint
      | none => c.hint.getD f 0

/-- H_F of the frames running in field f, in units of 4 W. -/
def fieldHint (s : State) (f : Nat) : Nat :=
  ((poldersIn s 2).filter (fun p => polderIn s p f)).foldl (fun a p =>
    match (getPolder s p).frame with
    | some fr => a + hintOf s p f fr.num.toNat fr.start 0
    | none => a) 0

/-- The hint of the next frames in field f, with what is pre-positioned. -/
def nextHint (s : State) (f : Nat) : Nat :=
  ((poldersIn s 2).filter (fun p => polderIn s p f)).foldl (fun a p =>
    let x := getPolder s p
    let covered := match x.frame with | some fr => s.power.hints.any (fun h => h.p == p && h.f == f && decide (h.start ≤ fr.start)) | none => false
    let pre := (((getField s f).prepos.filter (fun e => e.1 == p)).map (·.2.2)).foldl max 0
    a + max (hintOf s p f (x.frames.toNat + 1) x.nextTick (b2n covered)) pre) 0

/-! ## The governor's view of a tick -/

/-- A field is running: up, at S0 to S3, not evacuating. -/
def fieldRuns (x : Field) : Bool := x.up && !x.draining && decide (x.step < 4)

/-- Take a temperature reading: sensor 16 is the base-wafer sensor. -/
def takeReading (r : Reading) (s : State) : State :=
  modField s r.field (fun x =>
    if r.sensor < 16 then
      { x with sensNow := lset x.sensNow r.sensor (BitVec.ofNat 8 r.degC),
               sensMax := lmod x.sensMax r.sensor (fun m => BitVec.ofNat 8 (max m.toNat r.degC)) }
    else { x with baseTemp := BitVec.ofNat 8 r.degC })

/-- Temperature of a field (R471). -/
def fieldTemp (x : Field) : Nat := if x.up then x.sensNow.foldl (fun m t => max m t.toNat) 0 else x.baseTemp.toNat

/-- A domain's average over the tick; without a report it stays. -/
def domTick (d : Dom) : Dom :=
  if d.n = 0 then d else { d with ptick := BitVec.ofNat 16 (d.sum / d.n), sum := 0, n := 0 }

/-- Thresholds lowered by the coolant warning (R471). -/
def lowered (s : State) (t : BitVec 8) : Nat := t.toNat - (if s.power.coolWarn then 10 else 0)

/-- Decisions of a governor tick: field, target, reason. -/
abbrev Decisions := List (Nat × Nat × Down)

/-- May a decision be taken for field f: it runs, none of an earlier tick is pending, none of this one is taken. -/
def mayDecide (s : State) (d : Decisions) (f : Nat) : Bool :=
  fieldRuns (getField s f) && (getField s f).change.isNone && !d.any (fun e => e.1 == f)

/-- Fields for which a decision may be taken. -/
def openFields (s : State) (d : Decisions) : List Nat := (List.range 64).filter (mayDecide s d)

/-- Rule 1. -/
def ruleCritical (s : State) (d : Decisions) : Decisions :=
  d ++ ((openFields s d).filter (fun f => decide (fieldTemp (getField s f) ≥ lowered s s.power.tEvac))).map (fun f => (f, 4, Down.thermal))

/-- Rule 2. -/
def ruleCeil (s : State) (d : Decisions) : Decisions :=
  d ++ ((openFields s d).filter (fun f => decide ((getField s f).step < (getField s f).ceil))).map (fun f =>
    (f, (getField s f).ceil, if (getField s f).ceil = 4 then Down.ceil else .none))

/-- The first of a list with the largest measure. -/
def argMax (m : Nat → Nat) (l : List Nat) : Option Nat :=
  l.foldl (fun best f => match best with | none => some f | some b => if m f > m b then some f else best) none

/-- Rule 3 (R471): the decision for the hottest field, if any. -/
def ruleThermal (s : State) (d : Decisions) : Decisions :=
  match argMax (fun f => fieldTemp (getField s f))
      ((openFields s d).filter (fun f => decide (fieldTemp (getField s f) ≥ lowered s s.power.tHot))) with
  | none => d
  | some f =>
    let x := getField s f
    if x.step < 3 then d ++ [(f, x.step + 1, .none)] else if x.hotN ≥ 64 then d ++ [(f, 4, .thermal)] else d

/-- The consecutive ticks at or above T_HOT of each field. -/
def hotCounts (s : State) : State :=
  { s with fields := s.fields.map (fun e =>
      (e.1, { e.2 with hotN := if e.2.up && decide (fieldTemp e.2 ≥ lowered s s.power.tHot) then e.2.hotN + 1 else 0 })) }

/-- Rule 4 in one field (R470): counts, flags, events and the decision. -/
def breachField (f : Nat) (r : Decisions × State) : Decisions × State :=
  let (d, s) := r
  let x := getField s f
  let q := 16 * fieldHint s f * scaleK x.step
  let p := (getDom s f).ptick.toNat
  if !fieldRuns x || q = 0 then
    (d, setField s f { x with breachN := 0, suspectN := 0, clearN := x.clearN + 1, hold := x.hold && decide (x.clearN + 1 < 64) })
  else
    let above := decide (4 * p * 256 > 5 * q)
    let low := decide (2 * p * 256 < q)
    let n := if above then x.breachN + 1 else 0
    let x := { x with breachN := n, clearN := if above then 0 else x.clearN + 1, suspectN := if low then x.suspectN + 1 else 0 }
    let x := { x with hold := x.hold && decide (x.clearN < 64) }
    let (d, s) :=
      if n ≥ 8 then
        let s := setField s f { x with breachN := 0, hold := true }
        let s := raise 0x71 none none none (f + 2 ^ 16 * (p / 4)) (modPower s (fun w => { w with flags := setBit w.flags 0 }))
        (if mayDecide s d f && decide (x.step < 3) then d ++ [(f, x.step + 1, .none)] else d, s)
      else (d, setField s f x)
    if x.suspectN ≥ 64 && !(getDom s f).suspect then
      let s := modField (modDom s f (fun y => { y with suspect := true })) f (fun y => { y with suspectN := 0 })
      (d, raise 0x72 none none none f (modPower s (fun w => { w with flags := setBit w.flags 1 })))
    else (d, s)

/-- The step a field is to run at after the decisions. -/
def targetOf (s : State) (d : Decisions) (f : Nat) : Nat :=
  match d.find? (fun e => e.1 == f) with
  | some e => e.2.1
  | none => match (getField s f).change with | some c => c.target | none => (getField s f).step

/-- The present power of a running field that the projection scales (R473), in 1/256 of a quarter watt. -/
def powerNow (s : State) (f : Nat) : Nat :=
  let x := getField s f
  let d := getDom s f
  let p := 256 * d.ptick.toNat
  let e := 16 * fieldHint s f * scaleK x.step
  max (if d.suspect || d.stale then max p e else p) (16 * nextHint s f * scaleK x.step)

/-- PF' of a field at its target, in 1/256 of a quarter watt; a field without a clock counts with its measured average. -/
def powerTo (s : State) (f t : Nat) : Nat :=
  let k := scaleK (getField s f).step
  if (getDom s f).st == 0 then 0 else if k = 0 then 256 * (getDom s f).ptick.toNat else powerNow s f * scaleK t / k

/-- The projected power (R473), in 1/256 of a quarter watt. -/
def projected (s : State) (d : Decisions) : Nat :=
  256 * (span 64 101).foldl (fun a k => a + (getDom s k).ptick.toNat) 0 +
    (List.range 64).foldl (fun a f => a + powerTo s f (targetOf s d f)) 0

/-- The cap in 1/256 of a quarter watt. -/
def capNow (s : State) : Nat := 256 * 4 * 50 * s.power.cap.toNat

/-- Rule 5 (R473): step fields down, the one with the largest PF' first; is the cap unmet. -/
def ruleCap (s : State) : Nat → Decisions → Decisions × Bool
  | 0, d => (d, decide (projected s d > capNow s))
  | n + 1, d =>
    if projected s d ≤ capNow s then (d, false)
    else
      match argMax (fun f => powerTo s f (getField s f).step) ((openFields s d).filter (fun f => decide ((getField s f).step < 3))) with
      | none => (d, true)
      | some f => ruleCap s n (d ++ [(f, (getField s f).step + 1, .none)])

/-- The candidate of rule 6 (R472): the coolest field that may step up. -/
def upCandidate (s : State) (d : Decisions) : Option Nat :=
  argMax (fun f => 255 - fieldTemp (getField s f)) ((openFields s d).filter (fun f =>
    let x := getField s f
    decide (1 ≤ x.step) && decide (x.step > x.ceil) && !x.hold && decide (fieldTemp x < s.power.tCool.toNat)))

/-- Rule 6: the decision, and is a step up withheld. -/
def ruleUp (s : State) (d : Decisions) : Decisions × Bool :=
  match upCandidate s d with
  | none => (d, false)
  | some f =>
    let d' := d ++ [(f, (getField s f).step - 1, .none)]
    if 20 * projected s d' ≤ 19 * capNow s then (d', false) else (d, true)

/-- Where the second M-core decided otherwise, the slower step of the two holds (R468). -/
def joinCores (s : State) (other : List Decision) (d : Decisions) : Decisions × Bool :=
  (other.filter (fun o => decide (o.field < 64) && fieldRuns (getField s o.field) && (getField s o.field).change.isNone)).foldl (fun r o =>
    let mine := targetOf s r.1 o.field
    if o.step = mine then r
    else
      let t := max mine (min o.step 4)
      let why := match r.1.find? (fun e => e.1 == o.field) with | some e => e.2.2 | none => .none
      (r.1.filter (fun e => e.1 != o.field) ++ [(o.field, t, if t = 4 && why == .none then .thermal else why)], true)) (d, false)

/-- Nanoseconds until a decision may take effect (R474): 20 µs, and before a step up the rise of the supply at 10 mV/µs and 10 µs. -/
def decisionWait (x : Field) (t v : Nat) : Nat := if t < x.step then max 20000 (100 * (v - x.supply) + 10000) else 20000

/-- Decisions become pending changes (R474); for a step up the regulator begins to raise the supply (R463). -/
def decide_ (d : Decisions) (s : State) : State :=
  forEach d (fun e s =>
    let x := getField s e.1
    let v := stepSupply s e.1 e.2.1
    if e.2.1 = x.step then s
    else
      setField s e.1 { x with change := some { target := e.2.1, why := e.2.2, wait := decisionWait x e.2.1 v },
                              setPoint := if e.2.1 < x.step then v else x.setPoint }) s

/-- The samples of a governor tick: sensors, averages, effective hints, input power (R464, R471). -/
def governorSample (temps : List Reading) (s : State) : State :=
  let s := forEach temps takeReading s
  let s := modPower (inputSample s) (fun w =>
    { w with doms := w.doms.map (fun e => (e.1, domTick e.2)), gticks := w.gticks + 1, pin := BitVec.ofNat 16 (clamp16 (w.inSum / max 1 w.inN)),
             inN := 0, inSum := 0, inLow := w.inLow && decide (w.vin.toNat < 40000) })
  let s := hotCounts s
  { s with fields := s.fields.map (fun e =>
      (e.1, { e.2 with temp := BitVec.ofNat 8 (fieldTemp e.2),
                       ehint := BitVec.ofNat 16 (clamp16 (16 * fieldHint s e.1 * scaleK e.2.step / 256)),
                       ptick := (getDom s e.1).ptick })) }

/-- The thermal rule's mark of a decision (R471). -/
def thermalMark (before after : Decisions) (s : State) : State :=
  match after.drop before.length with
  | [] => s
  | _ => modPower s (fun w => { w with flags := setBit w.flags 4 })

/-- The rules in order. -/
def governorRules (differs : List Decision) (s : State) : State :=
  let d1 := ruleCeil s (ruleCritical s [])
  let d2 := ruleThermal s d1
  let s := thermalMark d1 d2 s
  let (d3, s) := (List.range 64).foldl (fun r f => breachField f r) (d2, s)
  let (d4, unmet) := ruleCap s 64 d3
  let proj := projected s d4 / 1024
  let (d5, limited) := if s.tick.run then ruleUp s d4 else (d4, false)
  let (d6, mismatch) := if s.boot.single then (d5, false) else joinCores s differs d5
  let s := modPower s (fun w =>
    { w with proj := BitVec.ofNat 16 (clamp16 proj), capUnmet := unmet, capLimited := limited,
             flags := (if mismatch then setBit (if unmet then setBit w.flags 2 else w.flags) 3 else if unmet then setBit w.flags 2 else w.flags) })
  let s := if unmet then raise 0x74 none none none (clamp16 proj) s else s
  decide_ d6 s

/-- A governor tick with the sensor readings of the tick, and the steps that the second M-core decided otherwise. -/
def governorTick (temps : List Reading) (differs : List Decision) (s : State) : State :=
  eventsByCode s (governorRules differs (modPower (governorSample temps s) (fun w => { w with govDue := false })))

end Sys2Proof.Machine
end

