-- ==== Sys2Proof/Machine/Repair.lean ====
section
/-! DEFINITION. Faults, fencing and repair (03 R121, 04 R130, 05 R202, 15 R513 to R522, R583), the fault map in flash (R505), and
the unit, cluster and field resets (R508, R509). Readings: log 37, DEDUCED; log 38, DEDUCED. -/

namespace Sys2Proof.Machine

open Sys2Proof

/-! ## Detection (R513, R514 steps 1, 2) -/

/-- Does polder p hold a cluster of local row j of field f. -/
def polderInRow (s : State) (p f j : Nat) : Bool :=
  (rectsOf (getPolder s p)).any (fun r =>
    let y := 96 * (f / 8) + j
    decide (r.r0 ≤ y) && decide (y ≤ r.r1) && decide (12 * r.c0 / 96 ≤ f % 8) && decide (f % 8 ≤ (12 * r.c1 + 11) / 96))

/-- Has polder p a transit selector in local row j of field f. -/
def transitInRow (s : State) (p f j : Nat) : Bool := transitAt s p (fun u => fieldOf u == f && localY u == j)

/-- The polders that lose their row (R519): they halt with a cause at the halting tick, their frame is lost, and they leave HALTED only
by a release. -/
def rowHalts (t : Nat → Bool) (cause : Nat) (s : State) : State :=
  forEach ((poldersHeld s).filter t) (fun p s =>
    let s := modPolder (haltAtTick p cause s) p (fun x => if x.state = 2 || x.state = 3 then { x with dead := true } else x)
    if (getPolder s p).state = 3 then dropAwait p (dikewatchDone p s) else s) s

/-- Can unit u show a fault: its row is present, it is not fenced and its field is up. -/
def faultable (s : State) (u : Nat) : Bool := lit s (fieldOf u) && !rowAbsent s u && !unitFenced s u

/-- Add a fault to the repair under way, or to the one that follows it once it has been decided. -/
def addFault (r : FaultRec) (b : Boot) : Boot :=
  match b.repair with
  | none => { b with repair := some { faults := [r] } }
  | some x => if x.decided then { b with later := b.later ++ [r] } else { b with repair := some { x with faults := x.faults ++ [r] } }

/-- ARG of UNIT_FAULT without its cause (R525). -/
def siteArg (prow slot chain : Nat) : Nat := 16 * prow + 2 ^ 11 * slot + 2 ^ 18 * chain

/-- A fault of unit u: fenced, entered in the map, counted under R78, reported; its polder halts at the next wafer tick, with
ROW_EXHAUSTED where its chain has no slot left. -/
def unitFault (u cause addr : Nat) (s : State) : State :=
  let f := fieldOf u
  let site := siteOf s u
  let ch := chainOf u
  let p := ownerOf s u
  let s := setFenced u true (unitHalt u s)
  let s := rowChange f site.1 (slotFault ch site.2) s
  let s := modBoot s (fun b => addFault ⟨u, cause, addr, site.1, site.2, ch⟩ { b with flags := setBit b.flags 0, tick := s.tick.count })
  let s := if cause = 1 then raise 0x30 p none (some u) 0 s else if cause = 2 then raise 0x31 p none (some u) 0 s else s
  let s := raise 0x32 p none (some u) (cause + siteArg site.1 site.2 ch) s
  let s := match p with
    | some q => match (getPolder s q).frame with
      | some fr => faultEvent fr u cause (siteArg site.1 site.2 0) s
      | none => s
    | none => s
  if chainSpent (presentRow s f site.1) ch then rowHalts (fun q => polderInRow s q f (localY u)) 5 s
  else match p with | some q => haltAtTick q 2 s | none => s

/-- FAULT_ARITH: the residue checker of core u finds a mismatch; the bank that its last step wrote is poisoned (03 R121). -/
def execFaultArith (u : Nat) (s : State) : Out :=
  if !isCc u then .fault (.noSuchObject u)
  else if !faultable s u then .next s
  else
    let s := modCore s u (fun c => match c.stepBank with | some b => { c with poison := setBit c.poison b } | none => c)
    .next (unitFault u 1 0 s)

/-- The bank of memory unit u from which the load or swap of polder p under way is staged: bank 3 for a load (11 R395). -/
def stagingBank (s : State) (p u : Nat) : Option Nat :=
  let x := getPolder s p
  match x.staging, x.cfg with
  | some c, a =>
    if !inRects c.rects u || x.staged then none
    else if s.conf.op == 0 then some 3
    else match a with | some a => (List.range 4).find? (fun k => match unitCfg a u with | .mu m => m.modes.getD k 0 == 5 | _ => false) | none => none
  | none, _ => none

/-- An uncorrectable error in bank b of memory unit u aborts any staging from it (05 R202): the command is refused with STORE_ERR. -/
def stagingAbort (u b : Nat) (s : State) : State :=
  let p := s.conf.polder.toNat
  if s.conf.busy && stagingBank s p u == some b then
    let (w, s) := takeFree s
    refuseAt s.conf.queue (some p) 17 w.toNat (some u) (confDropped p s)
  else s

/-- Advance a 16-bit count that saturates. -/
def satInc16 (w : BitVec 16) : BitVec 16 := if w = 0xFFFF then w else w + 1

/-- A corrected error in the SRAM of unit u: SRAM_ECC or MU_ECC advances (04 R130, 05 R202). -/
def sramCorrected (u : Nat) (s : State) : State :=
  if isMu u then modMu s u (fun m => { m with ecc := satInc16 m.ecc })
  else modCore s u (fun c => { c with sramEcc := satInc16 c.sramEcc })

/-- FAULT_SRAM: SECDED finds an error in the SRAM of core or memory unit u, one it corrects or not. -/
def execFaultSram (u : Nat) (e : SramError) (s : State) : Out :=
  if !(isCc u && decide (e.addr < 0xC000)) && !(isMu u && decide (e.addr < 4 * bankSize)) then .fault (.noSuchObject u)
  else if !faultable s u then .next s
  else if e.corrected then .next (sramCorrected u s)
  else
    let s0 := s
    let s := if isMu u then modMu s u (fun m => { m with flags := setBit m.flags 0 }) else s
    let s := unitFault u 2 e.addr s
    .next (if isMu u then eventsByCode s0 (stagingAbort u (e.addr / bankSize) s) else s)

/-- LOGIC_FAULT: a parity error in a unit's store, registers, queues or held configuration. -/
def execLogicFault (u : Nat) (s : State) : Out :=
  if !isUnit u then .fault (.noSuchObject u) else if !faultable s u then .next s else .next (unitFault u 3 0 s)

/-- The local row that physical row r of field f serves. -/
def servedBy (s : State) (f r : Nat) : Option Nat := (List.range 96).find? (fun j => (getField s f).rowMap[j]? == some r)

/-- The unit whose router or port holds a flight. -/
def flightUnit (x : Flight) : Option Nat :=
  match x.loc with
  | .inject => some (sender x)
  | .router u _ => some u
  | .replica u _ => some u
  | .own u => some u
  | .causeway _ _ => none
  | .arrived u => match x.via with | some r => some r | none => if x.net == .rpl && isFc u then none else some (homeRouter u)

/-- Packets inside the routers of a list that fail are lost (07 R281). -/
def dropInRow (us : List Nat) (s : State) : State :=
  { s with flights := s.flights.filter (fun x => match flightUnit x with | some u => !us.contains u | none => true) }

/-- SWITCH_FAULT: a fault in a switch, a router or the shift network of a physical row fences the row with ROW = 2; every
polder with a cluster in the row or a lane through it halts with ROW_LANE, the row's links are down (07 R279) and what its routers
hold is lost (R281). A row fenced with ROW = 1 still carries lanes, and breaks them so (01 R21). The unit of the FAULT entry is
free: the row names none. -/
def execSwitchFault (f prow : Nat) (s : State) : Out :=
  if f ≥ 64 || prow ≥ 100 then .fault (.noSuchObject prow)
  else if !(getField s f).up || (fmapRow s f prow).row == 2 then .next s
  else
    let s0 := s
    let s := modBoot s (fun b => { b with flags := setBit b.flags 0, tick := s.tick.count })
    let s := fenceRow f prow 2 s
    match servedBy s f prow with
    | none => .next s
    | some j =>
      let hit := fun q => polderInRow s q f j || transitInRow s q f j
      let (w, s) := takeFree s
      let s := forEach ((poldersHeld s).filter hit) (fun q s =>
        match (getPolder s q).frame with
        | some fr => faultEvent fr (w.truncate 20).toNat 6 (siteArg prow 0 0) s
        | none => s) s
      let s := rowHalts hit 6 s
      let us := (List.range 96).map (fun i => unitAt (96 * (f % 8) + i) (96 * (f / 8) + j))
      let s := dropInRow us s
      .next (armDown (forEach us (fun u s =>
        forEach [Dir.n, .e, .s, .w] (fun d s => forEach [Net.req, .rpl] (fun n s =>
          if linkDown s0 n u d then s else linkNoted n u d s) s) s) s))

/-! ## Liveness probes (R583) -/

/-- The units of field f that are probed, rising. -/
def probed (s : State) (f : Nat) : List Nat :=
  ((poldersIn s 2).flatMap (fun p => (liveUnits s p).filter (fun u => fieldOf u == f && !unitFenced s u))).foldl
    (fun l n => insertNat n l) []

/-- LIVENESS_PROBE: the next unit is probed; a field controller has at most 256 probes outstanding (4,096 / 16). -/
def execLivenessProbe (f : Nat) (s : State) : Out :=
  if f ≥ 64 then .fault (.noSuchObject f)
  else if !(getField s f).up then .next s
  else
    let l := probed s f
    match (l.filter (fun u => decide (u ≥ (getField s f).probeFrom))) ++ l with
    | [] => .next s
    | u :: _ => .next (modField s f (fun x => { x with
        probeFrom := u + 1, probes := ((x.probes.filter (fun v => v != u)) ++ [u]).drop (x.probes.length - 255) }))

/-- PROBE_TIMEOUT: unit u has left its probe unanswered for 4,096 cclk. -/
def execProbeTimeout (u : Nat) (s : State) : Out :=
  if !isUnit u then .fault (.noSuchObject u)
  else
    let f := fieldOf u
    let running := match ownerOf s u with | some p => (getPolder s p).state == 2 | none => false
    if !(getField s f).probes.contains u then .next s
    else
      let s := modField s f (fun x => { x with probes := x.probes.filter (fun v => v != u) })
      if !running || !faultable s u then .next s
      else .next (unitFault u 4 0 (modField s f (fun x => { x with probeMisses := incCnt x.probeMisses })))

/-! ## The decision (R514 step 3, R519) -/

/-- The unit with type index k of a chain in local row j of field f (01 R17). -/
def unitOfType (f j ch k : Nat) : Nat :=
  let lx := if ch = 1 then 12 * k + 5 else if ch = 2 then 12 * k + 6 else 12 * (k / 10) + (if k % 10 ≤ 4 then k % 10 else k % 10 + 2)
  unitAt (96 * (f % 8) + lx) (96 * (f / 8) + j)

/-- The fields and physical rows of a list of faults, without repeats. -/
def faultRows (l : List FaultRec) : List (Nat × Nat) :=
  (l.map (fun r => (fieldOf r.unit, r.prow))).foldl (fun a x => if a.contains x then a else a ++ [x]) []

/-- The units of a row whose serving slot changes. -/
def movedIn (s : State) (f r : Nat) : List Nat :=
  match servedBy s f r with
  | none => []
  | some j =>
    let old := servedRow s f r
    let new := presentRow s f r
    (List.range 3).flatMap (fun ch =>
      let a := usableSlots old ch
      let b := usableSlots new ch
      ((List.range (chainSlots ch).2).filter (fun k => a[k]? != b[k]?)).map (unitOfType f j ch))

/-- Has every polder with a faulted unit come to its halting tick. -/
def faultsHalted (s : State) (r : Repair) : Bool :=
  r.faults.all (fun x => match ownerOf s x.unit with
    | some p => (getPolder s p).frame.isNone && (getPolder s p).abrupt.isEmpty
    | none => true)

/-- The slots that the second M-core alone would fence are fenced too (R490). -/
def fenceOther (l : List Nat) (s : State) : State :=
  forEach l (fun u s =>
    if !isUnit u || !faultable s u then s
    else
      let site := siteOf s u
      let ch := chainOf u
      let s := rowChange (fieldOf u) site.1 (slotFault ch site.2) (setFenced u true (unitHalt u s))
      modBoot s (addFault ⟨u, 0, 0, site.1, site.2, ch⟩)) s

/-- The polders with a cluster in the row that physical row r of field f serves halt with ROW_EXHAUSTED (R519). -/
def exhausted (f r : Nat) (s : State) : State :=
  match servedBy s f r with
  | some j => rowHalts (fun q => polderInRow s q f j) 5 s
  | none => s

/-- REPAIR_DECISION: the M-cores decide the shifts, the row fences and whether the frame may be replayed. -/
def execRepairDecision (differs : Bool) (other : List Nat) (s : State) : Out :=
  match s.boot.repair with
  | none => .next s
  | some r =>
    if !r.ticked || r.decided || !faultsHalted s r then .next s
    else
      let two := differs && !s.boot.single
      let s := if two then fenceOther other (modBoot s (fun b => { b with flags := setBit b.flags 3 })) else s
      let faults := match s.boot.repair with | some r => r.faults | none => []
      let rows := faultRows faults
      let spent := rows.filter (fun x => (List.range 3).any (fun c => chainSpent (presentRow s x.1 x.2) c))
      let s := forEach spent (fun x s => if (fmapRow s x.1 x.2).row == 0 then exhausted x.1 x.2 (fenceRow x.1 x.2 1 s) else s) s
      let moved := (rows.filter (fun x => !spent.contains x)).flatMap (fun x => movedIn s x.1 x.2)
      let r' : Repair :=
        { faults := faults, ticked := true, decided := true, moved := moved, fencedRows := spent, replay := !differs && !s.boot.single }
      .next (modBoot s (fun b => { b with repair := some r' }))

/-! ## Image maps (R518) -/

/-- Bytes of a unit's memory; 0 for a unit that has none. -/
def unitBytes (u : Nat) : Nat := if isCc u then 0xC000 else if isMu u then 4 * bankSize else 0

/-- The memory of a unit. -/
def unitMem (s : State) (u : Nat) : Bytes := if isMu u then (getMu s u).mem else (getCore s u).sram

/-- Change the memory of a unit. -/
def modMem (u : Nat) (f : Bytes → Bytes) (s : State) : State :=
  if isMu u then modMu s u (fun m => { m with mem := f m.mem }) else if isCc u then modCore s u (fun c => { c with sram := f c.sram }) else s

/-- An image map record. -/
structure ImageRec where
  unit : Nat
  off : Nat
  lenw : Nat
  addr : Nat

/-- Record i of the table at a. -/
def imageRec (s : State) (a i : Nat) : ImageRec :=
  let x := rdLe s.dram (a + 16 * i) 8
  let y := rdLe s.dram (a + 16 * i + 8) 8
  { unit := bitsOf x 19 0, off := bitsOf x 39 20, lenw := bitsOf x 56 40, addr := bitsOf y 40 0 }

/-- Does a record lie inside its unit's memory. -/
def imageInUnit (r : ImageRec) : Bool :=
  isUnit r.unit && decide (1 ≤ r.lenw) && decide (r.lenw ≤ 98304) && r.off % 8 == 0 && decide (r.off + 8 * r.lenw ≤ unitBytes r.unit)

/-- Can a record be written: inside its unit, from populated DRAM that reads. -/
def imageOk (s : State) (r : ImageRec) : Bool :=
  imageInUnit r && (getField s (fieldOf r.unit)).up && !rowAbsent s r.unit && r.addr % 8 == 0 && dramRange r.addr (8 * r.lenw) &&
    !rangeOff s r.addr (8 * r.lenw) && (badIn s r.addr (8 * r.lenw)).isNone

/-- Write the records of polder p's image map whose unit a test picks, in table order: bytes written, units written, is one in
error. -/
def imageWrite (p : Nat) (t : Nat → Bool) (s : State) : (Nat × List Nat × Bool) × State :=
  match (getPolder s p).image with
  | none => ((0, [], true), s)
  | some (a, n) =>
    (List.range n).foldl (fun r i =>
      let x := imageRec r.2 a i
      if !t x.unit then r
      else if imageOk r.2 x then
        ((r.1.1 + 8 * x.lenw, insertNat x.unit r.1.2.1, r.1.2.2),
          modMem x.unit (fun m => wrN m x.off (rdN r.2.dram x.addr (8 * x.lenw))) r.2)
      else ((r.1.1, r.1.2.1, true), r.2)) ((0, [], rangeOff s a (16 * n) || (badIn s a (16 * n)).isSome), s)

/-! ## Moving and reloading (R515, R516) -/

/-- The cause of unit u's own fault in a list. -/
def ownCause (l : List FaultRec) (u : Nat) : Option Nat := (l.find? (fun r => r.unit == u)).map (·.cause)

/-- Is the memory of a moved unit copied clean (R515). -/
def copiedClean (l : List FaultRec) (unclean : List Nat) (u : Nat) : Bool :=
  isSfu u || (ownCause l u != some 2 && !unclean.contains u)

/-- The memory of a failed memory unit as it is copied: its WORK and FIFO banks are not. -/
def failedMem (m : Mu) : Bytes :=
  (List.range 4).foldl (fun x b => if bankMode m b = 3 || bankMode m b = 4 then clearN x (bankSize * b) bankSize else x) m.mem

/-- Does unit u find its active configuration (R516): in its cluster's CONFIG slot where that reads clean, else in the archive. -/
def reloadServed (s : State) (l : List FaultRec) (unclean : List Nat) (u : Nat) : Bool :=
  match ownerOf s u with
  | none => true
  | some p =>
    let x := getPolder s p
    let mu := unitAt (unitX u / 12 * 12 + 5) (unitY u)
    (decide (x.active.toNat < 4) && copiedClean l unclean mu) || archiveSound s x.cfgActive

/-- A unit that has moved: reloaded from its active configuration and unfenced, its memory copied or zero. A memory unit
keeps line states, FIFO pointers, counters and replay table with its copied memory. -/
def unitMoved (l : List FaultRec) (unclean : List Nat) (u : Nat) (s : State) : State :=
  let clean := copiedClean l unclean u
  let failed := (ownCause l u).isSome
  let s := match ownerOf s u with | some p => if isMu u then portOut u p s else s | none => s
  let m := getMu s u
  let s := modMem u (fun x => if !clean then [] else if failed && isMu u then failedMem m else x) s
  let a := activeCfg s u
  let s := setFenced u false (unitActivate a.2 u (if reloadServed s l unclean u then a.1 else unitCfg {} u) s)
  if clean && isMu u then
    modMu s u (fun n =>
      let n := { n with lines := m.lines, clock := m.clock, flags := n.flags ||| (if m.lost then 4 else 0), lost := m.lost }
      if failed then n else { n with fifo := m.fifo, wc := m.wc, replay := m.replay })
  else s

/-! ## The end of a repair (R514 step 6, R517, R520) -/

/-- May the awaited frame of polder p be replayed (R517); `whole`: every unit moved has its memory. -/
def mayReplay (s : State) (r : Repair) (p : Nat) (whole : Bool) : Bool :=
  let x := getPolder s p
  match x.await, x.cfg with
  | some f, some c =>
    r.replay && whole && c.replayable && !f.dikewatched && decide (f.replays < 3) && !s.boot.single &&
      r.fencedRows.all (fun y => match servedBy s y.1 y.2 with | some j => !polderInRow s p y.1 j | none => true) &&
      r.faults.all (fun y => !(isMu y.unit && ownerOf s y.unit == some p &&
        (match unitCfg c y.unit with | .mu m => m.modes.any (fun k => k == 3 || k == 4) | _ => false)))
  | _, _ => false

/-- OUTCOME of a repair for a fault (R524). -/
def outcomeOf (r : Repair) (x : FaultRec) (replay : Bool) : Nat :=
  if r.fencedRows.contains (fieldOf x.unit, x.prow) then 2 else if replay then 0 else 1

/-- Resume polder p of itself, where POLDER_RESUME would be taken (R520). -/
def autoResume (p : Nat) (s : State) : State :=
  let x := getPolder s p
  if s.boot.auto && x.state == 3 && s.tick.run && !x.dead && !x.evacUnits && !polderDown s p then resumed p s else s

/-- The polders of a list of faults, without repeats. -/
def faultPolders (s : State) (l : List FaultRec) : List Nat := (l.filterMap (fun x => ownerOf s x.unit)).foldl (fun a n => insertNat n a) []

/-- The halted frame of polder p is resolved and REPAIR_DONE raised. -/
def resolve (r : Repair) (whole imageErr : Bool) (p : Nat) (s : State) : State :=
  let ok := mayReplay s r p whole
  let out := match r.faults.find? (fun x => ownerOf s x.unit == some p) with | some x => outcomeOf r x ok | none => 1
  let s := if ok then modPolder s p (fun x => { x with replay := true }) else dropAwait p (dikewatchDone p s)
  let s := raise 0x33 (some p) none none (out + 4 * b2n imageErr) s
  if ok then autoResume p s else s

/-- RPR_LAST of a repair whose last fault is x. -/
def setLast (r : Repair) (x : FaultRec) (replay copied imaged : Bool) (b : Boot) : Boot :=
  { b with lastUnit := BitVec.ofNat 20 x.unit, lastCause := BitVec.ofNat 4 x.cause, lastProw := BitVec.ofNat 7 x.prow,
           lastSlot := BitVec.ofNat 7 x.slot, lastChain := BitVec.ofNat 2 x.chain, lastOutcome := BitVec.ofNat 2 (outcomeOf r x replay),
           lastCopied := copied, lastImaged := imaged, lastValid := true }

/-- REPAIR_DONE: memory is moved, configurations are reloaded and the frames are resolved, with REPAIR_DONE for each polder and for the
faults of unassigned units; `unclean` names the units whose copy met an uncorrectable error. -/
def execRepairDone (unclean : List Nat) (s : State) : Out :=
  match s.boot.repair with
  | none => .next s
  | some r =>
    if !r.decided then .next s
    else
      let moved := r.moved.filter (fun u => (getField s (fieldOf u)).up)
      let s := forEach moved (unitMoved r.faults unclean) s
      let lost := moved.filter (fun u => !copiedClean r.faults unclean u)
      let owners := (lost.filterMap (ownerOf s)).foldl (fun a n => insertNat n a) []
      let (res, s) := owners.foldl (fun (a : (List Nat × Bool) × State) p =>
        let w := imageWrite p (fun u => lost.contains u) a.2
        ((a.1.1 ++ w.1.2.1, a.1.2 || (w.1.2.2 && (getPolder a.2 p).image.isSome)),
          if w.1.2.1.isEmpty then w.2 else weightsInvalid p w.2)) (([], false), s)
      let s := if res.2 then modBoot s (fun b => { b with flags := setBit b.flags 4 }) else s
      let whole := !res.2 && lost.all (fun u => res.1.contains u) && moved.length == r.moved.length
      let real := r.faults.filter (fun x => x.cause != 0)
      let ps := faultPolders s r.faults
      let s := match real.getLast? with
        | none => s
        | some x =>
          let ok := match ownerOf s x.unit with | some p => mayReplay s r p whole | none => false
          modBoot s (setLast r x ok (moved.contains x.unit && copiedClean r.faults unclean x.unit) (!res.1.isEmpty))
      let s := forEach ps (resolve r whole res.2) s
      let s := match real.find? (fun x => (ownerOf s x.unit).isNone) with
        | some x => raise 0x33 none none none (outcomeOf r x false + 4 * b2n res.2) s
        | none => s
      .next (modBoot s (fun b => { b with
        count := incCnt b.count, repair := if b.later.isEmpty then none else some { faults := b.later }, later := [] }))

/-! ## The fault map in flash (R505) -/

/-- The fault map in flash: the valid copy with the higher update count (R491). -/
def fmapFlash (b : Boot) : Option FaultMap :=
  match b.fmapA, b.fmapB with
  | some x, some y => if x.updates < y.updates then some y else some x
  | some x, none => some x
  | none, y => y

/-- Put the working map, or no valid content, into the copy that does not hold the newest valid one (R491). -/
def fmapPut (x : Option FaultMap) (b : Boot) : Boot :=
  let first := match b.fmapA, b.fmapB with
    | some x, some y => decide (x.updates < y.updates)
    | some _, none => false
    | none, _ => true
  if first then { b with fmapA := x } else { b with fmapB := x }

/-- A write of the fault map to flash: the copy written holds the working map, or is not valid and the write is tried again. -/
def mapWrite (ok : Bool) (s : State) : State :=
  modBoot s (fun b =>
    if ok then { fmapPut (some b.fmap) b with mapDue := false, mapRetry := false }
    else { fmapPut none b with mapRetry := true, flags := setBit b.flags 5 })

/-- FAULT_MAP_WRITE. -/
def execFaultMapWrite (ok : Bool) (s : State) : Out :=
  if s.boot.mapDue && !s.boot.mapRetry then .next (mapWrite ok s) else .next s

/-- MAP_WRITE_RETRY. -/
def execMapWriteRetry (ok : Bool) (s : State) : Out := if s.boot.mapRetry then .next (mapWrite ok s) else .next s

/-! ## Commands (R523) -/

/-- The unit a command names: ARG0 [19:0]. -/
def unitArg (c : Cmd) : Nat := bitsOf c.a0.toNat 19 0

/-- The field a command names: ARG0 [29:24]. -/
def fieldArg (c : Cmd) : Nat := bitsOf c.a0.toNat 29 24

/-- RPR_FENCE: unit U is fenced as a fault of cause HOST. -/
def execRprFence (q : Nat) (s : State) : Out :=
  hostCmd q 0x46 (fun c s =>
    let u := unitArg c
    if !isUnit u || (ownerOf s u).isNone || unitFenced s u || rowAbsent s u then finish q stState 0 s
    else if fieldDown s (fieldOf u) then finish q stPdown 0 s
    else finish q stOk 0 (unitFault u 5 0 s)) s

/-- RPR_IMAGE: the image map of polder P is registered, or removed by a count of 0. -/
def execRprImage (q : Nat) (s : State) : Out :=
  hostCmd q 0x44 (fun c s =>
    let p := polderArg c
    let a := bitsOf c.a1.toNat 40 0
    let n := bitsOf c.a2.toNat 23 0
    if (getPolder s p).state = 0 then finish q stState 0 s
    else if n > 4194304 || (n != 0 && (a % 16 != 0 || !dramRange a (16 * n))) then finish q stAddr 0 s
    else
      finish q stOk 0 (weightsInvalid p (modPolder s p (fun x => { x with image := if n = 0 then none else some (a, n) })))) s

/-- RPR_RESTORE: the image map's records for units in the fields of the mask are written. -/
def execRprRestore (q : Nat) (s : State) : Out :=
  hostCmd q 0x45 (fun c s =>
    let p := polderArg c
    let x := getPolder s p
    if !([1, 3].contains x.state) || x.image.isNone then finish q stState 0 s
    else
      let r := imageWrite p (fun u => isUnit u && c.a1.getLsbD (fieldOf u)) s
      let s := if r.1.2.2 then modBoot r.2 (fun b => { b with flags := setBit b.flags 4 }) else r.2
      finish q stOk r.1.1 (weightsInvalid p s)) s

/-- Is a slot of a row, or the row itself, on the list of faults found at manufacture. -/
def isFactory (f r chain slot : Nat) : Bool := Config.factoryFault f r chain (if chain = 3 then 0 else slot)

/-- RPR_CLEAR: a fault bit that is no factory fault is cleared if the test passes; the slot or row is usable from the next remap on. -/
def execRprClear (q : Nat) (pass : Bool) (s : State) : Out :=
  hostCmd q 0x47 (fun c s =>
    let f := fieldArg c
    let r := bitsOf c.a1.toNat 6 0
    let ch := bitsOf c.a1.toNat 8 7
    let slot := bitsOf c.a1.toNat 15 9
    if (poldersHeld s).any (fun p => polderIn s p f) then finish q stState 0 s
    else if fieldDown s f then finish q stPdown 0 s
    else if r > 99 || (ch != 3 && decide (slot ≥ (chainSlots ch).1)) then finish q stAddr 0 s
    else if (fmapRow s f r).factory && isFactory f r ch slot then finish q stPerm 0 s
    else if !pass then finish q stInteg 0 s
    else
      let was := if ch = 3 then (fmapRow s f r).row.toNat else slot
      let s := modField s f (fun x => if ch != 3 && !slotBad (fmapRow s f r) ch slot ||
            x.cleared.any (fun c => c.1 == r && c.2.1 == ch && (ch == 3 || c.2.2 == slot)) then x
        else { x with cleared := x.cleared ++ [(r, ch, was)] })
      finish q stOk 0 (rowChange f r (slotClear ch slot) s)) s

/-! ## Unit, cluster and field resets (R508, R509) -/

/-- Is unit u open to a reset: a logical unit of a present row, not fenced, unassigned or its polder LOADED or HALTED. -/
def resettable (s : State) (u : Nat) : Bool :=
  isUnit u && !rowAbsent s u && !unitFenced s u &&
    (match ownerOf s u with | none => true | some p => [1, 3].contains (getPolder s p).state)

/-- Unit u is reset; a frame of its polder that awaits replay is lost. -/
def resetUnit (u : Nat) (s : State) : State :=
  let s := match ownerOf s u with
    | none => s
    | some p =>
      dropAwait p (dikewatchDone p s)
  let s := unitOut u s
  keepDramErr s u (unitReload u s)

/-- Units are reset at the command of queue q; their routers answer packets with TARGET_RESET until the next step without a command, at which
the reset is over (log 38, DEDUCED). -/
def resetUnits (q : Nat) (us : List Nat) (s : State) : State :=
  modBoot (forEach us resetUnit s) (fun b => { b with unitResets := b.unitResets ++ [(us, q)] })

/-- The unit and cluster resets that run end, and their commands complete. -/
def resetsEnd (s : State) : State :=
  forEach s.boot.unitResets (fun e s => finish e.2 stOk 0 s) (modBoot s (fun b => { b with unitResets := [] }))

/-- RST_UNIT. -/
def execRstUnit (q : Nat) (s : State) : Out :=
  hostCmd q 0x40 (fun c s =>
    let u := unitArg c
    if !resettable s u then finish q stState 0 s
    else if fieldDown s (fieldOf u) then finish q stPdown 0 s
    else resetUnits q [u] s) s

/-- RST_CLUSTER: every unit of the cluster that is not fenced. -/
def execRstCluster (q : Nat) (s : State) : Out :=
  hostCmd q 0x41 (fun c s =>
    let u := unitArg c
    let k := clusterOf u
    let us := (span k (k + 11)).filter (fun v => !unitFenced s v)
    if !isUnit u || !us.all (resettable s) then finish q stState 0 s
    else if fieldDown s (fieldOf u) then finish q stPdown 0 s
    else resetUnits q us s) s

/-- RST_FIELD: the field is marked down and its controller lets go of its waiters (R509 steps 1, 2). -/
def execRstField (q : Nat) (s : State) : Out :=
  hostCmd q 0x42 (fun c s =>
    let f := fieldArg c
    if fieldDown s f || (poldersIn s 2).any (fun p => polderIn s p f || transitIn s p f) then finish q stState 0 s
    else
      let s := forEach ((poldersHeld s).filter (fun p => polderIn s p f)) (fun p s => dropAwait p (dikewatchDone p s)) s
      let s := dropFaults f (fieldWaiters f (configDown f (flushField f s)))
      armDown (modField s f (fun x => { x with up := false, saved := true, resetPhase := 1, probes := [] }))) s

/-- A core's debug registers, which only wafer reset and the power-up of its field reset (17 R555). -/
def keepDebug (old c : Core) : Core :=
  { c with tagc := old.tagc, tagMsgs := old.tagMsgs, tagStall := old.tagStall, afCnt := old.afCnt, trcCfg := old.trcCfg,
           trcSent := old.trcSent, trcDrops := old.trcDrops, trcSeq := old.trcSeq }

/-- The logic of field f without its SRAM (R509 step 4): what a reset leaves of units, switches and routers. -/
def fieldLogic (f : Nat) (s : State) : State :=
  let mine := fun (u : Nat) => isUnit u && fieldOf u == f
  { s with
    cores := s.cores.map (fun e => if mine e.1 then (e.1, { keepDebug e.2 {} with sram := e.2.sram, fenced := e.2.fenced }) else e),
    sfus := s.sfus.map (fun e => if mine e.1 then (e.1, { fenced := e.2.fenced }) else e),
    mus := s.mus.map (fun e => if mine e.1 then (e.1, { mem := e.2.mem, slots := e.2.slots, lastSlot := e.2.lastSlot, fenced := e.2.fenced }) else e),
    switches := s.switches.map (fun e => if mine e.1 then (e.1, { word := e.2.word, loc := e.2.loc }) else e),
    routers := s.routers.map (fun e => if mine e.1 then (e.1, { down := e.2.down }) else e),
    mifs := s.mifs.filter (fun e => !mine e.1 && e.1 != fcId f) }

/-- FIELD_RESET_DISCARD: the routers of a field in reset discard what they hold and its logic is reset (R509 steps 3, 4). -/
def execFieldResetDiscard (f : Nat) (s : State) : Out :=
  if f ≥ 64 then .fault (.noSuchObject f)
  else if (getField s f).resetPhase != 1 then .next s
  else .next (modField (mbxClear f (fieldLogic f (dropFlights f s))) f (fun x => { x with resetPhase := 2 }))

end Sys2Proof.Machine
end

