-- ==== Sys2Proof/Machine/Security.lean ====
section
/-! DEFINITION. Signatures, owner keys, firmware images, weight measurement and the journal's commands (16 R529 to R537, R545,
R547, R548), and the user calibration table (15 R501 to R503). Readings: log 4, DESIGN CHOICE; log 42, DEDUCED. -/

namespace Sys2Proof.Machine

open Sys2Proof

/-! ## Reading a buffer -/

/-- The checks of a buffer that a command reads: as for CTX_RECORD (12 R431); INTEG where a granule of it fails its check. -/
def sourceStatus (s : State) (a n : Nat) : Option Nat :=
  if a % 64 != 0 || !dramRange a n then some stAddr
  else if inConfArea s a n then some stPerm
  else if rangeOff s a n then some stPdown
  else if (badIn s a n).isSome then some stInteg
  else none

/-- The number that bytes a to a + n - 1 of a list spell. -/
def field (bs : List Byte) (a n : Nat) : Nat := leNat ((bs.drop a).take n)

/-- Are bytes a to a + n - 1 of a list zero. -/
def zeroAt (bs : List Byte) (a n : Nat) : Bool := field bs a n == 0

/-! ## Signature blocks (11 R379, 16 R531) -/

/-- The layout of a 128-byte signature block: format and reserved bytes. -/
def sigBlockOk (b : List Byte) : Bool := field b 0 2 == 1 && zeroAt b 3 5 && zeroAt b 0x7A 6

/-- The signature of a block. -/
def sigOf (b : List Byte) : List Byte := (b.drop 8).take 114

/-- Is owner key slot k ACTIVE. -/
def keyActive (s : State) (k : Nat) : Bool := decide (k < 4) && s.sec.slotState.getD k 0 == 1

/-- Does an owner key sign bytes with a context string: the slot its block names is ACTIVE and the signature verifies. -/
def ownerSigned (s : State) (ctx : String) (msg block : List Byte) : Bool :=
  let k := field block 2 1
  keyActive s k && Config.ed448Verify (s.sec.slotKey.getD k 0) ctx true msg (sigOf block)

/-! ## The certificate and the key slots -/

/-- The device identity key (R529): the first 57 bytes of SHAKE256 of "KMLYDIK1" and the fused secret. -/
def dikOf (secret : List Byte) : List Byte := (digestBytes (Config.shake256 (ascii "KMLYDIK1" ++ secret))).take 57

/-- Bytes a to a + n - 1 of the certificate that the factory wrote: its serial number, key identity, date and signature. -/
def certPart (a n : Nat) : List Byte := (List.range n).map (fun i => Config.certByte (a + i))

/-- The device certificate (R530): MAGIC, FORMAT, SERIAL, the public key of the device identity key, MFG_KEY_ID, ISSUED and the
manufacturer's signature, 256 bytes. -/
def certBytes (secret : List Byte) : List Byte :=
  toLe 4 0x5645444B ++ toLe 2 1 ++ zeros 2 ++ certPart 8 16 ++ toLe 57 (Config.ed448Public (dikOf secret)).toNat ++ zeros 7 ++
    certPart 0x58 16 ++ zeros 24 ++ certPart 0x80 114 ++ zeros 14

/-- SEC_CERT_READ. -/
def execSecCertRead (q : Nat) (s : State) : Out := hostCmd q 0x60 (fun c s => copyCmd q c (certBytes s.sec.secret) s) s

/-- The 64 bytes of key slot k (R547). -/
def keyBytes (s : State) (k : Nat) : List Byte :=
  toLe 1 (s.sec.slotState.getD k 0).toNat ++ toLe 57 (s.sec.slotKey.getD k 0).toNat ++ zeros 6

/-- SEC_KEY_READ. -/
def execSecKeyRead (q : Nat) (s : State) : Out :=
  hostCmd q 0x66 (fun c s => copyCmd q c ((List.range 4).flatMap (keyBytes s)) s) s

/-! ## Enrolment (R532) -/

/-- The layout of an enrolment request. -/
def enrolShape (b : List Byte) : Bool :=
  let op := field b 6 1
  let auth := field b 8 1
  field b 0 4 == 0x4E574F4B && field b 4 2 == 1 && (op == 1 || op == 2) && decide (field b 7 1 < 4) &&
    (decide (auth < 4) || auth == 0xFF) && zeroAt b 9 7 && zeroAt b 0x61 31 && zeroAt b 0xF2 14 && (op == 1 || zeroAt b 0x28 57)

/-- Do the slots' states allow a request. -/
def enrolState (s : State) (b : List Byte) : Bool :=
  let t := field b 7 1
  let auth := field b 8 1
  let st := fun k => (s.sec.slotState.getD k 0).toNat
  (if field b 6 1 = 1 then st t == 0 else st t == 1 && (List.range 4).any (fun k => k != t && st k == 1)) &&
    (if auth = 0xFF then (List.range 4).all (fun k => st k == 0) else st auth == 1)

/-- Do a request's serial number, nonce and signature hold. -/
def enrolProof (s : State) (b : List Byte) : Bool :=
  let auth := field b 8 1
  let key := if auth = 0xFF then BitVec.ofNat 456 (field b 0x28 57) else s.sec.slotKey.getD auth 0
  (b.drop 0x18).take 16 == serialBytes && field b 0x10 8 == s.sec.nonce.toNat &&
    Config.ed448Verify key "KMLYOWN1" false (b.take 0x80) ((b.drop 0x80).take 114)

/-- Carry out a request. -/
def enrol (b : List Byte) (s : State) : State :=
  let t := field b 7 1
  let on := field b 6 1 == 1
  let s := modSec s (fun k => { k with
    slotState := lset k.slotState t (if on then 1 else 2),
    slotKey := if on then lset k.slotKey t (BitVec.ofNat 456 (field b 0x28 57)) else k.slotKey,
    nonce := k.nonce + 1 })
  raise 0x81 none none none (t + 4 * (if on then 1 else 2)) s

/-- SEC_ENROL. -/
def execSecEnrol (q : Nat) (s : State) : Out :=
  hostCmd q 0x61 (fun c s =>
    let a := bitsOf c.a1.toNat 40 0
    match sourceStatus s a 256 with
    | some st => finish q st 0 s
    | none =>
      let b := rdN s.dram a 256
      if !enrolShape b then finish q stAddr 0 s
      else if !enrolState s b then finish q stState 0 s
      else if !enrolProof s b then finish q stInteg 0 s
      else finish q stOk 0 (enrol b s)) s

/-! ## Firmware images (R533 to R535) -/

/-- The layout of a Marrow image of n bytes. -/
def imageShape (b : List Byte) (n : Nat) : Bool :=
  field b 0 4 == 0x5752524D && field b 4 2 == 1 && zeroAt b 6 2 && n % 8 == 0 && decide (256 ≤ n) && decide (n ≤ 0x4000000) &&
    decide (field b 0xC 4 < 64) && decide (field b 0x1C 4 ≤ 163840) && decide (field b 0x18 4 + field b 0x1C 4 ≤ n - 128) &&
    zeroAt b 0x20 96 && sigBlockOk (b.drop (n - 128)) && field (b.drop (n - 128)) 2 1 == 0

/-- Is an image valid. -/
def imageValid (s : State) (b : List Byte) (n : Nat) : Bool :=
  imageShape b n && decide (field b 0xC 4 ≥ s.sec.svnMin.toNat) &&
    Config.ed448Verify Config.firmwareKey "KMLYFW01" true (b.take (n - 128)) (sigOf (b.drop (n - 128)))

/-- The image that bytes spell. -/
def imageOf (b : List Byte) : FwImage :=
  { good := true, svn := BitVec.ofNat 6 (field b 0xC 4), version := BitVec.ofNat 64 (field b 0x10 8),
    fc := bytesWords ((field b 0x1C 4 + 7) / 8) ((b.drop (field b 0x18 4)).take (field b 0x1C 4)) }

/-- Put image i into flash copy A, or B. -/
def putImage (toB : Bool) (i : FwImage) (s : State) : State :=
  modBoot s (fun x => if toB then { x with imgB := i } else { x with imgA := i })

/-- The write of an update begins: until it ends the copy is not valid (R534). -/
def fwBegin (q : Nat) (i : FwImage) (s : State) : State :=
  let toB := !s.boot.runB
  modBoot (putImage toB { i with good := false } s) (fun x => { x with fwWrite := some (q, toB, i) })

/-- The write of an update ends: the copy holds the image, and SEC_FW_UPDATE completes. -/
def fwEnd (s : State) : State :=
  match s.boot.fwWrite with
  | none => s
  | some (q, toB, i) =>
    let s := modBoot (putImage toB i s) (fun x => { x with fwWrite := none })
    finish q stOk 0 (raise 0x82 none none none (i.version.toNat % 2 ^ 32 + 2 ^ 32 * i.svn.toNat) s)

/-- SEC_FW_UPDATE: the write of a valid image over the flash copy that is not running begins; it ends at the next step without a command
(log 42, DEDUCED). -/
def execSecFwUpdate (q : Nat) (s : State) : Out :=
  hostCmd q 0x62 (fun c s =>
    let a := bitsOf c.a1.toNat 40 0
    let n := bitsOf c.a2.toNat 31 0
    match sourceStatus s a n with
    | some st => finish q st 0 s
    | none =>
      let b := rdN s.dram a n
      if n < 12 || field b 8 4 != n then finish q stAddr 0 s
      else if !imageValid s b n then finish q stInteg 0 s
      else if s.boot.fwWrite.isSome then finish q stBusy 0 s
      else fwBegin q (imageOf b) s) s

/-- SEC_FW_COMMIT. -/
def execSecFwCommit (q : Nat) (s : State) : Out :=
  hostCmd q 0x63 (fun _ s =>
    if s.boot.marrowAlt then finish q stState 0 s
    else finish q stOk 0 (modSec s (fun k => { k with svnMin := if k.svnMin < s.boot.svnRun then s.boot.svnRun else k.svnMin }))) s

/-! ## Weight measurement (R536) -/

/-- The bytes that a polder's weight digest runs over, or none where a record or a read fails: table address, records. -/
def weightBytes (s : State) (a n : Nat) : Option (List Byte) :=
  if rangeOff s a (16 * n) || (badIn s a (16 * n)).isSome then none
  else
    (List.range n).foldl (fun r i =>
      match r with
      | none => none
      | some bs =>
        let x := imageRec s a i
        if imageInUnit x && (getField s (fieldOf x.unit)).up && !rowAbsent s x.unit then
          some (bs ++ rdN s.dram (a + 16 * i) 16 ++ rdN (unitMem s x.unit) x.off (8 * x.lenw))
        else none) (some [])

/-- SEC_MEASURE. -/
def execSecMeasure (q : Nat) (s : State) : Out :=
  hostCmd q 0x64 (fun c s =>
    let p := polderArg c
    let x := getPolder s p
    match (if [1, 3].contains x.state then x.image else none) with
    | none => finish q stState 0 s
    | some (a, n) =>
      match weightBytes s a n with
      | none => finish q stInteg 0 (weightsInvalid p s)
      | some bs =>
        let d := Config.shake256 bs
        let s := setPolder s p { x with wgtDigest := d, wgtValid := true, measures := satInc x.measures }
        finish q stOk bs.length (weightsEvent p d false s)) s

/-! ## The journal (R545, R548) -/

/-- SEC_JOURNAL: the ring is set and empty; size 0 disables it. -/
def execSecJournal (q : Nat) (s : State) : Out :=
  hostCmd q 0x65 (fun c s =>
    let a := c.a1.toNat
    let n := c.a2.toNat
    if a % 64 != 0 || n % 65536 != 0 || n > 0x40000000 || !dramRange a n then finish q stAddr 0 s
    else if inConfArea s a n then finish q stPerm 0 s
    else if rangeOff s a n then finish q stPdown 0 s
    else
      finish q stOk 0 (modSec s (fun k => { k with
        jnlBase := BitVec.ofNat 41 a, jnlSize := BitVec.ofNat 31 n, jnlHead := 0, jnlTail := 0 }))) s

/-- A write of SEC_JNL_HEAD. -/
def writeJnlHead (v : W64) (s : State) : Nat × State :=
  let h := bitsOf v.toNat 29 0
  let size := s.sec.jnlSize.toNat
  if h % 8 != 0 || (size != 0 && decide (h ≥ size)) then (stAddr, s)
  else (stOk, modSec s (fun k => { k with jnlHead := BitVec.ofNat 30 h }))

/-- SEC_JNL_HEAD_WRITE. -/
def execSecJnlHeadWrite (h : Req) (v : W64) (s : State) : Out := regDone h (writeJnlHead v s)

/-! ## The user calibration table (15 R501 to R503) -/

/-- ITEM and signed VALUE of entry i of a table. -/
def calEntry (b : List Byte) (i : Nat) : Nat × Int := (field b (64 + 8 * i) 2, sbitsOf (field b (66 + 8 * i) 2) 15 0)

/-- Does an item exist (R501, R502): class and index. -/
def calItem (cls idx : Nat) : Bool :=
  if cls = 1 then decide (idx < 256)
  else if cls = 2 then decide (idx < 1024)
  else if cls = 3 || cls = 5 then decide (idx < 32)
  else if cls = 4 then decide (idx < 256) || (decide (idx < 288) && decide (idx % 16 < 8))
  else cls == 15 && idx == 0

/-- The factory limits of an item (R502); of class 1 they lie within those of R462's set points. -/
def calLimits (cls idx : Nat) : Int × Int :=
  let l := Config.factoryLimits cls idx
  if cls = 1 then (max l.1 (supplyLimits (idx % 4)).1, min l.2 (supplyLimits (idx % 4)).2) else l

/-- Is the value that an entry gives its item within the limits: for a delta, its result. -/
def calValue (cls idx : Nat) (v : Int) : Bool :=
  if cls = 15 then decide (1 ≤ v) && decide (v ≤ 16)
  else
    let x := Config.factoryValue cls idx + v
    decide ((calLimits cls idx).1 ≤ x) && decide (x ≤ (calLimits cls idx).2)

/-- Header of a table of n bytes: MAGIC, FORMAT, LENGTH and COUNT, reserved bytes. -/
def calHeader (b : List Byte) (n : Nat) : Bool :=
  let k := field b 0xC 4
  decide (n ≥ 192) && field b 0 4 == 0x314C4143 && field b 4 2 == 1 && zeroAt b 6 2 && field b 8 4 == 64 + 8 * k + 128 && decide (k ≤ 8192) &&
    decide (field b 8 4 ≤ n) && zeroAt b 0x18 40 && sigBlockOk (b.drop (64 + 8 * k))

/-- The entries of a table: in ascending order, none twice, existing items, values within limits, reserved bits zero. -/
def calEntries (b : List Byte) : Bool :=
  let k := field b 0xC 4
  (List.range k).all (fun i =>
    let e := calEntry b i
    zeroAt b (68 + 8 * i) 4 && calItem (e.1 / 4096) (e.1 % 4096) && calValue (e.1 / 4096) (e.1 % 4096) e.2 &&
      (i == 0 || decide ((calEntry b (i - 1)).1 < e.1)))

/-- The status of a table (R503): OK, INTEG or ADDR. -/
def calStatus (s : State) (b : List Byte) : Nat :=
  if !calHeader b b.length then stAddr
  else
    let n := 64 + 8 * field b 0xC 4
    if !ownerSigned s "KMLYCAL1" (b.take n) (b.drop n) then stInteg
    else if !calEntries b then stAddr
    else stOk

/-- Is the newest valid copy of two the second: the one with the higher update count (R491). -/
def newerIsB (a b : Option Nat) : Bool :=
  match a, b with
  | some x, some y => decide (x < y)
  | none, some _ => true
  | _, none => false

/-- The user calibration table in flash: the newest valid copy, with its update count. -/
def userCal (b : Boot) : Option (Nat × List Byte) :=
  if newerIsB (b.userCalA.map (·.1)) (b.userCalB.map (·.1)) then b.userCalB else b.userCalA

/-- A table is written to the copy that does not hold the newest valid one (R491). -/
def calPut (t : List Byte) (b : Boot) : Boot :=
  let n := (userCal b).elim 1 (fun x => x.1 + 1)
  if b.userCalA.isNone || newerIsB (b.userCalA.map (·.1)) (b.userCalB.map (·.1)) then { b with userCalA := some (n, t) }
  else { b with userCalB := some (n, t) }

/-- CAL_WRITE: a good table is written to flash. -/
def execCalWrite (q : Nat) (s : State) : Out :=
  hostCmd q 0x49 (fun c s =>
    let a := bitsOf c.a1.toNat 40 0
    let n := bitsOf c.a2.toNat 31 0
    match sourceStatus s a n with
    | some st => finish q st 0 s
    | none =>
      let b := rdN s.dram a n
      let st := calStatus s b
      finish q st 0 (if st = stOk then modBoot s (calPut (b.take (field b 8 4))) else s)) s

/-- The factory calibration block (15 R491). -/
def factoryBytes : List Byte := (List.range 1048576).map Config.factoryByte

/-- CAL_READ. -/
def execCalRead (q : Nat) (s : State) : Out :=
  hostCmd q 0x4A (fun c s => copyCmd q c (if c.a0.getLsbD 0 then (userCal s.boot).elim [] (·.2) else factoryBytes) s) s

end Sys2Proof.Machine
end

