-- ==== Sys2Proof/Machine/PowerCmd.lean ====
section
/-! DEFINITION. The power commands (14 R459, R485) and the watch over coolant and input (R457, R479, 18 R567).
Readings: log 39, DEDUCED. -/

namespace Sys2Proof.Machine

open Sys2Proof

/-- The field of a power command: ARG0 [13:8]. -/
def powerField (c : Cmd) : Nat := bitsOf c.a0.toNat 13 8

/-- The domain of a power command: ARG0 [22:16]. -/
def domArg (c : Cmd) : Nat := bitsOf c.a0.toNat 22 16

/-! ## PWR_DOMAIN (R459, R490) -/

/-- May domain d be switched off. -/
def mayOff (s : State) (d : Nat) : Bool :=
  if d < 64 then !(poldersHeld s).any (fun p => polderIn s p d || transitIn s p d) && (getField s d).ceil != 4
  else if d < 96 then (poldersHeld s).isEmpty && s.ctxs.all (fun e => e.2.state == 0 || e.2.state == 6)
  else (span (64 + 8 * (d - 96)) (71 + 8 * (d - 96))).all (fun k => (getDom s k).st == 0)

/-- Switch domain d off: a field is drained from the next tick on. -/
def domainOff (d : Nat) (s : State) : State :=
  if d < 64 then modField s d (fun x => { x with change := some { target := 4, why := .command, wait := 0 } })
  else if d < 96 then stackOff (d - 64) s
  else quadOff (d - 96) s

/-- Switch domain d on. -/
def domainOn (d : Nat) (s : State) : State :=
  if d < 64 then fieldStart d s else if d < 96 then stackStart (d - 64) s else if d < 100 then quadOn (d - 96) s else linksOn s

/-- Is domain d changing: draining, starting, about to drain, or its field in reset. -/
def domChanging (s : State) (d : Nat) : Bool :=
  (getDom s d).st == 2 || (getDom s d).st == 3 ||
    (decide (d < 64) && ((getField s d).resetPhase != 0 || (match (getField s d).change with | some c => c.target == 4 | none => false)))

/-- PWR_DOMAIN; `differs`: the M-cores decide differently, and the domain is left off or switched off. -/
def execPwrDomain (q : Nat) (differs : Bool) (s : State) : Out :=
  hostCmd q 0x20 (fun c s =>
    let d := domArg c
    let on := c.a1.getLsbD 0
    let st := (getDom s d).st
    if d > 100 then finish q stAddr 0 s
    else if (on && st == 1 && !domChanging s d) || (on && st == 3) || (!on && (st == 0 || (domChanging s d && st != 3 && (getField s d).resetPhase == 0))) then
      finish q stOk 0 s
    else if domChanging s d then finish q stBusy 0 s
    else if !on && d = 100 then finish q stPerm 0 s
    else if !on && !mayOff s d then finish q stState 0 s
    else
      let two := differs && !s.boot.single
      let s := if two then modPower s (fun w => { w with flags := setBit w.flags 3 }) else s
      if !on then finish q stOk 0 (domainOff d s)
      else if two then finish q stState 0 s
      else finish q stOk 0 (domainOn d s)) s

/-! ## Ceiling, hints, trust -/

/-- PWR_CEIL. -/
def execPwrCeil (q : Nat) (s : State) : Out :=
  hostCmd q 0x21 (fun c s =>
    let f := powerField c
    let v := bitsOf c.a1.toNat 2 0
    if v > 4 then finish q stAddr 0 s
    else finish q stOk 0 (ceilReturn f (modField s f (fun x => { x with ceil := v })))) s

/-- PWR_HINT: a later one for the same polder and field replaces an earlier one. -/
def execPwrHint (q : Nat) (s : State) : Out :=
  hostCmd q 0x22 (fun c s =>
    let p := polderArg c
    let f := powerField c
    let n := bitsOf c.a3.toNat 15 0
    if !([1, 2, 3].contains (getPolder s p).state) || decide (c.a2.toNat ≤ s.tick.count.toNat) then finish q stState 0 s
    else if n = 0 || !polderIn s p f then finish q stAddr 0 s
    else
      let h : Hint := { p := p, f := f, hint := bitsOf c.a1.toNat 7 0, start := c.a2.toNat, left := n }
      finish q stOk 0 (modPower s (fun w => { w with hints := w.hints.filter (fun x => !(x.p == p && x.f == f)) ++ [h] }))) s

/-- PWR_TRUST: SUSPECT is cleared and the counts of R470 start again. -/
def execPwrTrust (q : Nat) (s : State) : Out :=
  hostCmd q 0x23 (fun c s =>
    let d := domArg c
    if d > 100 then finish q stAddr 0 s
    else
      let s := modDom s d (fun x => { x with suspect := false })
      finish q stOk 0 (if d < 64 then modField s d (fun x => { x with breachN := 0, clearN := 0, suspectN := 0 }) else s)) s

/-- BRN_CLEAR: both save slots are erased; not while a restored context waits to be sealed. -/
def execBrnClear (q : Nat) (s : State) : Out :=
  hostCmd q 0x25 (fun _ s =>
    if s.ctxs.any (fun e => e.2.state == 5 && e.2.shRec.reason == 1) then finish q stState 0 s
    else
      finish q stOk 0 (modPower s (fun w => { w with
        save0 := none, save1 := none, brnSaved := false, brnIncomplete := false, brnCause := 0, brnSlot := false, brnTick := 0 }))) s

/-- A write of PWR_CAP. -/
def writePwrCap (v : W64) (s : State) : Nat × State :=
  let n := bitsOf v.toNat 8 0
  if n < 80 || n > 360 then (stAddr, s) else (stOk, modPower s (fun w => { w with cap := BitVec.ofNat 9 n }))

/-- PWR_CAP_WRITE. -/
def execPwrCapWrite (h : Req) (v : W64) (s : State) : Out := regDone h (writePwrCap v s)

/-! ## Coolant and input -/

/-- Is a reading of the coolant out of limit: inlet in 0.1 °C, flow in 0.1 L/min (R479). -/
def coolBad (inlet flow : Nat) : Bool × Bool := (decide (inlet > 320), decide (flow < 240))

/-- COOLANT_WARN: the coolant's readings; one that has been out of limit for 1 s raises the warning. -/
def execCoolantWarn (inlet outlet flow : Nat) (s : State) : Out :=
  let s := modPower s (fun w => { w with inlet := BitVec.ofNat 12 inlet, outlet := BitVec.ofNat 12 outlet, flow := BitVec.ofNat 12 flow })
  let b := coolBad inlet flow
  if s.power.coolWarn || !(b.1 || b.2) then .next s
  else .next (raise 0x75 none none none (b2n b.1 + 2 * b2n b.2) (modPower s (fun w => { w with coolWarn := true, flags := setBit w.flags 6 })))

/-- COOLANT_CLEAR: both conditions have cleared for 10 s. -/
def execCoolantClear (s : State) : Out := .next (modPower s (fun w => { w with coolWarn := false }))

/-- INPUT_LOW: once per excursion of the bus below 40.0 V. -/
def execInputLow (mv : Nat) (s : State) : Out :=
  if mv ≥ 40200 || s.power.inLow || !s.power.ao then .next s
  else .next (raise 0x70 none none none mv (modPower s (fun w => { w with inLow := true, flags := setBit w.flags 7 })))

/-- INPUT_OVERVOLTAGE: the input stage opens, the hold-up bank feeds the module, and PWR_GOOD falls (18 R567, R571). -/
def execInputOvervoltage (s : State) : Out :=
  if !s.power.ao then .next s else .next (modPower s (fun w => { w with inputOpen := true, pwrGood := false }))

end Sys2Proof.Machine
end

