-- ==== Sys2Proof/Machine/Boot.lean ====
section
/-! DEFINITION. Boot (15 R492 to R500), the M-cores (R489), brownout and thermal trip (14 R478 to R484, 18 R571), wafer reset
(15 R510, R511). Readings: log 4, DESIGN CHOICE; log 16, DEDUCED; log 40, DEDUCED. -/

namespace Sys2Proof.Machine

open Sys2Proof

/-! ## Entries applied at once (14 R480 step 4, 15 R510 step 3) -/

/-- Every queued entry is applied. -/
def drainEntries (s : State) : State :=
  s.sec.queue.foldl (fun s ev => ev.ctxs.foldl (fun s e => applyEntry e.1 ev.typ ev.tick e.2 s) s) (modSec s (fun k => { k with queue := [] }))

/-- Halt every RUNNING polder abruptly; every frame halted is lost. An abrupt cause that was due for a polder came first, and is
recorded (02 R73). -/
def haltAll (cause : Nat) (s : State) : State :=
  forEach (tickPolders s) (fun p s =>
    let c := match (getPolder s p).abrupt with | x :: _ => x.toNat | [] => cause
    dropAwait p (dikewatchDone p (haltAbrupt p c s))) s

/-- An entry of a type and one byte for every context that is OPEN, READY, PARKED or CLOSING. -/
def markContexts (typ : Nat) (b : Byte) (s : State) : State :=
  let l := s.ctxs.filter (fun e => [1, 2, 4, 5].contains e.2.state)
  trEvent typ (l.map (fun e => (e.1, b :: zeros 7))) s

/-! ## Boot -/

/-- The boot fails (R499): the management complex stops, ALERT_N is asserted, and the Nimmos ports are off. -/
def bootFail (err : Nat) (s : State) : State :=
  let s := if (getDom s 100).st == 0 then s else linksOff s
  modPower (modBoot s (fun b => { b with phase := 7, err := BitVec.ofNat 3 err, ready := false })) (fun w => { w with alert := true })

/-- The fault map as the factory list gives it (R505). -/
def factoryMap : FaultMap :=
  let cells := fun (f r c n : Nat) => (List.range n).foldl (fun a i => a + 2 ^ i * b2n (Config.factoryFault f r c i)) 0
  let rows := (List.range 64).flatMap (fun f => (List.range 100).filterMap (fun r =>
    let x : RowMap := { cc := BitVec.ofNat 84 (cells f r 0 84), mu := BitVec.ofNat 9 (cells f r 1 9), sfu := BitVec.ofNat 9 (cells f r 2 9),
                        row := if Config.factoryFault f r 3 0 then 2 else 0 }
    if x = {} then none else some (100 * f + r, { x with factory := true })))
  let bits := fun (n : Nat) (t : Nat → Bool) => (List.range n).foldl (fun a i => a + 2 ^ i * b2n (t i)) 0
  { rows := rows, fenced := BitVec.ofNat 64 (bits 64 Config.factoryField), factoryF := BitVec.ofNat 64 (bits 64 Config.factoryField),
    stackBits := BitVec.ofNat 32 (bits 32 Config.factoryStack), factoryS := BitVec.ofNat 32 (bits 32 Config.factoryStack),
    ports := BitVec.ofNat 18 (bits 18 Config.portFactory), factoryP := BitVec.ofNat 18 (bits 18 Config.portFactory) }

/-- The joined map of two (R506). -/
def joinMaps (a b : FaultMap) : FaultMap :=
  let keys := (a.rows ++ b.rows).foldl (fun l e => insertNat e.1 l) []
  let rows := keys.map (fun k =>
    let x := mget {} a.rows k
    let y := mget {} b.rows k
    (k, ({ cc := x.cc ||| y.cc, mu := x.mu ||| y.mu, sfu := x.sfu ||| y.sfu, row := if x.row = 0 then y.row else x.row,
           factory := x.factory || y.factory, bootSeq := if x.bootSeq < y.bootSeq then y.bootSeq else x.bootSeq } : RowMap)))
  { bootSeq := a.bootSeq, updates := (if a.updates < b.updates then b.updates else a.updates) + 1, fenced := a.fenced ||| b.fenced,
    factoryF := a.factoryF ||| b.factoryF, rows := rows, stackBits := a.stackBits ||| b.stackBits, factoryS := a.factoryS ||| b.factoryS,
    ports := a.ports ||| b.ports, factoryP := a.factoryP ||| b.factoryP }

/-- The user table at a boot (R503): checked again under the keys then enrolled. -/
def bootCal (s : State) : State :=
  match userCal s.boot with
  | none => modBoot s (fun b => { b with ucal := 0 })
  | some (_, t) =>
    if calStatus s t = stOk then modBoot s (fun b => { b with ucal := 1 })
    else raise 0x03 none none none 0 (modBoot s (fun b => { b with ucal := 2 }))

/-- The deltas of the classes that a test picks are applied (R503); none of a table that its check refused. -/
def calApply (t : Nat → Bool) (s : State) : State :=
  let l := match userCal s.boot with
    | some (_, b) => if s.boot.ucal = 1 then (List.range (field b 0xC 4)).map (calEntry b) else []
    | none => []
  modBoot s (fun b => { b with cal := l.filter (fun e => t (e.1 / 4096)) })

/-- BOOT_WAVES: W_B of the table that is applied, else 1. -/
def bootWaves (s : State) : Nat := (s.boot.cal.find? (fun e => e.1 == 0xF000)).elim 1 (fun e => e.2.toNat)

/-- A field at step 3 of a boot (R493): on, at S3, its units held in reset; one whose domain or PLL fails is fenced (R496). -/
def fieldBoot (f : Nat) (s : State) : State :=
  if Config.fieldGood f then
    let v := stepSupply s f 3
    let s := modField s f (fun x =>
      { x with up := true, step := 3, why := .none, starting := false, acc := 0, cclk := 0, seeds := s.seeds, held := true,
               setPoint := v, supply := v })
    modDom s f (fun d => { d with st := 1, regFault := false })
  else fenceField f s

/-- Is any field up. -/
def anyField (s : State) : Bool := (List.range 64).any (fun f => !fieldDown s f)

/-- Stacks that are not FAILED in the fault map start to train. -/
def stacksStart (s : State) : State :=
  forEach (List.range 32) (fun n s => if s.boot.fmap.stackBits.getLsbD n then s else stackStart n s) { s with stackBits := 0 }

/-- TICK_CTRL.RUN is clear. -/
def stopTicks (s : State) : State := { s with tick := { s.tick with run := false } }

/-- Is a stack still to be trained. -/
def stackStarting (s : State) : Bool := (List.range 32).any (fun n => (getDom s (64 + n)).st == 3)

/-- Step 4 of a boot is complete once no stack is left to train: step 5 is in progress (R493), with class 15 of the user table (R503). -/
def memoriesDone (s : State) : State :=
  if s.boot.phase = 3 && !stackStarting s then modBoot (calApply (fun _ => true) s) (fun b => { b with phase := 4, wave := 0 }) else s

/-- Step 3 begins (R493): the maps and the calibration are read, classes 1 to 3 are applied, and the fields come on. -/
def bootNetwork (s : State) : State :=
  let s := modBoot (stopTicks s) (fun b => { b with phase := 2, err := 0, ready := false, wave := 0 })
  if !Config.pllGood then bootFail 3 s
  else
    let s := mapChange (fun m => { m with bootSeq := m.bootSeq + 1 }) s
    let s := calApply (fun k => decide (k ≤ 3)) (bootCal s)
    let s := forEach (List.range 64) fieldBoot s
    if !anyField s then bootFail 3 s else s

/-- Step 3 ends and step 4 begins (R493): the field controllers' firmware, the boot route tables as the bank of epoch 0, the domains of
memory and links, and classes 4 and 5 of the user table. -/
def bootMemories (s : State) : State :=
  let s := fcLoad 0 63 s
  let s : State := { s with epoch := { bank0 := bankNow s {} } }
  let s := forEach (List.range 64) (fun f s => if (getField s f).up then s else recross f s) s
  let s := calApply (fun k => decide (k ≤ 5)) s
  let s := forEach (List.range 4) (fun q s => if domOn s (96 + q) then s else quadOn q s) s
  memoriesDone (modBoot (linksOn (stacksStart s)) (fun b => { b with phase := 3 }))

/-- Fields of a wave of step 5 (R494). -/
def waveSize (s : State) : Nat := (64 + bootWaves s - 1) / bootWaves s

/-- Have all waves completed. -/
def wavesDone (s : State) : Bool := decide (s.boot.wave * waveSize s ≥ 64)

/-- The next wave of step 5 (R494): its fields release their units from reset and write zero to local SRAM and MU banks. -/
def bootWave (s : State) : State :=
  let first := s.boot.wave * waveSize s
  let fs := (List.range (waveSize s)).map (first + ·)
  let mine := fun (u : Nat) => isUnit u && fs.contains (fieldOf u)
  let s := forEach fs (fun f s => modField s f (fun x => { x with held := false })) s
  let s : State := { s with
    cores := s.cores.map (fun e => (e.1, if mine e.1 then { e.2 with sram := [] } else e.2)),
    mus := s.mus.map (fun e => (e.1, if mine e.1 then { e.2 with mem := [] } else e.2)) }
  modBoot s (fun b => { b with wave := b.wave + 1 })

/-- STACK_TRAINING: a MEC has trained its stack, or failed (R495). -/
def execStackTraining (n : Nat) (ok : Bool) (s : State) : Out :=
  if n ≥ 32 then .fault (.noSuchObject n)
  else if (getDom s (64 + n)).st != 3 || !domOn s (96 + n / 8) then .next s
  else if ok then
    let s := modDom { s with stackBits := setBit s.stackBits n } (64 + n) (fun d => { d with st := 1 })
    .next (memoriesDone (modMec s n (fun m =>
      { m with calTick := s.tick.count, calLeft := 0, tempCal := m.tempNow, scrubFrom := s.now, scrubBase := scrubbed m })))
  else .next (memoriesDone (stackOff n (mapChange (fun m => { m with stackBits := setBit m.stackBits n }) s)))

/-- FC_START_TIMEOUT: field controller f has not started: its field is fenced (R496). -/
def execFcStartTimeout (f : Nat) (s : State) : Out :=
  if f ≥ 64 then .fault (.noSuchObject f)
  else if s.boot.ready || !([2, 3, 4].contains s.boot.phase) || fieldDown s f then .next s
  else
    let s := modField (fenceField f s) f (fun x => { x with firmware := none })
    .next (if !anyField s then bootFail 3 s else if s.boot.phase = 2 then s else armDown s)

/-- A fault found by the boot's self-test (R494). -/
def bootFault (x : SiteFault) (s : State) : State :=
  rowChange x.field x.prow (fun r =>
    { slotFault x.chain x.slot r with factory := r.factory || isFactory x.field x.prow x.chain x.slot }) s

/-- Rows whose chains are exhausted are fenced, and local rows mapped (01 R20, R22). -/
def bootRows (f : Nat) (s : State) : State :=
  remap f (fenceSpent f s)

/-- Does a reported fault name a site of a field that is up. -/
def siteFaultOk (s : State) (x : SiteFault) : Bool :=
  decide (x.field < 64) && decide (x.prow < 100) && (x.chain == 3 || (decide (x.chain < 3) && decide (x.slot < (chainSlots x.chain).1))) &&
    (getField s x.field).up

/-- BOOT_DONE: the last wave of the compute step is complete, with the faults that the self-test found (R493 steps 5, 6). -/
def execBootDone (faults : List SiteFault) (s : State) : Out :=
  if s.boot.ready || s.boot.phase != 4 || !wavesDone s then .next s
  else
    let s := forEach (faults.filter (siteFaultOk s)) bootFault s
    let s := forEach ((List.range 64).filter (fun f => (getField s f).up)) bootRows s
    let w := bootWaves s
    let s := modBoot s (fun b => { b with phase := 5, ready := true, waves := BitVec.ofNat 5 w })
    .next (raise 0x01 none none none (w + 2 ^ 8 * s.boot.ucal.toNat) s)

/-! ## Brownout and thermal trip (14 R480, R481) -/

/-- The newest save, committed or not, with its slot. -/
def latestSave (w : Power) : Option (Bool × Save) :=
  match w.save0, w.save1 with
  | some a, some b => if a.serial < b.serial then some (true, b) else some (false, a)
  | some a, none => some (false, a)
  | none, some b => some (true, b)
  | none, none => none

/-- The save that a start restores: the newest, where it is committed (14 R483, R484; log 40, DEDUCED). -/
def startSave (w : Power) : Option Save := (latestSave w).bind (fun e => if e.2.committed then some e.2 else none)

/-- The newest committed save, with its slot. -/
def newestSave (w : Power) : Option (Bool × Save) :=
  match w.save0.filter (·.committed), w.save1.filter (·.committed) with
  | some a, some b => if a.serial < b.serial then some (true, b) else some (false, a)
  | some a, none => some (false, a)
  | none, some b => some (true, b)
  | none, none => none

/-- A save that holds a header and no commit block, with its slot. -/
def openSave (w : Power) : Option (Bool × Save) :=
  match w.save0.filter (fun x => !x.committed), w.save1.filter (fun x => !x.committed) with
  | some a, _ => some (false, a)
  | none, some b => some (true, b)
  | none, none => none

/-- Write a save, not yet committed, into the slot that does not hold the newest committed one. -/
def writeSave (x : Save) (w : Power) : Power :=
  match newestSave w with
  | some (false, _) => { w with save1 := some x }
  | _ => { w with save0 := some x }

/-- The brownout sequence with a cause: 1 BROWNOUT, 2 THERM_TRIP (R480). -/
def brownout (cause : Nat) (s : State) : State :=
  let s := countTick (modBoot s (fun b => { b with fwWrite := none, unitResets := [] }))
  let s := haltAll 7 (forEach (tickPolders s) frameDue s)
  let objs := s.objs
  let ws := s.fields.flatMap (fun e => e.2.waiters)
  let s := linksOff (forEach (List.range 64) mbxClear s)
  let s := forEach (List.range 32) stackOff s
  let s := fieldsOff (spanClear (forEach (List.range 4) quadOff s))
  let s := drainEntries (markContexts 8 (BitVec.ofNat 8 cause) (configAbandon s))
  let serial := match newestSave s.power with | some (_, x) => x.serial + 1 | none => 1
  let x : Save :=
    { cause := BitVec.ofNat 2 cause, tick := s.tick.count, serial := serial, ctxs := s.ctxs, events := s.host.log, fmap := s.boot.fmap,
      polders := s.polders, objs := objs, waiters := ws, slow := s.polders.map (fun e => (e.1, slowStep s e.1)), committed := false }
  modPower (modBoot (stopTicks s) (fun b => { b with ready := false })) (fun w =>
    { writeSave x w with shed := true, pwrGood := false, alert := true, tripped := w.tripped || cause == 2 })

/-- Does Marrow run, with something to shed. -/
def mayShed (s : State) : Bool := s.power.ao && !s.power.shed && decide (2 ≤ s.boot.phase.toNat) && s.boot.phase != 7

/-- BROWNOUT: the bus crosses 39.0 V. -/
def execBrownout (s : State) : Out := if mayShed s then .next (brownout 1 s) else .next s

/-- Does a reading reach its trip temperature (R478): 120 °C of a field or base-wafer sensor, 105 °C of a stack, 110 °C of the management
complex's own sensor. -/
def tripDue (s : State) : Bool :=
  s.fields.any (fun e => decide (e.2.baseTemp.toNat ≥ 120) || e.2.sensNow.any (fun t => decide (t.toNat ≥ 120))) ||
    s.mecs.any (fun e => decide (e.2.tempNow.toNat ≥ 105)) || decide (s.power.mgcTemp.toNat ≥ 110)

/-- A thermal trip where one is due (R478). -/
def tripCheck (s : State) : State := if tripDue s && mayShed s then brownout 2 s else s

/-- THERMAL_TRIP: the management complex's own sensor reads 110 °C or more, at a value that is free; the readings of the other sensors come
with GOVERNOR_TICK and MEC_TELEMETRY and trip there (R478). -/
def execThermalTrip (s : State) : Out :=
  if mayShed s then
    let (w, s) := takeFree s
    .next (tripCheck (modPower s (fun p => { p with mgcTemp := BitVec.ofNat 8 (110 + w.toNat % 146) })))
  else .next s

/-- GOVERNOR_TICK: with the sensor readings of the tick, and the steps that the second M-core decided otherwise. -/
def execGovernorTick (temps : List Reading) (differs : List Decision) (s : State) : Out :=
  if temps.any (fun r => decide (r.field ≥ 64) || decide (r.sensor > 16)) then .fault (.noSuchObject 64)
  else if !s.power.govDue || s.power.shed then .next s
  else .next (tripCheck (governorTick temps differs s))

/-- REFRESH, of rank 1: nothing keeps it waiting (10 R365). -/
def execRefresh (n : Nat) (s : State) : Out :=
  if n ≥ 32 then .fault (.noSuchObject n)
  else if !stackOn s n then .next s
  else .next (tripCheck (refreshed n s))

/-- MEC_TELEMETRY, of rank 6: the stack's temperature and its on-die error reports are read (10 R369). -/
def execMecTelemetry (n : Nat) (t : Telemetry) (s : State) : Out :=
  if n ≥ 32 then .fault (.noSuchObject n)
  else if !stackOn s n || foreground s n || decide ((getMec s n).calLeft > 0) then .next s
  else .next (tripCheck (mecTelemetry n t s))

/-! ## Wafer reset (15 R510, R511) -/

/-- A command queue, emptied (R510 step 4). -/
def queueReset (q : CmdQ) : CmdQ := { done := q.done }

/-- What stops at a wafer reset: frames, contexts, polders, configurations, links, mailboxes and, but for KEEP_SPAN, the span. -/
def waferStop (keepSpan : Bool) (s : State) : State :=
  let s := drainEntries (markContexts 9 (BitVec.ofNat 8 (b2n keepSpan)) (haltAll 1 s))
  let s := forEach (tickPolders s) (fun p s => vacate p (weightsInvalid p s)) (configAbandon (closeAll 2 s))
  let s := linksOff (forEach (List.range 64) mbxClear s)
  if keepSpan then mecsReset (List.range 32) (spanKeep s) else forEach (List.range 4) quadOff (spanClear s)

/-- What a wafer reset clears; TICK_COUNT returns to zero (02 R46). PST_FRAME, PST_FAILED, PST_FLAGS and PST_LAST stay as they stood (log
48, DESIGN CHOICE). -/
def waferClear (keepSpan : Bool) (s : State) : State :=
  let mifs := s.mifs.filter (fun e => isSp e.1)
  let s := fieldsOff s
  let s : State := { s with
    mifs := if keepSpan then mifs else [], objs := [], ses := [], polders := s.polders.map (fun e => (e.1, { e.2 with dwCount := {} })),
    host := { s.host with queues := s.host.queues.map (fun e => (e.1, queueReset e.2)) } }
  modConf (modBoot s (fun b => { b with repair := none, later := [], fwWrite := none, unitResets := [] })) (fun k => { k with archive := [], archUsed := 0 })

/-- A wafer reset up to the boot that follows it. -/
def waferReset (keepSpan : Bool) (s : State) : State :=
  let s := waferClear keepSpan (waferStop keepSpan s)
  { s with tick := { s.tick with count := 0 } }

/-- The saves as Shallot finds them at a start (14 R483): BRN_STAT shows the newest. -/
def examineSaves (s : State) : State :=
  let arg := fun (e : Bool × Save) => e.2.cause.toNat + 4 * b2n e.1 + 2 ^ 32 * (e.2.tick.toNat % 2 ^ 32)
  let s0 := s
  let s := match latestSave s.power with
    | none => s
    | some e =>
      let s := modPower s (fun w => { w with brnSaved := e.2.committed, brnCause := e.2.cause, brnSlot := e.1, brnTick := e.2.tick.truncate 32 })
      if e.2.committed then raise 0x05 none none none (arg e) s else s
  eventsByCode s0 (match openSave s.power with
  | none => s
  | some e => raise 0x06 none none none (arg e) (modPower s (fun w => { w with brnIncomplete := true })))

/-- A context as a committed save restores it (14 R484). The save holds no seed and a start leaves the seed table empty: such a context has
no seed from then on (log 48, DESIGN CHOICE). -/
def restoredCtx (x : Ctx) : Ctx :=
  if x.state == 0 || x.state == 6 then x
  else { x with state := 5, parkPend := false, left := 0, seedDue := false, shRec := { x.shRec with reason := 1 } }

/-- What a start restores of the newest save where it is committed (14 R484, 15 R506): the context table, and its fault map joined to the
working one. -/
def restoreSave (s : State) : State :=
  match startSave s.power with
  | some x => modBoot { s with ctxs := x.ctxs.map (fun e => (e.1, restoredCtx e.2)) } (fun b => { b with fmap := joinMaps b.fmap x.fmap, mapDue := true })
  | none => s

/-- A release of RESET_N that takes effect: ALERT_N is released; where Marrow runs, a wafer reset without KEEP_SPAN follows, else
the boot fails again. After a shedding it is a start, which takes its contexts from the save (14 R483, R484, 15 R511). -/
def resetInput (s : State) : State :=
  let s := modPower s (fun w => { w with alert := false, tripped := false, resetHeld := false, mgcTemp := 0 })
  if s.boot.phase = 7 && s.boot.err != 3 then bootFail 4 s
  else
    let shed := s.power.shed
    let s := waferReset false (if shed then { s with ctxs := [] } else s)
    let s := modPower s (fun w => { w with shed := false, pwrGood := true })
    bootNetwork (if shed then restoreSave (examineSaves s) else s)

/-- RESET_INPUT: RESET_N is released; during a save it waits for the save's end. -/
def execResetInput (s : State) : Out :=
  if !s.power.ao || s.boot.phase.toNat < 2 then .next s
  else if s.power.shed && (openSave s.power).isSome then .next (modPower s (fun w => { w with resetHeld := true }))
  else .next (resetInput s)

/-- RST_WAFER: its completion is not delivered. -/
def execRstWafer (q : Nat) (s : State) : Out :=
  hostCmd q 0x43 (fun c s => bootNetwork (waferReset (c.a0.getLsbD 0) s)) s

/-- SAVE_COMMIT: the save and its commit block stand in flash. -/
def execSaveCommit (s : State) : Out :=
  if !s.power.shed || (openSave s.power).isNone then .next s
  else
    let done := fun (x : Option Save) => x.map (fun y => { y with committed := true })
    let s := modPower s (fun w => { w with save0 := done w.save0, save1 := done w.save1, alert := w.tripped })
    .next (if s.power.resetHeld then resetInput s else s)

/-! ## Power (14 R482, R484; 15 R492, R493) -/

/-- AO without power: the flash and the fuses keep what they hold. -/
def powerOff (s : State) : State :=
  let b := s.boot
  let k := s.sec
  { State.reset with
    pending := s.pending, free := s.free,
    power := { ao := false, save0 := s.power.save0, save1 := s.power.save1, inputOpen := s.power.inputOpen },
    boot := { fmapA := b.fmapA, fmapB := b.fmapB, userCalA := b.userCalA, userCalB := b.userCalB, imgA := b.imgA, imgB := b.imgB },
    sec := { slotState := k.slotState, slotKey := k.slotKey, svnMin := k.svnMin, nonce := k.nonce, secret := k.secret } }

/-- AO_LOCKOUT: the bus falls to the always-on undervoltage lockout. -/
def execAoLockout (s : State) : Out :=
  if s.power.ao && !mayShed s then .next (powerOff s) else .next s

/-- The working fault map at power-up: the newer valid copy in flash, else the factory list's. -/
def powerMap (s : State) : FaultMap := (fmapFlash s.boot).getD factoryMap

/-- A valid Marrow image (16 R533). -/
def imageUsable (s : State) (i : FwImage) : Bool := i.good && decide (i.svn.toNat ≥ s.sec.svnMin.toNat)

/-- The image that step 2 loads, if any: true B. -/
def chooseImage (s : State) : Option Bool :=
  let a := imageUsable s s.boot.imgA
  let b := imageUsable s s.boot.imgB
  if a && b then some (decide (s.boot.imgA.version < s.boot.imgB.version)) else if a then some false else if b then some true else none

/-- Step 1 of a power-up boot (R493): the input stage is closed, Shallot's second stage is read and checked, and Shallot derives the device
identity key (16 R529). -/
def powerBoot (s : State) : State :=
  let s := modPower s (fun w => { w with inputOpen := false })
  if !Config.shallotGood then bootFail 1 s
  else
    let s := modSec s (fun k => { k with dik := dikOf k.secret, keyRegs := dikOf k.secret })
    modBoot s (fun b => { b with phase := 1 })

/-- Step 2 (R493): the newer valid image is loaded into the M-cores that run, Shallot examines the saves, and step 3 begins. -/
def bootImages (s : State) : State :=
  match chooseImage s with
  | none => bootFail 2 s
  | some isB =>
    let img := if isB then s.boot.imgB else s.boot.imgA
    let other := if isB then s.boot.imgA else s.boot.imgB
    let alt := decide (img.version < other.version)
    let s := modBoot s (fun b => { b with
      runB := isB, svnRun := img.svn, marrowAlt := alt, fmap := powerMap s, mapDue := true, mc0 := Config.mcoreGood 0, mc1 := Config.mcoreGood 1,
      single := !(Config.mcoreGood 0 && Config.mcoreGood 1) })
    if !s.boot.mc0 && !s.boot.mc1 then bootFail 4 s
    else
      let s := if alt then raise 0x02 none none none 0 s else s
      bootNetwork (restoreSave (examineSaves (modPower s (fun w => { w with pwrGood := true }))))

/-- What a boot does on its own in a step without a command: the step in progress ends and the next begins, or the next wave of step 5
is released (log 16, DEDUCED). -/
def bootIdle (s : State) : State :=
  if !s.power.ao || s.power.shed || s.boot.ready then s
  else if s.boot.phase = 1 then bootImages s
  else if s.boot.phase = 2 then bootMemories s
  else if s.boot.phase = 4 && !wavesDone s then bootWave s
  else s

/-- The test access port at Test-Logic-Reset: IDCODE is selected (17 R561; TRST_N, 18 R570). -/
def tapReset (d : Debug) : Debug := { d with ir := 0x02, bypass := false }

/-- POWER_UP: the bus has held the start threshold for 100 ms: after reset or lockout, after a committed save, or after the input stage
opened (18 R567). -/
def execPowerUp (s : State) : Out :=
  let start := powerBoot (modPower (powerOff s) (fun w => { w with ao := true }))
  if !s.power.ao then .next { start with dbg := tapReset start.dbg }
  else if s.power.shed then if s.power.tripped || (openSave s.power).isSome then .next s else .next start
  else if s.power.inputOpen then .next start
  else if s.boot.phase = 0 then .next (powerBoot s)
  else .next s

/-! ## The M-cores (15 R489) -/

/-- HEARTBEAT: each running M-core writes its counter. -/
def execHeartbeat (s : State) : Out :=
  .next (modBoot s (fun b => { b with hb0 := if b.mc0 then b.hb0 + 1 else b.hb0, hb1 := if b.mc1 then b.hb1 + 1 else b.hb1 }))

/-- MGC_CORE_LOST: M-core m's heartbeat has stood still for 1 ms; the other takes over its duties. -/
def execMgcCoreLost (m : Nat) (s : State) : Out :=
  if m ≥ 2 then .fault (.noSuchObject m)
  else if !s.boot.mc0 || !s.boot.mc1 then .next s
  else
    .next (raise 0x04 none none none m (modBoot s (fun b => { b with
      mc0 := b.mc0 && m != 0, mc1 := b.mc1 && m != 1, single := true, hbMisses := satInc b.hbMisses })))

/-- MGC_CORE_RESTART: the restarted M-core has written its heartbeat in time: dual operation resumes. -/
def execMgcCoreRestart (m : Nat) (s : State) : Out :=
  if m ≥ 2 then .fault (.noSuchObject m)
  else if (if m = 0 then s.boot.mc0 else s.boot.mc1) then .next s
  else .next (modBoot s (fun b => { b with mc0 := true, mc1 := true, single := false }))

end Sys2Proof.Machine
end

