-- ==== Sys2Proof/Machine/Debug.lean ====
section
/-! DEFINITION. The debug path (17 R550 to R559): the spaces of every target as words that are read and written, and the DBG
packet. Status blocks that the host reads too (08 R311, 10 R374, R375) stand here. Readings: log 25, DEDUCED. -/

namespace Sys2Proof.Machine

open Sys2Proof

/-! ## Words -/

/-- Two 32-bit registers in a word: the one at the lower offset in [31:0]. -/
def two (lo hi : Nat) : Nat := lo % 2 ^ 32 + 2 ^ 32 * (hi % 2 ^ 32)

/-- An event counter as a number. -/
def cntNat (c : Cnt) : Nat := (cntWord c).toNat

/-- Write-1-to-clear bits of a field of n bits with the bits of v from position `at_` up (00 R12). -/
def w1c {n : Nat} (x : BitVec n) (v : W64) (at_ : Nat) : BitVec n := x &&& ~~~(BitVec.ofNat n (v.toNat / 2 ^ at_))

/-- What kind of target a debug access reaches (17 R551). -/
inductive DbgKind where
  | cc | mu | sfu | fc | mec
  deriving DecidableEq, Repr

/-- The kind of an endpoint, or of a spare position (2^20 up) by its column. -/
def dbgKind (u : Nat) : Option DbgKind :=
  let col := fun (k : Nat) => if k = 5 then DbgKind.mu else if k = 6 then DbgKind.sfu else DbgKind.cc
  if u ≥ 2 ^ 20 then some (col ((u - 2 ^ 20) % 96 % 12))
  else if isUnit u then some (col (unitX u % 12))
  else if isFc u then some .fc
  else if isMec u then some .mec
  else none

/-! ## Switches, mesh interfaces, routers (06 R244, 07 R291, R292) -/

/-- Occupancies packed at a width. -/
def occ (b : Nat) (l : List (List Xfer)) : Nat := packBits b (l.map (·.length))

/-- Word w of a switch's registers. -/
def switchWord (x : Switch) (w : Nat) : Nat :=
  let j := fun (k : Nat) => x.joins.getD k {}
  let jo := fun (a b : Join) => packBits 8 [a.f0.length, a.f1.length, b.f0.length, b.f1.length]
  if w = 0 then two x.flags.toNat (x.recElem.toNat + 8 * b2n x.recSide + 16 * b2n x.recValid)
  else if w = 1 then two (packBits 4 (x.steer.map (fun t => t.tokq.length))) (occ 3 x.vin)
  else if w = 2 then two (occ 3 x.sin) (occ 3 (x.cin.take 8))
  else if w = 3 then two (occ 3 (x.cin.drop 8)) (jo (j 0) (j 1))
  else if w = 4 then two (jo (j 2) (j 3)) (packBits 8 [x.ca0.f0.length, x.ca1.f0.length, x.ca0.f1.length, x.ca1.f1.length])
  else if w = 5 then cntNat x.cmbExc
  else cntNat x.steerErrs

/-- A write of word w of a switch's registers: SW_FLAGS is W1C, and clearing RECONV clears SW_RECONV.VALID. -/
def switchPut (v : W64) (w : Nat) (x : Switch) : Switch :=
  if w = 0 then { x with flags := w1c x.flags v 0, recValid := x.recValid && !v.getLsbD 3 } else x

/-- Does a flight stand in router u: in an input buffer, or at the port of a unit, a field controller or an outward link, where it waits in
the router (07 R247, R287). -/
def heldIn (u : Nat) (f : Flight) : Bool :=
  match f.loc with
  | .router v _ => v == u
  | .arrived v => f.net == .req && (homeRouter v == u || f.via == some u)
  | _ => false

/-- VC1 to VC3 flits of the flights that a test picks. -/
def flitsAt (s : State) (t : Flight → Bool) : Nat :=
  s.flights.foldl (fun a f => if t f && f.pkt.vc != 0 then a + flitsOf f.pkt else a) 0

/-- Is the injection port of unit u throttled (07 R273). -/
def throttled (s : State) (u : Nat) : Bool :=
  let t := bitsOf (getMif s u).cfg.toNat 5 0
  t != 0 && decide (flitsAt s (fun f => f.net == .req && heldIn u f) > t)

/-- Word w of a mesh interface's registers. -/
def meshWord (s : State) (u w : Nat) : Nat :=
  let m := getMif s u
  if w = 0 then
    two m.cfg.toNat
      (min (coreOut m) 63 + 2 ^ 6 * b2n m.held.isSome + 2 ^ 7 * b2n m.sendBlk + 2 ^ 8 * b2n m.recvBlk + 2 ^ 9 * b2n (throttled s u) +
        2 ^ 12 * (m.held.getD 0 % 2 ^ 20))
  else if w = 1 then m.flags.toNat
  else if w = 2 then m.lnCode.toNat + 2 ^ 8 * m.lnSeq.toNat + 2 ^ 20 * m.lnResp.toNat
  else if w = 3 then cntNat m.nacks
  else if w = 4 then cntNat m.orderRisk
  else if w = 5 then cntNat m.timeouts
  else if w = 6 then cntNat m.resends
  else cntNat m.stale

/-- The writable bits of MESH_CFG (07 R291). -/
def meshCfgMask : W32 := 0x0F1FFF3F

/-- A write of word w: MESH_CFG is RW, MESH_FLAGS W1C. -/
def meshPut (v : W64) (w : Nat) (m : MeshIf) : MeshIf :=
  if w = 0 then { m with cfg := v.truncate 32 &&& meshCfgMask }
  else if w = 1 then { m with flags := w1c m.flags v 0 }
  else m

/-- Word w of a router's registers. -/
def routerWord (s : State) (u w : Nat) : Nat :=
  let r := getRouter s u
  let held := fun (p : Port) => b2n (r.heldOut.any (fun h => h.1 == p))
  if w = 0 then
    let down := fun (n : Net) => [Dir.n, .e, .s, .w].map (fun d => b2n (linkDown s n u d))
    two (packBits 1 (down .req ++ down .rpl) + 2 ^ 8 * packBits 1 [held (.side .n), held (.side .e), held (.side .s), held (.side .w), held .unit] +
          2 ^ 16 * min (flitsAt s (fun f => heldIn u f || replicaIn u f)) 255)
      r.flags.toNat
  else if w = 1 then cntNat r.detours
  else if w = 2 then cntNat r.mcDrops
  else r.linkCe.toNat

/-- A read of RT_LINK_CE clears it. -/
def routerSeen (w : Nat) (r : Router) : Router := if w = 3 then { r with linkCe := 0 } else r

/-- RT_FLAGS is W1C. -/
def routerPut (v : W64) (w : Nat) (r : Router) : Router := if w = 0 then { r with flags := w1c r.flags v 32 } else r

/-! ## Cores (17 R552, R555) -/

/-- Word w of a core's debug registers. -/
def dregWord (c : Core) (w : Nat) : Nat :=
  if w < 0x10 then (c.tagc.getD w 0).toNat
  else if w < 0x30 then
    (if w % 2 = 0 then cntNat (c.tagMsgs.getD ((w - 0x10) / 2) {}) else cntNat (c.tagStall.getD ((w - 0x10) / 2) {}))
  else if w < 0x38 then cntNat (c.afCnt.getD (w - 0x30) {})
  else if w = 0x38 then c.trcCfg.toNat
  else if w = 0x39 then cntNat c.trcSent
  else cntNat c.trcDrops

/-- The writable bits of TRC_CFG: all but [12:5]. -/
def trcMask : BitVec 51 := ~~~0x1FE0

/-- A write of word w: TAGC_CFG_i and TRC_CFG are RW. -/
def dregPut (v : W64) (w : Nat) (c : Core) : Core :=
  if w < 0x10 then tagcWrite w v c
  else if w = 0x38 then { c with trcCfg := v.truncate 51 &&& trcMask }
  else c

/-- Word w of the core state. -/
def stateWord (c : Core) (w : Nat) : Nat :=
  if w < 0x10 then two (c.s.getD (2 * w) 0).toNat (c.s.getD (2 * w + 1) 0).toNat
  else if w < 0x50 then bitsOf (c.v.getD ((w - 0x10) / 8) 0).toNat (64 * ((w - 0x10) % 8) + 63) (64 * ((w - 0x10) % 8))
  else if w < 0xD0 then
    let a := c.acc.getD ((w - 0x50) / 32) []
    let k := 2 * ((w - 0x50) % 32)
    two (a.getD k 0).toNat (a.getD (k + 1) 0).toNat
  else if w = 0xD0 then c.poison.toNat
  else if w < 0x200 then (c.cfg.slots.getD (w - 0x100) 0).toNat
  else
    match c.inbox[(w - 0x200) / 5]? with
    | some m => ((inboxWords m).getD ((w - 0x200) % 5) 0).toNat
    | none => 0

/-- Put the low and high half of a word at positions k and k + 1 of a list. -/
def putPair (l : List W32) (k : Nat) (v : W64) : List W32 := lset (lset l k (v.truncate 32)) (k + 1) (v.extractLsb' 32 32)

/-- A write of word w of the core state: s, v and accumulator cells. -/
def statePut (v : W64) (w : Nat) (c : Core) : Core :=
  if w < 0x10 then { c with s := putPair c.s (2 * w) v }
  else if w < 0x50 then
    let i := 64 * ((w - 0x10) % 8)
    { c with v := lmod c.v ((w - 0x10) / 8) (fun x =>
        BitVec.ofNat 512 (x.toNat - 2 ^ i * bitsOf x.toNat (i + 63) i + 2 ^ i * v.toNat)) }
  else if w < 0xD0 then { c with acc := lmod c.acc ((w - 0x50) / 32) (fun a => putPair a (2 * ((w - 0x50) % 32)) v) }
  else c

/-! ## SFUs (05 R183) -/

/-- Word w of an SFU's registers. -/
def sregWord (x : Sfu) (w : Nat) : Nat :=
  let left := fun (d : Nat) => b2n (x.framed && decide ((x.prog.getD d {}).count.toNat < (x.cfg.descs.getD d {}).frameEntries))
  if w = 0 then two (packBits 1 ((List.range 8).map left) + 2 ^ 8 * b2n x.ended) x.sflags.toNat
  else if w = 1 then x.sctx + 2 ^ 13 * b2n x.svalid
  else two (x.prog.getD (2 * (w - 2)) {}).count.toNat (x.prog.getD (2 * (w - 2) + 1) {}).count.toNat

/-- SFLAGS is W1C. -/
def sregPut (v : W64) (w : Nat) (x : Sfu) : Sfu := if w = 0 then { x with sflags := w1c x.sflags v 32 } else x

/-! ## Field controllers (08 R311, 17 R559) -/

/-- Units of RUNNING polders in field f that have not signalled frame end. -/
def fendPending (s : State) (f : Nat) : Nat :=
  ((poldersIn s 2).flatMap (fun p => (unended s p).filter (fun u => fieldOf u == f))).length

/-- Word w of a field controller's registers: its sync status block, then its own. -/
def fcWord (s : State) (f w : Nat) : Nat :=
  let x := getField s f
  if w = 0 then two x.waiters.length x.fcsFlags.toNat
  else if w = 1 then cntNat x.fcsOps
  else if w = 2 then cntNat x.fcsSats
  else if w = 3 then cntNat x.fcsDrop
  else if w = 4 then cntNat x.fcsNacks
  else if w = 5 then x.fcsHwm.toNat
  else if w < 8 then 0
  else if w = 0x10 then fendPending s f
  else if w = 0x11 then cntNat x.probeMisses
  else (x.sensNow.getD (w - 0x18) 0).toNat + 2 ^ 8 * (x.sensMax.getD (w - 0x18) 0).toNat

/-- What a read does: FCS_HWM takes the present WAITERS, FC_TEMP_n.MAX the present NOW (00 R12). -/
def fcSeen (w : Nat) (x : Field) : Field :=
  if w = 5 then { x with fcsHwm := BitVec.ofNat 13 x.waiters.length }
  else if w ≥ 0x18 then { x with sensMax := lset x.sensMax (w - 0x18) (x.sensNow.getD (w - 0x18) 0) }
  else x

/-- FCS_FLAGS is W1C. -/
def fcPut (v : W64) (w : Nat) (x : Field) : Field := if w = 0 then { x with fcsFlags := w1c x.fcsFlags v 32 } else x

/-! ## Memory edge controllers (10 R374, R375) -/

/-- Word w of MEC n's block. -/
def mecWord (s : State) (n w : Nat) : Nat :=
  let m := getMec s n
  if w = 0 then two (trkOf s n + 2 ^ 15 * b2n (epByCauseway (downSet s) n)) m.flags.toNat
  else if w = 1 then cntNat m.ce
  else if w = 2 then cntNat m.ue
  else if w = 3 then m.ueAddr.toNat + 2 ^ 41 * b2n m.ueValid
  else if w = 4 then m.pfVa.toNat + 2 ^ 30 * m.pfCtx.toNat + 2 ^ 43 * m.pfReason.toNat + 2 ^ 46 * b2n m.pfValid
  else if w = 5 then cntNat m.denys
  else if w = 6 then cntNat m.hits
  else if w = 7 then cntNat m.misses
  else if w = 8 then m.trkHwm.toNat
  else if w = 9 then two m.scrubPos.toNat m.scrubPasses.toNat
  else if w = 10 then m.calTick.toNat
  else if w = 11 then m.tempNow.toNat + 2 ^ 8 * m.tempMax.toNat
  else if w = 12 then cntNat m.rd
  else if w = 13 then cntNat m.wr
  else
    let e := 16 * n + (w - 0x40) / 4
    let x := getSe s e
    if w % 4 = 0 then
      x.owner.toNat + 2 ^ 8 * b2n x.assigned + 2 ^ 9 * b2n x.running + 2 ^ 10 * min x.desc (x.cfg.length - 1) + 2 ^ 13 * b2n x.err +
        2 ^ 14 * x.code.toNat + 2 ^ 19 * b2n x.pf + 2 ^ 20 * b2n x.late
    else if w % 4 = 1 then min (seTrans s e) 1024
    else if w % 4 = 2 then cntNat x.lateCnt
    else cntNat x.lists

/-- What a read does: MEC_TRK_HWM and MEC_TEMP.MAX start again (00 R12). -/
def mecSeen (n w : Nat) (s : State) : State :=
  if w = 8 then modMec s n (fun m => { m with trkHwm := BitVec.ofNat 15 (trkOf s n) })
  else if w = 11 then modMec s n (fun m => { m with tempMax := m.tempNow })
  else s

/-- MEC_FLAGS is W1C, and clearing PF re-arms MEC_PF; SE_STAT.LATE is W1C. -/
def mecPut (n : Nat) (v : W64) (w : Nat) (s : State) : State :=
  if w = 0 then
    modMec s n (fun m =>
      let r := v.getLsbD 34
      { m with flags := w1c m.flags v 32, pfValid := m.pfValid && !r })
  else if 0x40 ≤ w && w % 4 = 0 then modSe s (16 * n + (w - 0x40) / 4) (fun x => { x with late := x.late && !v.getLsbD 20 })
  else s

/-- The defined words of a MEC's block. -/
def mecDefined (w : Nat) : Bool := decide (w < 14) || (decide (0x40 ≤ w) && decide (w < 0x80))

/-! ## Spaces (17 R551) -/

/-- The registers of an MU that are defined, by offset (05 R214). -/
def muDefined (off : Nat) : Bool :=
  decide (off ≤ 0x20) || (decide (0x100 ≤ off) && decide (off < 0x180) && decide (off % 0x20 ≤ 0x10)) ||
    (decide (0x400 ≤ off) && decide (off < 0xC00))

/-- Is word w of a space defined for a target. -/
def dbgDefined (s : State) (u : Nat) (k : DbgKind) (space w : Nat) : Bool :=
  match k with
  | .cc =>
    if space = 0 then (sprRead s u w).isSome
    else if space = 1 then decide (w ≤ 0x3A)
    else if space = 2 then decide (w ≤ 6)
    else if space = 3 then decide (w ≤ 7)
    else if space = 4 then decide (w ≤ 3)
    else space == 5 && (decide (w ≤ 0xD0) || (decide (0x100 ≤ w) && decide (w < 0x250)))
  | .mu =>
    if space = 1 then muDefined (8 * w)
    else if space = 2 then decide (w ≤ 6)
    else if space = 3 then decide (w ≤ 7)
    else space == 4 && decide (w ≤ 3)
  | .sfu => if space = 1 then decide (w ≤ 5) else space == 2 && decide (w ≤ 6)
  | .fc =>
    if space = 1 then decide (w < 8) || w == 0x10 || w == 0x11 || (decide (0x18 ≤ w) && decide (w < 0x28))
    else space == 4 && decide (w ≤ 3)
  | .mec => space == 1 && mecDefined w

/-- The router whose registers SPACE 4 of a target shows: its own, or that at (48, 48) of a field controller's field. -/
def dbgRouter (u : Nat) (k : DbgKind) : Nat :=
  if k = .fc then unitAt (96 * (unitX u % 8) + 48) (96 * (unitX u / 8) + 48) else u

/-- Word w of a space. -/
def dbgWord (s : State) (u : Nat) (k : DbgKind) (space w : Nat) : W64 :=
  BitVec.ofNat 64
    (if space = 2 then switchWord (getSw s u) w
     else if space = 3 then meshWord s u w
     else if space = 4 then routerWord s (dbgRouter u k) w
     else
       match k with
       | .cc =>
         if space = 0 then (if w = 0 && u ≥ 2 ^ 20 then (Config.spareUnitId u).toNat else (sprRead s u w).getD 0)
         else if space = 1 then dregWord (getCore s u) w
         else stateWord (getCore s u) w
       | .mu => muReg (getMu s u) (8 * w)
       | .sfu => sregWord (getSfu s u) w
       | .fc => fcWord s (unitX u) w
       | .mec => mecWord s (unitX u) w)

/-- What a read of word w of a space does: an RC field clears (17 R553). -/
def dbgSeen (u : Nat) (k : DbgKind) (space w : Nat) (s : State) : State :=
  if space = 4 then modRouter s (dbgRouter u k) (routerSeen w)
  else
    match k with
    | .cc => if space = 0 then modCore s u (fun c => sprReadEffect c w) else s
    | .mu => if space = 1 then modMu s u (muRegRead (8 * w)) else s
    | .fc => modField s (unitX u) (fcSeen w)
    | .mec => mecSeen (unitX u) w s
    | .sfu => s

/-- A write of word w of a space other than an MU's registers (17 R553). -/
def dbgPut (u : Nat) (k : DbgKind) (space : Nat) (v : W64) (w : Nat) (s : State) : State :=
  if space = 2 then modSw s u (switchPut v w)
  else if space = 3 then modMif s u (meshPut v w)
  else if space = 4 then modRouter s (dbgRouter u k) (routerPut v w)
  else
    match k with
    | .cc =>
      if space = 0 then modCore s u (fun c => sprWrite c w (v.truncate 32))
      else if space = 1 then modCore s u (dregPut v w)
      else modCore s u (statePut v w)
    | .sfu => modSfu s u (sregPut v w)
    | .fc => modField s (unitX u) (fcPut v w)
    | .mec => mecPut (unitX u) v w s
    | .mu => s

/-- May the core state of u be written: its polder is LOADED or HALTED, or it is unassigned (17 R553). -/
def stateWritable (s : State) (u : Nat) : Bool :=
  match ownerOf s u with
  | none => true
  | some p => (getPolder s p).state == 1 || (getPolder s p).state == 3

/-- Put a list of words from word w of a space up. -/
def dbgPuts (u : Nat) (k : DbgKind) (space : Nat) : List W64 → Nat → State → State
  | [], _, s => s
  | v :: vs, w, s => dbgPuts u k space vs (w + 1) (dbgPut u k space v w s)

/-! ## The packet (17 R550 to R553) -/

/-- LEN of a DBG packet against its payload (17 R550). -/
def dbgLenOk (p : Packet) : Bool :=
  decide (p.len < 32) && (if bitsOf p.arg 0 0 = 1 then p.payload.length == p.len + 1 else p.payload.isEmpty)

/-- Serve the DBG packet p at target u. -/
def dbgServe (u : Nat) (k : DbgKind) (p : Packet) (s : State) : Serve :=
  let space := bitsOf p.arg 3 1
  let ws := (List.range (p.len + 1)).map (· + p.daddr)
  if !ws.all (dbgDefined s u k space) then .refuse s nkAddr
  else if bitsOf p.arg 0 0 = 0 then
    .done (forEach ws (dbgSeen u k space) s) (ws.map (dbgWord s u k space))
  else if space = 5 then
    if !ws.all (fun w => decide (w < 0xD0)) || !stateWritable s u then .refuse s nkAddr
    else
      let s := dbgPuts u k space p.payload p.daddr s
      .done (match ownerOf s u with | some q => dropAwait q (dikewatchDone q s) | none => s) []
  else if k = .mu && space = 1 then
    let offs := ws.map (8 * ·)
    if offs.any (fun o => 0x100 ≤ o && o < 0x180 && o % 0x20 = 0 && winWaits (getMu s u) ((o - 0x100) / 0x20)) then .wait s
    else
      let r := muRegWrites u (8 * p.daddr) p p.payload false s
      if r.1 then .later r.2 else .done r.2 []
  else .done (dbgPuts u k space p.payload p.daddr s) []

/-- DBG: the packet at the port of target u is served (17 R550 to R553); a position on an absent or fenced row answers NO_UNIT. -/
def execDbg (u : Nat) (s : State) : Out :=
  match dbgKind u with
  | none => .fault (.noSuchObject u)
  | some k =>
    match nextReq s u opDbg with
    | none => .next s
    | some p =>
      let gone := dropReq u opDbg s
      let risk := fun s => if k == .cc || k == .mu then orderRisk u p s else s
      if isUnit u && rowAbsent s u then (if answerRoom s u p.vc then .next (portAnswer u nkNoUnit p gone) else .next s)
      else if heldBackReq s u p then .next s
      else if !dbgLenOk p then .next (nack p p.dest nkBadOp (badOpVia s u opDbg nkBadOp (risk gone)))
      else
        match dbgServe u k p s with
        | .done s d =>
          let s := risk (dropReq u opDbg s)
          .next (if bitsOf p.arg 0 0 = 1 then reply p p.dest opAck 0 0 0 [] s
                 else reply p p.dest opRdata (d.length - 1) 0 0 d s)
        | .refuse s c => .next (nack p p.dest c (risk (dropReq u opDbg s)))
        | .later s => .next (risk (dropReq u opDbg s))
        | .wait s => .next s

/-! ## The host's use of it (17 R554, R563) -/

/-- A host access of words at byte off of debug window p: one DBG packet to the unit that its selector names, from the port that
carries the access (R554, R416). -/
def debugAccess (h : Req) (p : Nat) (wr : Bool) (off words : Nat) (data : List W64) (s : State) : State :=
  let sel := s.dbg.sel.getD p {}
  let src := carrier h
  let r := openAccess h (!wr) 1 words s
  hostRequest src
    { dest := sel.unit.toNat, op := opDbg, len := words - 1, daddr := off / 8, src := src,
      arg := b2n wr + 2 * sel.space.toNat + 2 ^ 4 * b2n sel.spare + 2 ^ 5 * sel.j.toNat, payload := if wr then data else [] }
    (.host r.1 0) r.2

/-- Does a debug window admit an access: 8 to 256 bytes from a multiple of 8, within the window. -/
def debugSize (off words : Nat) : Bool :=
  off % 8 == 0 && decide (1 ≤ words) && decide (words ≤ 32) && decide (off + 8 * words ≤ 0x8000)

/-- The words that JTAG reaches in a failed boot: BOOT_STAT, MGC_STAT, SEC_OWNER, SEC_NONCE. -/
def jtagFailed (a : Nat) : Bool := [0xE0000, 0xE0010, 0xF0000, 0xF0008].contains (8 * (a / 8))

/-- Does an access at address a answer BUSY: JTAG's, after a failed boot, outside what it reaches there (17 R562). -/
def jtagBusy (s : State) (h : Req) (a : Nat) : Bool := h.port == 2 && s.boot.phase == 7 && !jtagFailed a

/-- DEBUG_WINDOW_ACCESS: to the window of the requester's own port, or of JTAG. -/
def execDebugWindowAccess (h : Req) (wr : Bool) (off words : Nat) (data : List W64) (s : State) : Out :=
  if h.port ≥ 3 then .fault (.noSuchObject h.port)
  else if jtagBusy s h (0x110000 + 0x8000 * h.port + off) then .next (complete h stBusy [] s)
  else if !debugSize off words || (wr && data.length != words) then .next (complete h stAddr [] s)
  else .next (debugAccess h h.port wr off words data s)

/-- The target kind of a TYPE: 0 CC, 1 MU, 2 SFU. -/
def typeKind (t : Nat) : DbgKind := if t = 1 then .mu else if t = 2 then .sfu else .cc

/-- DBG_SNAPSHOT: the words first to first + count - 1 of a space of every unit of a type in P, in ascending unit ID (R563). -/
def execDbgSnapshot (q : Nat) (s : State) : Out :=
  hostCmd q 0xA0 (fun c s =>
    let p := bitsOf c.a0.toNat 7 0
    let space := bitsOf c.a0.toNat 10 8
    let t := bitsOf c.a0.toNat 12 11
    let k := typeKind t
    let a := bitsOf c.a1.toNat 40 0
    let first := bitsOf c.a2.toNat 19 0
    let count := bitsOf c.a2.toNat 35 20
    let ws := (List.range count).map (· + first)
    let us := (polderUnits s p).filter (fun u => dbgKind u == some k)
    if !([1, 3].contains (getPolder s p).state) then finish q stState 0 s
    else if us.any (fun u => fieldDown s (fieldOf u)) then finish q stPdown 0 s
    else if t = 3 || count = 0 || count > 1024 || !ws.all (dbgDefined s 0 k space) then finish q stAddr 0 s
    else
      match bufferStatus s a (bitsOf c.a3.toNat 31 0) (8 * count * us.length) with
      | some st => finish q st 0 s
      | none =>
        let data := us.flatMap (fun u => ws.map (dbgWord s u k space))
        let s := forEach us (fun u s => forEach ws (dbgSeen u k space) s) s
        finish q stOk (8 * data.length) (copyBytes a (wordsBytes data) s)) s

end Sys2Proof.Machine
end

