-- ==== Sys2Proof/Machine/Regs.lean ====
section
/-! DEFINITION. The registers of the device control region (12 R414) as 8-byte words: which halves of a word a chapter defines,
what a word reads as, what a read does, and what a write does under the access codes of 00 R12. Tables: 02 R49, R75; 07 R269;
08 R309 to R311; 10 R373 to R375; 11 R403, R404; 12 R438; 13 R456; 14 R486 to R488; 15 R524; 16 R548; 17 R554.
Readings: log 25, DEDUCED; log 33, DEDUCED. -/

namespace Sys2Proof.Machine

open Sys2Proof

/-! ## Status blocks -/

/-- Word w of a 512-bit value. -/
def digestWord (d : W512) (w : Nat) : Nat := bitsOf d.toNat (64 * w + 63) (64 * w)

/-- Word w of the status block of a polder whose slowest field stands at a step (02 R75). -/
def pstOf (x : Polder) (slow w : Nat) : Nat :=
  if w = 0 then
    two (x.state + 2 ^ 8 * x.divM1.toNat + 2 ^ 16 * x.effDiv.toNat + 2 ^ 26 * min slow 4) x.cause.toNat
  else if w = 1 then x.frames.toNat
  else if w = 2 then cntNat x.failed
  else if w = 3 then two x.budget.toNat x.last.toNat
  else if w = 4 then two x.flags.toNat x.batchN.toNat
  else if w = 5 then x.maxBatch.toNat
  else 0

/-- Word w of the status block of polder p. -/
def pstWord (s : State) (p w : Nat) : Nat := pstOf (getPolder s p) (slowStep s p) w

/-- Word w of a polder's dikewatch record (08 R309). -/
def dwOf (x : Polder) (w : Nat) : Nat :=
  let d := x.dw
  if w = 0 then two (d.cause.toNat + 2 ^ 4 * d.causes.toNat + 2 ^ 16 * b2n d.valid + 2 ^ 17 * x.dwW.toNat) d.pending.toNat
  else if w = 1 then d.frame.toNat
  else if w = 2 then d.tick.toNat
  else if w = 3 then d.fields.toNat
  else if w = 4 then d.pend.toNat + 2 ^ 20 * d.mss.toNat + 2 ^ 40 * b2n d.mssValid
  else if w = 5 then
    d.obj.toNat + 2 ^ 16 * d.waiters.toNat + 2 ^ 29 * b2n d.objValid + 2 ^ 32 * d.reconv.toNat + 2 ^ 52 * b2n d.reconvValid
  else if w = 6 then cntNat x.dwCount
  else 0

/-- The waiters queued on object o, oldest first. -/
def waitersOn (s : State) (o : Nat) : List Waiter := (getField s (objField o)).waiters.filter (fun w => w.obj == o)

/-- Word w of the debug record of an object with its waiters (08 R310). -/
def objOf (x : SyncObj) (ws : List Waiter) (w : Nat) : Nat :=
  let src := fun (i : Nat) => match ws[i]? with | some v => v.src % 2 ^ 20 | none => 0
  if w = 0 then
    x.value.toNat + 2 ^ 32 * x.owner.toNat + 2 ^ 40 * b2n x.alloc + 2 ^ 41 * b2n x.ovf + 2 ^ 42 * b2n x.unf +
      2 ^ 43 * b2n x.freset + 2 ^ 48 * ws.length
  else if w = 1 then src 0 + 2 ^ 20 * src 1
  else if w = 2 then src 2 + 2 ^ 20 * src 3
  else x.lastSrc.toNat + 2 ^ 20 * x.lastSop.toNat + 2 ^ 23 * b2n x.lastValid + 2 ^ 24 * x.lastFrame.toNat

/-- Word w of the configuration block of polder p (11 R404). -/
def cfgWord (s : State) (p w : Nat) : Nat :=
  let x := getPolder s p
  if w < 8 then digestWord x.cfgActive w
  else if w = 8 then
    two (x.slotValid.toNat + 2 ^ 4 * x.active.toNat + 2 ^ 7 * b2n x.swapPend + 2 ^ 8 * x.swapSlot.toNat) x.activations.toNat
  else if 16 ≤ w && w < 48 then digestWord (x.slotDigest.getD ((w - 16) / 8) 0) (w % 8)
  else 0

/-- Word i of a context's entry (02 R77). -/
def ctxOf (x : Ctx) (i : Nat) : Nat :=
  if i = 0 then
    x.state + 2 ^ 3 * b2n x.parkPend + 2 ^ 4 * x.prio.toNat + 2 ^ 8 * x.polder.toNat + 2 ^ 16 * x.left.toNat + 2 ^ 32 * x.pos.toNat
  else if i = 1 then x.adv.toNat + 2 ^ 12 * x.ptBase.toNat + 2 ^ 41 * x.ptPages.toNat
  else if i = 2 then x.frames.toNat
  else if i = 3 then cntNat x.faults
  else if i = 4 then cntNat x.replays
  else if i = 5 then cntNat x.throttles
  else if i = 6 then cntNat x.overruns
  else if i = 7 then x.tag.toNat
  else digestWord x.digest (i - 8)

/-! ## Words by block: each takes the offset o of an 8-byte word in its 64 KiB block -/

/-- The tick generator (02 R49). -/
def tickWord (s : State) (o : Nat) : Nat :=
  if o = 0 then two s.tick.period.toNat (b2n s.tick.run + 2 * b2n s.tick.pendingP)
  else if o = 8 then s.tick.count.toNat
  else s.tick.time.toNat

/-- The route epoch (07 R269). -/
def epochWord (s : State) (o : Nat) : Nat :=
  let e := s.epoch
  if o = 0 then two (b2n e.epoch + 2 * b2n e.armed + 4 * b2n (e.draining && !e.drained) + 8 * b2n e.late) e.changes.toNat else e.tick.toNat

/-- The memory system (10 R373). -/
def memWord (s : State) (o : Nat) : Nat :=
  if o = 0 then two s.ilv.toNat s.stackBits.toNat else two 0 (b2n s.tlbBusy)

/-- The configuration registers (11 R403). -/
def confWord (s : State) (o : Nat) : Nat :=
  let k := s.conf
  if o = 0 then b2n k.stageEn + 2 ^ 16 * k.stageBase.toNat
  else if o = 8 then 2 ^ 16 * k.archBase.toNat
  else if o = 0x10 then k.archSize.toNat
  else if o = 0x18 then
    two (b2n k.busy + 2 * k.op.toNat + 8 * k.phase.toNat + 2 ^ 8 * k.polder.toNat) (k.reason.toNat + 2 ^ 8 * b2n k.reasonV)
  else if o = 0x20 then k.whereOff.toNat + 2 ^ 32 * k.whereUnit.toNat + 2 ^ 52 * b2n k.whereUnitV
  else if o = 0x28 then k.buildId.toNat
  else if o = 0x30 then k.archUsed.toNat
  else digestWord k.digest ((o - 0x40) / 8)

/-- Does port p carry requests now (12 R420). -/
def portCarries (s : State) (p : Nat) : Bool := if s.host.mode then activePort s == some p else portUp s p

/-- NL_STAT of port p. -/
def nlStat (s : State) (p : Nat) : Nat :=
  let x := getPort s p
  x.st + 4 * b2n (portCarries s p) + 8 * b2n (eventPort s == some p) + 16 * x.lanes.toNat

/-- The Nimmos ports (12 R438). -/
def nlWord (s : State) (o : Nat) : Nat :=
  if o < 0x200 then
    let p := o / 0x100
    let x := getPort s p
    let r := o % 0x100
    if r = 0 then two (b2n x.en) (nlStat s p)
    else if r = 8 then x.flags.toNat
    else if r = 0x10 then two x.txNext.toNat x.rxNext.toNat
    else if r = 0x18 then cntNat x.fecCw
    else if r = 0x20 then cntNat x.fecUcw
    else if r = 0x28 then cntNat x.crc
    else if r = 0x30 then cntNat x.replays
    else if r = 0x38 then cntNat x.downs
    else cntNat x.reqs
  else if o = 0x200 then b2n s.host.mode + 2 * b2n s.host.pref
  else if o = 0x208 then two s.host.nextEvt.toNat s.host.log.length
  else if o = 0x210 then cntNat s.host.evtLost
  else cntNat s.host.umsgLost

/-- An entry of the span route table as 16 bits (13 R456). -/
def spanEntry (e : SpanEnt) : Nat := e.pri.toNat + 2 ^ 5 * e.alt.toNat + 2 ^ 10 * b2n e.fell

/-- The span registers (13 R456). -/
def spanWord (s : State) (o : Nat) : Nat :=
  let k := s.span
  if o = 0 then k.waferId.toNat + 2 ^ 6 * b2n k.en + 2 ^ 7 * b2n k.sluice
  else if o = 8 then two 0 k.installs.toNat
  else if o < 0x400 then
    let w := (o - 0x100) / 2
    packBits 16 ((List.range 4).map (fun i => spanEntry (k.table.getD (w + i) {})))
  else if o < 0x1000 then
    let x := getSpan s ((o - 0x400) / 0x40)
    let r := o % 0x40
    if r = 0 then
      two 0 (x.st + 2 ^ 2 * x.peer.toNat + 2 ^ 8 * b2n x.peerV + 2 ^ 9 * b2n x.clash + 2 ^ 16 * x.lanes.toNat)
    else if r = 8 then x.flags.toNat
    else if r = 0x10 then cntNat x.replays
    else if r = 0x18 then cntNat x.crc
    else if r = 0x20 then cntNat x.lost
    else if r = 0x28 then cntNat x.stale
    else cntNat x.msgNacks
  else if o < 0x3000 then (mget 0 (getSpan s ((o - 0x1000) / 0x200)).win (o % 0x200 / 8)).toNat
  else if o % 16 = 0 then (mget 0 k.imp ((o - 0x3000) / 16)).toNat
  else (mget 0 k.impMask ((o - 0x3000) / 16)).toNat

/-- DOM_STAT and DOM_MEAS of domain d; d = 101 is AO, which is on while it runs (14 R488). -/
def domWord (s : State) (d : Nat) (meas : Bool) : Nat :=
  let x := getDom s d
  if meas then x.pnow.toNat + 2 ^ 16 * x.ptick.toNat + 2 ^ 32 * x.ppeak.toNat
  else
    (if d = 101 then b2n s.power.ao else x.st % 4) + 4 * b2n x.suspect + 8 * b2n x.regFault + 16 * b2n x.stale +
      2 ^ 16 * x.volt.toNat + 2 ^ 32 * x.curr.toNat

/-- FLD_STAT of field f (14 R487). -/
def fldStat (s : State) (f : Nat) : Nat :=
  let x := getField s f
  min x.step 4 + 2 ^ 3 * (x.ceil % 8) + 2 ^ 6 * b2n x.hold + 2 ^ 7 * b2n x.starting + 2 ^ 8 * x.temp.toNat +
    2 ^ 16 * x.ehint.toNat + 2 ^ 32 * x.ptick.toNat

/-- The power registers (14 R486 to R488). -/
def powerWord (s : State) (o : Nat) : Nat :=
  let w := s.power
  if o = 0 then w.vin.toNat + 2 ^ 16 * w.iin.toNat + 2 ^ 32 * w.pin.toNat
  else if o = 8 then w.cap.toNat
  else if o = 0x10 then two (w.proj.toNat + 2 ^ 16 * b2n w.capLimited + 2 ^ 17 * b2n w.capUnmet) w.gticks.toNat
  else if o = 0x18 then w.flags.toNat
  else if o = 0x20 then w.tHot.toNat + 2 ^ 8 * w.tCool.toNat + 2 ^ 16 * w.tEvac.toNat + 2 ^ 24 * 120
  else if o = 0x28 then w.inlet.toNat + 2 ^ 12 * w.outlet.toNat + 2 ^ 24 * w.flow.toNat
  else if o = 0x30 then
    two (w.brnCause.toNat + 4 * b2n w.brnSaved + 8 * b2n w.brnIncomplete + 16 * b2n w.brnSlot) w.brnTick.toNat
  else if o < 0x2000 then
    (if o % 16 = 0 then fldStat s ((o - 0x1000) / 16) else cntNat (getField s ((o - 0x1000) / 16)).steps)
  else domWord s ((o - 0x2000) / 16) (o % 16 == 8)

/-- The boot and repair registers (15 R524). -/
def bootWord (s : State) (o : Nat) : Nat :=
  let b := s.boot
  if o = 0 then
    two (b.phase.toNat + 8 * b2n b.ready + 16 * b.err.toNat + 2 ^ 7 * b2n b.marrowAlt + 2 ^ 8 * b.ucal.toNat + 2 ^ 10 * b.waves.toNat)
      b.fmap.bootSeq.toNat
  else if o = 8 then packBits 1 ((List.range 64).map (fun f => b2n (!fieldDown s f)))
  else if o = 0x10 then two (b2n b.mc0 + 2 * b2n b.mc1 + 4 * b2n b.single) b.hbMisses.toNat
  else if o = 0x18 then two (b2n b.auto) b.flags.toNat
  else if o = 0x20 then
    b.lastUnit.toNat + 2 ^ 20 * b.lastCause.toNat + 2 ^ 24 * b.lastProw.toNat + 2 ^ 31 * b.lastSlot.toNat + 2 ^ 38 * b.lastChain.toNat +
      2 ^ 40 * b.lastOutcome.toNat + 2 ^ 42 * b2n b.lastCopied + 2 ^ 43 * b2n b.lastImaged + 2 ^ 44 * b2n b.lastValid
  else if o = 0x28 then b.tick.toNat
  else cntNat b.count

/-- The security registers (16 R548). -/
def secWord (s : State) (o : Nat) : Nat :=
  let k := s.sec
  if o = 0 then packBits 2 (k.slotState.map (·.toNat)) + 2 ^ 8 * k.svnMin.toNat + 2 ^ 14 * s.boot.svnRun.toNat
  else if o = 8 then k.nonce.toNat
  else if o = 0x10 then k.flags.toNat
  else if o = 0x18 then min k.queue.length 8191 + 2 ^ 16 * sealsPending s
  else if o = 0x20 then cntNat k.trStalls
  else if o = 0x28 then k.jnlBase.toNat
  else if o = 0x30 then k.jnlSize.toNat
  else if o = 0x38 then k.jnlHead.toNat
  else if o = 0x40 then k.jnlTail.toNat
  else if o = 0x48 then cntNat k.jnlLost
  else
    let x := getPolder s ((o - 0x1000) / 0x80)
    let w := o % 0x80 / 8
    if w < 8 then digestWord x.wgtDigest w else two (b2n x.wgtValid) x.measures.toNat

/-- A debug selector (17 R554). -/
def selWord (s : State) (p : Nat) : Nat :=
  let d := s.dbg.sel.getD p {}
  d.unit.toNat + 2 ^ 20 * d.space.toNat + 2 ^ 23 * b2n d.spare + 2 ^ 24 * d.j.toNat

/-- The 8-byte word of the device control region at address a. -/
def regWord (s : State) (a : Nat) : Nat :=
  let b := a / 0x10000
  let o := a % 0x10000
  if b = 1 then tickWord s o
  else if b = 2 then pstWord s (o / 64) (o % 64 / 8)
  else if b = 3 then epochWord s o
  else if b = 4 then dwOf (getPolder s (o / 64)) (o % 64 / 8)
  else if b = 5 then fcWord s (o / 64) (o % 64 / 8)
  else if b = 6 then memWord s o
  else if b = 7 then mecWord s (o / 0x400) (o % 0x400 / 8)
  else if b = 8 then confWord s o
  else if b = 9 || b = 0xA then cfgWord s ((a - 0x90000) / 0x200) (a % 0x200 / 8)
  else if b = 0xB then nlWord s o
  else if b = 0xC then spanWord s o
  else if b = 0xD then powerWord s o
  else if b = 0xE then bootWord s o
  else if b = 0xF then secWord s o
  else if b = 0x10 then selWord s (o / 8)
  else (fun i => objOf (getObj s i) (waitersOn s i)) ((a - 0x200000) / 32) (a % 32 / 8)

/-! ## Which offsets a chapter defines -/

/-- Is the 4-byte half of MEC block word w at offset o defined. -/
def mecHalf (o : Nat) : Bool :=
  let w := o / 8
  mecDefined w && (o % 8 == 0 || !(w == 8 || w == 11 || (decide (0x40 ≤ w) && decide (w % 4 < 2))))

/-- Is the 4-byte half at address a of the device control region part of a register. -/
def regDef (a : Nat) : Bool :=
  let b := a / 0x10000
  let o := a % 0x10000
  if b = 1 then decide (o < 0x18)
  else if b = 2 || b = 4 then decide (o < 0x4000)
  else if b = 3 || b = 6 then decide (o < 0x10)
  else if b = 5 then decide (o < 0x1000)
  else if b = 7 then decide (o < 0x8000) && mecHalf (o % 0x400)
  else if b = 8 then decide (o < 0x38) || (decide (0x40 ≤ o) && decide (o < 0x80))
  else if b = 9 || b = 0xA then true
  else if b = 0xB then
    if o < 0x200 then decide (o % 0x100 < 0x48) && o % 0x100 != 0xC else decide (o < 0x220) && o != 0x204
  else if b = 0xC then
    o == 0 || o == 8 || o == 0xC || (decide (0x100 ≤ o) && decide (o < 0x180)) ||
      (decide (0x400 ≤ o) && decide (o < 0x800) && decide (o % 0x40 < 0x38) && o % 0x40 != 0xC) ||
      (decide (0x1000 ≤ o) && decide (o < 0x3100))
  else if b = 0xD then
    (decide (o < 0x38) && o != 0x1C && o != 0x24) || (decide (0x1000 ≤ o) && decide (o < 0x1400)) ||
      (decide (0x2000 ≤ o) && decide (o < 0x2660))
  else if b = 0xE then decide (o < 0x38)
  else if b = 0xF then
    (decide (o < 0x50) && o != 0x14) || (decide (0x1000 ≤ o) && decide (o < 0x9000) && decide (o % 0x80 < 0x48))
  else if b = 0x10 then decide (o < 0x18)
  else decide (0x200000 ≤ a) && decide (a < 0x400000)

/-- Does a 64-byte field start at address a (12 R414): LD_DIGEST, CFG_ACTIVE, SLOT_DIGEST_s, WGT_DIGEST_P. -/
def regWide (a : Nat) : Bool :=
  let o := a % 0x200
  a == 0x80040 ||
    (decide (0x90000 ≤ a) && decide (a < 0xB0000) && (o == 0 || (decide (0x80 ≤ o) && decide (o < 0x180) && o % 0x40 == 0))) ||
    (decide (0xF1000 ≤ a) && decide (a < 0xF9000) && a % 0x80 == 0)

/-- Is an access of n bytes at a allowed: 4 or 8, naturally aligned, to a defined offset, or 64 to a 64-byte field. -/
def regSize (a n : Nat) : Bool :=
  if n = 64 then regWide a
  else if n = 8 then a % 8 == 0 && (regDef a || regDef (a + 4))
  else n == 4 && a % 4 == 0 && regDef a

/-- Does a register at a lie in a block whose power domain is off (08 R310, R311; 10 R374; 13 R456). -/
def regOff (s : State) (a : Nat) : Bool :=
  let b := a / 0x10000
  let o := a % 0x10000
  if b = 5 then !domOn s (o / 64)
  else if b = 7 then !domOn s (96 + o / 0x400 / 8)
  else if b = 0xC then
    (decide (0x400 ≤ o) && decide (o < 0x800) && !spanPowered s ((o - 0x400) / 0x40)) ||
      (decide (0x1000 ≤ o) && decide (o < 0x3000) && !spanPowered s ((o - 0x1000) / 0x200))
  else decide (a ≥ 0x200000) && !domOn s (objField ((a - 0x200000) / 32))

/-! ## Reads -/

/-- What a read of a half of the word at a does (00 R12): RC fields. All of them lie in the low half but DOM_MEAS.PPEAK. -/
def regSeen (a : Nat) (low high : Bool) (s : State) : State :=
  let b := a / 0x10000
  let o := a % 0x10000
  if b = 5 && low then modField s (o / 64) (fcSeen (o % 64 / 8))
  else if b = 7 && low then mecSeen (o / 0x400) (o % 0x400 / 8) s
  else if b = 0xD && high && o ≥ 0x2000 && o % 16 = 8 then modDom s ((o - 0x2000) / 16) (fun x => { x with ppeak := x.pnow })
  else s

/-- The value of n bytes at address a, as words. -/
def regValue (s : State) (a n : Nat) : List W64 :=
  if n = 4 then [BitVec.ofNat 64 (if a % 8 = 0 then regWord s a % 2 ^ 32 else regWord s (a - 4) / 2 ^ 32)]
  else (List.range (n / 8)).map (fun i => BitVec.ofNat 64 (regWord s (a + 8 * i)))

/-- A read of n bytes at address a: status, data, state. -/
def regRead (a n : Nat) (s : State) : Nat × List W64 × State :=
  if !regSize a n then (stAddr, [], s)
  else if regOff s a then (stPdown, [], s)
  else (stOk, regValue s a n, regSeen (8 * (a / 8)) (a % 8 == 0) (n != 4 || a % 8 == 4) s)

/-! ## Writes -/

/-- Is a block read-only to the host as a whole, a write of it PERM (07 R269, 08 R309, 11 R404). -/
def regPerm (a : Nat) : Bool :=
  let b := a / 0x10000
  b == 3 || b == 4 || b == 9 || b == 0xA

/-- A write of MEM_TLB_INV. -/
def tlbInv (v : W32) (s : State) : State :=
  { tlbDrop (if v.getLsbD 31 then none else some (v.toNat % 2 ^ 13)) s with tlbBusy := true }

/-- A write of THERM_CFG (14 R486): the ranges of its fields. -/
def thermCfg (v : W32) (s : State) : Nat × State :=
  let hot := bitsOf v.toNat 7 0
  let cool := bitsOf v.toNat 15 8
  let evac := bitsOf v.toNat 23 16
  if hot < 60 || hot > 100 || cool + 5 > hot || evac < hot + 5 || evac > 110 then (stAddr, s)
  else (stOk, modPower s (fun w => { w with tHot := BitVec.ofNat 8 hot, tCool := BitVec.ofNat 8 cool, tEvac := BitVec.ofNat 8 evac }))

/-- A write of NL_CTRL of port p. -/
def nlCtrl (p : Nat) (v : W32) (s : State) : State :=
  let s := if v.getLsbD 0 = (getPort s p).en then s else nlEn p (v.getLsbD 0) s
  if v.getLsbD 1 then nlRetrain p s else s

/-- Write the 4-byte half at address a. -/
def putHalf (a : Nat) (v : W32) (s : State) : Nat × State :=
  let v64 : W64 := if a % 8 = 4 then v.zeroExtend 64 <<< 32 else v.zeroExtend 64
  let b := a / 0x10000
  let o := a % 0x10000
  if a = 0x10000 then tickPeriod v s
  else if a = 0x10004 then tickCtrl v s
  else if b = 2 && o % 64 = 0x20 then (stOk, modPolder s (o / 64) (fun x => { x with flags := w1c x.flags v64 0 }))
  else if b = 5 then (stOk, modField s (o / 64) (fcPut v64 (o % 64 / 8)))
  else if a = 0x60000 then memCfg v s
  else if a = 0x60008 then (stOk, tlbInv v s)
  else if b = 7 then (stOk, mecPut (o / 0x400) v64 (o % 0x400 / 8) s)
  else if b = 0xB && o < 0x200 && o % 0x100 = 0 then (stOk, nlCtrl (o / 0x100) v s)
  else if b = 0xB && o < 0x200 && o % 0x100 = 8 then (stOk, modPort s (o / 0x100) (fun x => { x with flags := w1c x.flags v64 0 }))
  else if a = 0xB0200 then (stOk, nlMode v s)
  else if a = 0xC0000 then spanCfg v s
  else if b = 0xC && 0x400 ≤ o && o < 0x800 && o % 0x40 = 0 then
    (if v.getLsbD 0 then spRetrain ((o - 0x400) / 0x40) s else (stOk, s))
  else if b = 0xC && 0x400 ≤ o && o < 0x800 && o % 0x40 = 8 then
    (stOk, modSpan s ((o - 0x400) / 0x40) (fun x => { x with flags := w1c x.flags v64 0 }))
  else if a = 0xD0018 then (stOk, modPower s (fun w => { w with flags := w1c w.flags v64 0 }))
  else if a = 0xD0020 then thermCfg v s
  else if a = 0xE0018 then (stOk, modBoot s (fun x => { x with auto := v.getLsbD 0 }))
  else if a = 0xE001C then (stOk, modBoot s (fun x => { x with flags := w1c x.flags v64 32 }))
  else if a = 0xF0010 then (stOk, modSec s (fun k => { k with flags := w1c k.flags v64 0 }))
  else if a ≥ 0x200000 && a % 32 = 4 then
    let i := (a - 0x200000) / 32
    let x := getObj s i
    let x' : SyncObj := { x with ovf := x.ovf && !v.getLsbD 9, unf := x.unf && !v.getLsbD 10 }
    (stOk, setObj s i x')
  else (stOk, s)

/-- Is the word at a one RW register of 8 bytes, which a write of a half leaves the other half of. -/
def regLong (a : Nat) : Bool :=
  a == 0x80000 || a == 0x80008 || a == 0x80010 || a == 0xD0008 || a == 0xF0038 ||
    (decide (0xC1000 ≤ a) && decide (a < 0xC3100)) || (decide (0x100000 ≤ a) && decide (a < 0x100018))

/-- Write such a register. -/
def putLong (a : Nat) (v : W64) (s : State) : Nat × State :=
  let n := v.toNat
  if a = 0x80000 then
    if s.conf.busy then (stBusy, s)
    else (stOk, modConf s (fun k => { k with stageEn := v.getLsbD 0, stageBase := BitVec.ofNat 25 (n / 2 ^ 16) }))
  else if a = 0x80008 then
    if !allVacant s then (stState, s) else (stOk, modConf s (fun k => { k with archBase := BitVec.ofNat 25 (n / 2 ^ 16) }))
  else if a = 0x80010 then
    if !allVacant s then (stState, s) else (stOk, modConf s (fun k => { k with archSize := BitVec.ofNat 25 n }))
  else if a = 0xD0008 then writePwrCap v s
  else if a = 0xF0038 then writeJnlHead v s
  else if a ≥ 0x100000 then
    let d : DbgSel :=
      { unit := BitVec.ofNat 20 n, space := BitVec.ofNat 3 (n / 2 ^ 20), spare := v.getLsbD 23, j := BitVec.ofNat 2 (n / 2 ^ 24) }
    (stOk, { s with dbg := { s.dbg with sel := lset s.dbg.sel ((a - 0x100000) / 8) d } })
  else if a < 0xC3000 then
    (stOk, modSpan s ((a - 0xC1000) / 0x200) (fun x => { x with win := mput x.win (a % 0x200 / 8) (BitVec.ofNat 64 (n % 2 ^ 50)) }))
  else if a % 16 = 0 then
    (stOk, modSpanCfg s (fun k => { k with imp := mput k.imp ((a - 0xC3000) / 16) (BitVec.ofNat 64 (n % 2 ^ 41)) }))
  else (stOk, modSpanCfg s (fun k => { k with impMask := mput k.impMask ((a - 0xC3000) / 16) v }))

/-- A half of a word, with the other half of an old value. -/
def mergeHalf (old : Nat) (v : W32) (high : Bool) : W64 :=
  BitVec.ofNat 64 (if high then two old v.toNat else two v.toNat (old / 2 ^ 32))

/-- A write of n bytes at address a: its status, and the state. Two registers of 4 bytes in one word are written low first, and
the status is that of the first that fails (log 33, DEDUCED). -/
def regWrite (a n : Nat) (v : W64) (s : State) : Nat × State :=
  if !regSize a n then (stAddr, s)
  else if regPerm a then (stPerm, s)
  else if regOff s a then (stPdown, s)
  else if n = 64 then (stOk, s)
  else
    let w := 8 * (a / 8)
    if regLong w then putLong w (if n = 8 then v else mergeHalf (regWord s w) (v.truncate 32) (a % 8 == 4)) s
    else if n = 4 then putHalf a (v.truncate 32) s
    else
      let r := putHalf a (v.truncate 32) s
      let r' := putHalf (a + 4) (v.extractLsb' 32 32) r.2
      (if r.1 = stOk then r'.1 else r.1, r'.2)

end Sys2Proof.Machine
end

