-- ==== Sys2Proof/Machine/HostAccess.lean ====
section
/-! DEFINITION. Accesses to the host address space (12 R411 to R419): which region serves them, what the management complex
answers, what the mesh carries; the frames, JTAG, SMBus and management Ethernet that ask (17 R561, R562; 18 R572, R573).
Readings: log 26, DEDUCED; log 34, DEDUCED. -/

namespace Sys2Proof.Machine

open Sys2Proof

/-! ## Mailbox and doorbell block (12 R414, R427, R433 to R437) -/

/-- MBX_STAT. -/
def mbxStat (m : Mbx) : Nat :=
  b2n (m.owner != 0) + 2 * b2n m.full + 2 ^ 8 * m.owner.toNat + 2 ^ 16 * m.len.toNat

/-- Registers of a mailbox by offset: MBX_LOCK, MBX_SEND, MBX_STAT; sizes as for registers. -/
def mbxRegSize (r n : Nat) : Bool :=
  (n == 4 && (r == 0x100 || r == 0x104 || r == 0x108)) || (n == 8 && (r == 0x100 || r == 0x108))

/-- A read of n bytes at offset r of mailbox i. -/
def mbxRead (sender i r n : Nat) (s : State) : Nat × List W64 × State :=
  if r < 0x100 then
    if !slotSize r n 0x100 then (stAddr, [], s)
    else
      match mbxRefuse s i sender with
      | some st => (st, [], s)
      | none => (stOk, bytesWords (n / 8) (rdN (getMbx s i).data r n), s)
  else if !mbxRegSize r n then (stAddr, [], s)
  else if r = 0x100 then
    let x := readMbxLock i sender s
    (x.1, [BitVec.ofNat 64 x.2.1], x.2.2)
  else
    match mbxRefuse s i sender with
    | some st => (st, [], s)
    | none => (stOk, [BitVec.ofNat 64 (if r = 0x108 then mbxStat (getMbx s i) else 0)], s)

/-- A write of n bytes at offset r of mailbox i. -/
def mbxWrite (sender i r n : Nat) (ws : List W64) (s : State) : Nat × State :=
  let v := ws.headD 0
  if r < 0x100 then (if slotSize r n 0x100 then writeMbxSlot i sender r (wordsBytes ws) s else (stAddr, s))
  else if !mbxRegSize r n then (stAddr, s)
  else if r = 0x108 then (match mbxRefuse s i sender with | some st => (st, s) | none => (stOk, s))
  else if r = 0x104 then writeMbxSend i sender (v.truncate 32) s
  else
    let x := writeMbxLock i sender (v.truncate 32) s
    if n = 4 then x
    else
      let y := writeMbxSend i sender (v.extractLsb' 32 32) x.2
      (if x.1 = stOk then y.1 else x.1, y.2)

/-- Word w of a queue's registers (12 R437). -/
def qWord (x : CmdQ) (w : Nat) : Nat :=
  if w = 0 then two x.sqTail.toNat x.sqHead.toNat
  else if w = 1 then two x.cqHead.toNat (x.cqTail.toNat + 2 ^ 6 * b2n x.phase)
  else if w = 2 then two (b2n x.cur.isSome + 2 ^ 8 * x.opc.toNat) x.cid.toNat
  else cntNat x.done

/-- Is an access of n bytes at offset o a register access: 4 or 8, naturally aligned. -/
def plainSize (o n : Nat) : Bool := (n == 4 || n == 8) && o % n == 0

/-- A read in the block at offset o. -/
def bellRead (sender o n : Nat) (s : State) : Nat × List W64 × State :=
  if o < 0x8000 then mbxRead sender (o / 0x200) (o % 0x200) n s
  else if 0x10000 ≤ o && o < 0x18000 then
    if !slotSize (o % 64) n 64 then (stAddr, [], s)
    else
      let x := getQ s ((o - 0x10000) / 0x1000)
      (stOk, (List.range (n / 8)).map (fun k => mget 0 x.sq (o % 0x1000 / 8 + k)), s)
  else if 0x20000 ≤ o && o < 0x22000 then
    if !slotSize (o % 16) n 16 then (stAddr, [], s)
    else
      let x := getQ s ((o - 0x20000) / 0x400)
      (stOk, (List.range (n / 8)).map (fun k => mget 0 x.cq (o % 0x400 / 8 + k)), s)
  else if 0x30000 ≤ o && o < 0x30100 && plainSize o n then
    let v := qWord (getQ s ((o - 0x30000) / 0x20)) (o % 0x20 / 8)
    (stOk, [BitVec.ofNat 64 (if n = 8 then v else if o % 8 = 0 then v % 2 ^ 32 else v / 2 ^ 32)], s)
  else (stAddr, [], s)

/-- Does descriptor i of a queue lie between SQ_HEAD and SQ_TAIL. -/
def sqPending (x : CmdQ) (i : Nat) : Bool := decide (ringCount x.sqHead.toNat i < ringCount x.sqHead.toNat x.sqTail.toNat)

/-- Put words into a ring from word k up. -/
def putWords (m : Map W64) (k : Nat) : List W64 → Map W64
  | [] => m
  | w :: ws => putWords (mput m k w) (k + 1) ws

/-- A write of a queue's register at offset r: SQ_TAIL, CQ_HEAD. -/
def qPut (q r : Nat) (v : W32) (s : State) : Nat × State :=
  if r = 0 then writeSqTail q v s else if r = 8 then writeCqHead q v s else (stOk, s)

/-- A write in the block at offset o. The completion rings are the device's to write: a host write has no effect (log 34, DEDUCED). -/
def bellWrite (sender o n : Nat) (ws : List W64) (s : State) : Nat × State :=
  if o < 0x8000 then mbxWrite sender (o / 0x200) (o % 0x200) n ws s
  else if 0x10000 ≤ o && o < 0x18000 then
    let q := (o - 0x10000) / 0x1000
    if !slotSize (o % 64) n 64 then (stAddr, s)
    else if sqPending (getQ s q) (o % 0x1000 / 64) then (stBusy, s)
    else (stOk, modQ s q (fun x => { x with sq := putWords x.sq (o % 0x1000 / 8) ws }))
  else if 0x20000 ≤ o && o < 0x22000 then (if slotSize (o % 16) n 16 then (stOk, s) else (stAddr, s))
  else if 0x30000 ≤ o && o < 0x30100 && plainSize o n then
    qPut ((o - 0x30000) / 0x20) (o % 0x20) ((ws.headD 0).truncate 32) s
  else (stAddr, s)

/-! ## What the mesh carries (12 R415) -/

/-- The parts of n bytes from address a in blocks of a size, as address and bytes; fuel: the number of parts. -/
def blocks (size : Nat) : Nat → Nat → Nat → List (Nat × Nat)
  | 0, _, _ => []
  | k + 1, a, n =>
    if n = 0 then [] else let m := min n (size - a % size); (a, m) :: blocks size k (a + m) (n - m)

/-- Issue the parts of an access as requests of its carrier, in ascending address order. -/
def issue (h : Req) (wr : Bool) (n : Nat) (ps : List (Nat × Packet)) (s : State) : State :=
  let r := openAccess h (!wr) ps.length (n / 8) s
  forEach ps (fun x s => hostRequest (carrier h) x.2 (.host r.1 x.1) s) r.2

/-- The packets of an access to DRAM: DREAD by 256-byte block, DWRITE by half of one. -/
def dramParts (s : State) (h : Req) (wr : Bool) (a n : Nat) (ws : List W64) : List (Nat × Packet) :=
  (blocks (if wr then 128 else 256) 8 a n).map (fun b =>
    let off := (b.1 - a) / 8
    (off, dramPacket s (carrier h) (if wr then opDwrite else opDread) b.1 false 0 (b.2 / 8) 0
      (if wr then (ws.drop off).take (b.2 / 8) else [])))

/-- The packets of an access to unit u: READ or WRITE by 256-byte block. -/
def unitParts (h : Req) (wr : Bool) (u a n : Nat) (ws : List W64) : List (Nat × Packet) :=
  (blocks 256 4 a n).map (fun b =>
    let off := (b.1 - a) / 8
    (off, { dest := u, op := if wr then opWrite else opRead, len := b.2 / 8 - 1, daddr := b.1 / 8, src := carrier h,
            payload := if wr then (ws.drop off).take (b.2 / 8) else [] }))

/-- Size and alignment of the regions in memory: 8 to 512 bytes, 8-aligned. -/
def bulkSize (a n : Nat) : Bool := a % 8 == 0 && n % 8 == 0 && decide (8 ≤ n) && decide (n ≤ 512)

/-- An access to DRAM at physical address a that nothing refused. -/
def dramAccess (h : Req) (wr : Bool) (a n : Nat) (ws : List W64) (s : State) : State :=
  if a + n > 2 ^ 41 then complete h stAddr [] s else issue h wr n (dramParts s h wr a n ws) s

/-- Bytes of the memory of a unit that the window shows (00 R8, 05 R184); a fixed endpoint has none of its own to bound it. -/
def windowSize (u : Nat) : Nat := if isCc u then 0xC000 else if isMu u then 0xC0000 else if isSfu u then 0 else 0x100000

/-- An access to the unit memory window (00 R8): one to a unit on an absent or fenced row has no effect (01 R24); a host write invalidates the weight measurement of the unit's polder
(16 R537). -/
def unitAccess (h : Req) (wr : Bool) (a n : Nat) (ws : List W64) (s : State) : State :=
  let u := a / 2 ^ 20 % 2 ^ 20
  let o := a % 2 ^ 20
  if o + n > windowSize u || (isUnit u && rowAbsent s u) then complete h stAddr [] s
  else
    let s := if wr then (match ownerOf s u with | some p => weightsInvalid p s | none => s) else s
    issue h wr n (unitParts h wr u o n ws) s

/-! ## The regions (12 R414) -/

/-- The regions of the host address space. -/
inductive Region where
  | ctl | window | bell | ctx | stage | unit | dram
  deriving DecidableEq, Repr

/-- First and last address past the end of each region. -/
def regionBounds : List (Nat × Nat × Region) :=
  [(0x000000000000, 0x000000400000, .ctl), (0x000000400000, 0x000000500000, .bell), (0x000001000000, 0x000002000000, .ctx),
   (0x000010000000, 0x000020000000, .stage), (0x020000000000, 0x030000000000, .unit), (0x040000000000, 0x060000000000, .dram)]

/-- The region that holds all n bytes at a; the debug windows stand apart in the control region (17 R554). -/
def regionOf (a n : Nat) : Option Region :=
  match regionBounds.find? (fun r => decide (r.1 ≤ a) && decide (a + n ≤ r.2.1)) with
  | some (_, _, .ctl) => some (if 0x110000 ≤ a && a < 0x128000 then .window else .ctl)
  | some r => some r.2.2
  | none => none

/-- An access of n bytes at address a of the host address space; ws the data of a write. -/
def hostAccess (h : Req) (wr : Bool) (a n : Nat) (ws : List W64) (s : State) : State :=
  if jtagBusy s h a then complete h stBusy [] s else
  match regionOf a n with
  | none => complete h stAddr [] s
  | some .window =>
    let o := (a - 0x110000) % 0x8000
    if n % 8 = 0 && debugSize o (n / 8) then debugAccess h ((a - 0x110000) / 0x8000) wr o (n / 8) ws s
    else complete h stAddr [] s
  | some .ctl =>
    if wr then
      let r := regWrite a n (ws.headD 0) s
      complete h r.1 [] r.2
    else
      let r := regRead a n s
      complete h r.1 r.2.1 r.2.2
  | some .bell =>
    if wr then
      let r := bellWrite h.sender (a - 0x400000) n ws s
      complete h r.1 [] r.2
    else
      let r := bellRead h.sender (a - 0x400000) n s
      complete h r.1 r.2.1 r.2.2
  | some .ctx =>
    if wr then complete h stPerm [] s
    else if !bulkSize a n || a + n > 0x1100000 then complete h stAddr [] s
    else
      complete h stOk ((List.range (n / 8)).map (fun i =>
        let o := a - 0x1000000 + 8 * i
        BitVec.ofNat 64 (ctxOf (getCtx s (o / 128)) (o % 128 / 8)))) s
  | some .stage =>
    if !bulkSize a n || !s.conf.stageEn then complete h stAddr [] s
    else if wr && s.conf.busy then complete h stBusy [] s
    else dramAccess h wr (s.conf.stageBase.toNat * 65536 + (a - 0x10000000)) n ws s
  | some .unit => if bulkSize a n then unitAccess h wr a n ws s else complete h stAddr [] s
  | some .dram =>
    let pa := a - 0x40000000000
    if !bulkSize a n then complete h stAddr [] s
    else if wr && overlaps pa n (archiveArea s).1 (archiveArea s).2 then complete h stPerm [] s
    else if wr && s.conf.busy && overlaps pa n (stagingArea s).1 (stagingArea s).2 then complete h stBusy [] s
    else dramAccess h wr pa n ws s

/-! ## REQ frames (12 R407 to R413) -/

/-- A REQ frame at its port: taken or discarded (R409); a taken one is refused while 1,024 are outstanding (R411), or has its
effect. The standby port carries ACK frames only (R420): it discards a REQ (log 26, DESIGN CHOICE). -/
def reqFrame (fr : LinkFrame) (f : Req → State → State) (s : State) : Out :=
  let h : Req := { port := fr.port, sender := frSender fr, tag := frTag fr }
  let r := takeSeq fr.port (frSeq fr) s
  if s.host.mode && activePort s != some fr.port then .next s
  else if !r.1 then .next r.2
  else
    let s := modPort r.2 fr.port (fun x => { x with reqs := incCnt x.reqs })
    if portOutstanding s fr.port ≥ 1024 then .next (complete h stBusy [] s) else .next (f h s)

/-- HOST_READ: RWORDS_M1 + 1 words are read; a frame with payload is refused with ADDR, a reserved OP with PERM (R413). A WRITE is
another command's. -/
def execHostRead (fr : LinkFrame) (s : State) : Out :=
  frameIn fr ftReq (fun s =>
    if frOp fr = 1 then .next s
    else
      reqFrame fr (fun h s =>
        if frOp fr != 0 then complete h stPerm [] s
        else if frWords fr != 0 then complete h stAddr [] s
        else hostAccess h false (frAddr fr) (8 * (frRwords fr + 1)) [] s) s) s

/-- HOST_WRITE: the payload words are written; a frame without payload, or with more than 64 words, is refused with ADDR. A READ is
another command's. -/
def execHostWrite (fr : LinkFrame) (s : State) : Out :=
  frameIn fr ftReq (fun s =>
    if frOp fr = 0 then .next s
    else
      reqFrame fr (fun h s =>
        if frOp fr != 1 then complete h stPerm [] s
        else if frWords fr = 0 || frWords fr > 64 then complete h stAddr [] s
        else hostAccess h true (frAddr fr) (8 * frWords fr) fr.payload s) s) s

/-! ## Registers (00 R12) -/

/-- RC_READ: a read of a register with an RC field. -/
def execRcRead (h : Req) (addr size : Nat) (s : State) : Out :=
  .next (hostAccess h false addr size [] s)

/-- REGISTER_WRITE: a write of a register under its access codes; v is its lowest word. -/
def execRegisterWrite (h : Req) (addr size : Nat) (v : W64) (s : State) : Out :=
  .next (hostAccess h true addr size (v :: List.replicate (size / 8 - 1) 0) s)

/-! ## JTAG (17 R561, R562) -/

/-- The requester that JTAG is: port 2, sender 0. -/
def jtagReq : Req := { port := 2, sender := 0, tag := 0 }

/-- IDCODE (17 R561). -/
def idcode : W32 := 0x1C4D5A2F

/-- An instruction of the test access port, and the data register it selects (17 R561): every code without another is BYPASS. -/
inductive TapReg where
  | boundary | idcode | dbgAddr | dbgData | bypass
  deriving DecidableEq, Repr

/-- The data register that the instruction register selects (17 R561). -/
def tapReg (ir : BitVec 8) : TapReg :=
  if ir = 0x00 || ir = 0x01 then .boundary else if ir = 0x02 then .idcode else if ir = 0x10 then .dbgAddr
  else if ir = 0x11 then .dbgData else .bypass

/-- What the selected data register captures, up to 68 bits: IDCODE, DBG_ADDR, DBG_DATA with status and DONE, or BYPASS; the boundary
register holds the levels of pins that no row of the table sets. -/
def tapCapture (d : Debug) : Option (BitVec 68) :=
  match tapReg d.ir with
  | .boundary => none
  | .idcode => some (idcode.zeroExtend 68)
  | .dbgAddr => some (d.jAddr.zeroExtend 68)
  | .dbgData => some (BitVec.ofNat 68 (d.jData.toNat + 2 ^ 64 * d.jStatus.toNat + 2 ^ 67 * b2n d.jDone))
  | .bypass => some (BitVec.ofNat 68 (b2n d.bypass))

/-- JTAG's access at the address last shifted, of 4 or 8 bytes. -/
def jtagAccess (wr : Bool) (v : W64) (s : State) : State :=
  let a := bitsOf s.dbg.jAddr.toNat 47 0
  let n := if s.dbg.jAddr.getLsbD 49 then 8 else 4
  let s := { s with dbg := { s.dbg with jDone := false } }
  hostAccess jtagReq wr a n [v] s

/-- JTAG_DBG_ADDR: DBG_ADDR takes its 50 bits; WRITE 0 starts a read. -/
def execJtagDbgAddr (v : W64) (s : State) : Out :=
  if !s.power.ao then .next s
  else
    let s := { s with dbg := { s.dbg with ir := 0x10, jAddr := v.truncate 50 } }
    .next (if v.getLsbD 48 then s else jtagAccess false 0 s)

/-- JTAG_DBG_DATA: a write to the address last shifted. -/
def execJtagDbgData (v : W64) (s : State) : Out :=
  if !s.power.ao then .next s else .next (jtagAccess true v { s with dbg := { s.dbg with ir := 0x11 } })

/-! ## SMBus and management Ethernet (18 R572, R573) -/

/-- The register that a command byte selects: its address and size. -/
def sideReg (cmd : Nat) : Option (Nat × Nat) :=
  if cmd ≤ 2 then some (0xE0000 + 8 * cmd, 8)
  else if cmd = 3 then some (0xD0000, 8)
  else if cmd = 4 then some (0xD0010, 8)
  else if cmd ≤ 8 then some (0xD0018 + 8 * (cmd - 5), 8)
  else if cmd = 9 then some (0xF0000, 8)
  else if cmd = 0xA || cmd = 0xB then some (0xB0004 + 0x100 * (cmd - 0xA), 4)
  else if 0x40 ≤ cmd && cmd < 0x80 then some (0xD1000 + 0x10 * (cmd - 0x40), 8)
  else none

/-- Is a command available: after a failed boot only 0x00, 0x02 and 0x09 are. -/
def sideOpen (s : State) (cmd : Nat) : Bool := s.boot.phase != 7 || cmd == 0 || cmd == 2 || cmd == 9

/-- SMBUS_BLOCK_READ: the register's value, RC fields uncleared, or NACK. -/
def execSmbusBlockRead (cmd : Nat) (s : State) : Out :=
  if cmd ≥ 256 then .fault (.noSuchObject cmd)
  else if !s.power.ao then .next s
  else
    match (sideReg cmd).filter (fun _ => sideOpen s cmd) with
    | some r => .next { s with dbg := { s.dbg with smb := some ((regValue s r.1 r.2).headD 0), smbNack := false } }
    | none => .next { s with dbg := { s.dbg with smb := none, smbNack := true } }

/-- REQUEST_DATAGRAM: command, status, the value; where there is none the spec states no value (log 3, DESIGN CHOICE). -/
def execRequestDatagram (cmd : Nat) (s : State) : Out :=
  if cmd ≥ 256 then .fault (.noSuchObject cmd)
  else if !s.power.ao then .next s
  else
    let send := fun (status : Nat) (v : W64) (s : State) =>
      { s with dbg := { s.dbg with eth := [BitVec.ofNat 8 cmd, BitVec.ofNat 8 status, 0, 0] ++ toLe 8 v.toNat } }
    match sideReg cmd with
    | none => .next (send 1 (takeFree s).1 (takeFree s).2)
    | some r =>
      if sideOpen s cmd then .next (send 0 ((regValue s r.1 r.2).headD 0) s) else .next (send 2 (takeFree s).1 (takeFree s).2)

end Sys2Proof.Machine
end

