-- ==== Sys2Proof/Machine/Bitstream.lean ====
section
/-! DEFINITION. The configuration bitstream (11 R376 to R391): its sections, templates and records as they lie in the staging
window, the checks of its structure and of its reserved fields (11 R396, codes 3 and 4), and the configuration it spells. A check
answers the items that fail it; a bitstream is a function from offset to byte. Readings: log 20, DEDUCED. -/

namespace Sys2Proof.Machine

open Sys2Proof

/-! ## Failing items -/

/-- An item that fails a check: the offset of its field, and the unit whose record it lies in (11 R396). -/
structure Bad where
  off : Nat
  unit : Option Nat := none
  deriving DecidableEq, Repr

/-- The failing item at the lowest offset; of several at one offset the first. -/
def lowestBad : List Bad → Option Bad
  | [] => none
  | b :: l => match lowestBad l with | some c => if c.off < b.off then some c else some b | none => some b

/-- One item fails where a condition holds. -/
def badIf (c : Bool) (off : Nat) (unit : Option Nat) : List Bad := if c then [{ off := off, unit := unit }] else []

/-- The number that n bytes at offset o spell, lowest first (00 R10). -/
def num (b : Nat → Byte) (o n : Nat) : Nat := leNat ((List.range n).map (fun i => b (o + i)))

/-- Bits hi to lo of the n-byte field at offset o. -/
def numBits (b : Nat → Byte) (o n hi lo : Nat) : Nat := bitsOf (num b o n) hi lo

/-! ## The header and the polder section (11 R377 to R380) -/

/-- LENGTH. -/
def bsLength (b : Nat → Byte) : Nat := num b 8 4
/-- OFF_SIG. -/
def bsSig (b : Nat → Byte) : Nat := num b 0x34 4
/-- KIND. -/
def bsKind (b : Nat → Byte) : Nat := num b 6 1
/-- NRECT. -/
def bsNrect (b : Nat → Byte) : Nat := num b 0x19 1
/-- NTEMPL. -/
def bsNtempl (b : Nat → Byte) : Nat := num b 0x1A 2

/-- Check 1: MAGIC, FORMAT, KIND for the command, LENGTH, OFF_SIG. -/
def headerBad (kind : Nat) (b : Nat → Byte) : List Bad :=
  badIf (num b 0 4 != 0x3257594C) 0 none ++ badIf (num b 4 2 != 1) 4 none ++ badIf (bsKind b != kind) 6 none ++
    badIf (bsLength b % 8 != 0 || decide (bsLength b < 256) || decide (bsLength b > 268435456)) 8 none ++
    badIf (bsSig b + 128 != bsLength b) 0x34 none

/-- Offset of the polder section. -/
def polOff : Nat := 64

/-- Rectangle i as it lies in the polder section (11 R380). -/
def bsRect (b : Nat → Byte) (i : Nat) : Rect :=
  let w := num b (polOff + 0x40 + 4 * i) 4
  { c0 := bitsOf w 5 0, c1 := bitsOf w 11 6, r0 := bitsOf w 21 12, r1 := bitsOf w 31 22 }

/-- The rectangles. -/
def bsRects (b : Nat → Byte) : List Rect := (List.range (min 16 (bsNrect b))).map (bsRect b)

/-- NSYNC, NSE, NGRANT, NHEAVY. -/
def bsNsync (b : Nat → Byte) : Nat := num b (polOff + 0x80) 4
def bsNse (b : Nat → Byte) : Nat := num b (polOff + 0x84) 2
def bsNgrant (b : Nat → Byte) : Nat := num b (polOff + 0x86) 1
def bsNheavy (b : Nat → Byte) : Nat := num b (polOff + 0x87) 1

/-- Offsets of the variable tables (11 R381). -/
def grantOff : Nat := polOff + 768
def heavyOff (b : Nat → Byte) : Nat := grantOff + 16 * bsNgrant b
def syncOff (b : Nat → Byte) : Nat := heavyOff b + 8 * bsNheavy b
def seOff (b : Nat → Byte) : Nat := syncOff b + 8 * bsNsync b

/-- Fixed part of the polder section: values and their ranges (11 R380). -/
def polderBad (p : Nat) (b : Nat → Byte) : List Bad :=
  let maxB := num b (polOff + 0x0C) 2
  let fields := rectFields ((bsRects b).filter (fun r => decide (r.r0 ≤ 767) && decide (r.r1 ≤ 767)))
  badIf (num b 0x18 1 != p) 0x18 none ++ badIf (bsNrect b = 0 || bsNrect b > 16) 0x19 none ++
    badIf (num b 0x28 4 != polOff) 0x28 none ++
    badIf (num b polOff 4 == 0) polOff none ++ badIf (decide (num b (polOff + 5) 1 > 24)) (polOff + 5) none ++
    badIf (decide (maxB > 8192)) (polOff + 0x0C) none ++
    badIf (maxB == 0 && num b (polOff + 0x0E) 2 != 0) (polOff + 0x0E) none ++
    badIf (maxB == 0 && num b (polOff + 0x10) 8 != 0) (polOff + 0x10) none ++
    (List.range 16).flatMap (fun i =>
      badIf (if i < bsNrect b then decide ((bsRect b i).r0 > 767) || decide ((bsRect b i).r1 > 767) else num b (polOff + 0x40 + 4 * i) 4 != 0)
        (polOff + 0x40 + 4 * i) none) ++
    badIf (decide (bsNsync b > 65536)) (polOff + 0x80) none ++ badIf (decide (bsNse b > 512)) (polOff + 0x84) none ++
    badIf (decide (bsNgrant b > 8)) (polOff + 0x86) none ++ badIf (decide (bsNheavy b > 16)) (polOff + 0x87) none ++
    (List.range 64).flatMap (fun f => badIf (num b (polOff + 0x88 + f) 1 != 0 && !fields.contains f) (polOff + 0x88 + f) none) ++
    (List.range 64).flatMap (fun g =>
      badIf (num b (polOff + 0x100 + 8 * g) 8 != 0 && numBits b (polOff + 0x18) 8 g g == 0) (polOff + 0x100 + 8 * g) none)

/-- Reserved fields of the fixed part. -/
def polderRes (b : Nat → Byte) : List Bad :=
  badIf (numBits b (polOff + 6) 1 7 4 != 0) (polOff + 6) none ++ badIf (numBits b (polOff + 7) 1 7 1 != 0) (polOff + 7) none ++
    badIf (numBits b (polOff + 8) 4 31 13 != 0) (polOff + 8) none ++ badIf (numBits b (polOff + 0x10) 8 63 40 != 0) (polOff + 0x10) none ++
    badIf (num b (polOff + 0xC8) 56 != 0) (polOff + 0xC8) none ++
    (List.range 64).flatMap (fun g => badIf (numBits b (polOff + 0x100 + 8 * g) 8 63 42 != 0) (polOff + 0x100 + 8 * g) none)

/-- The tables of fixed entries (11 R381): ranges, and uniqueness of the allocation records. -/
def tablesBad (b : Nat → Byte) : List Bad :=
  (List.range (bsNgrant b)).flatMap (fun i => badIf (numBits b (grantOff + 16 * i + 8) 8 24 0 == 0) (grantOff + 16 * i + 8) none) ++
    (List.range (bsNheavy b)).flatMap (fun i =>
      let o := heavyOff b + 8 * i
      badIf (decide (num b o 1 ≥ 64)) o none ++ badIf (numBits b o 8 19 16 == 0) (o + 2) none ++
        badIf (num b (o + 4) 2 == 0) (o + 4) none ++ badIf (decide (num b (o + 6) 2 ≥ num b (o + 4) 2)) (o + 6) none) ++
    (List.range (bsNsync b)).flatMap (fun i =>
      badIf ((List.range i).any (fun j => num b (syncOff b + 8 * j) 2 == num b (syncOff b + 8 * i) 2)) (syncOff b + 8 * i) none)

/-- Their reserved fields. -/
def tablesRes (b : Nat → Byte) : List Bad :=
  (List.range (bsNgrant b)).flatMap (fun i =>
    let o := grantOff + 16 * i
    badIf (numBits b o 8 15 0 != 0 || numBits b o 8 63 41 != 0) o none ++
      badIf (numBits b (o + 8) 8 31 25 != 0 || numBits b (o + 8) 8 63 33 != 0) (o + 8) none) ++
    (List.range (bsNheavy b)).flatMap (fun i => badIf (numBits b (heavyOff b + 8 * i) 8 31 20 != 0) (heavyOff b + 8 * i + 2) none) ++
    (List.range (bsNsync b)).flatMap (fun i => badIf (numBits b (syncOff b + 8 * i) 8 31 17 != 0) (syncOff b + 8 * i + 2) none)

/-! ## Bodies (11 R386 to R389, R391) -/

/-- What a body describes: TKIND of 11 R383, with the two bodies of a ROUTE bitstream. -/
inductive BodyKind where
  | cc | sfu | mu | switch | route | causeway
  deriving DecidableEq, Repr

/-- The kind that TKIND codes. -/
def tkindOf (n : Nat) : BodyKind := if n = 0 then .cc else if n = 1 then .sfu else if n = 2 then .mu else .switch

/-- The kind of unit u's body. -/
def unitKindOf (u : Nat) : BodyKind := if isMu u then .mu else if isSfu u then .sfu else .cc

/-- A CC body at o of n bytes, whose LENGTH field lies at lo. -/
def ccBad (b : Nat → Byte) (o n lo : Nat) (u : Option Nat) : List Bad :=
  let k := num b (o + 4) 2
  if n < 0x90 then badIf true lo u
  else if k > 256 then badIf true (o + 4) u
  else badIf (n != 0x90 + 8 * k) lo u

/-- The bits of an instruction's body that its format and opcode use (04 R150, R152): the others are reserved. -/
def bodyMask (w : W64) : List (Nat × Nat) :=
  let c := opcOf w
  let imm := if fld w 16 16 = 1 then (15, 0) else (5, 0)
  if 0x08 ≤ c && c ≤ 0x15 then [(28, 23), (22, 17), (16, 16), imm]
  else if c = 0x16 then [(28, 26), (25, 23), (22, 17), (16, 16), imm]
  else if c = 0x04 then [(15, 0)]
  else if c = 0x05 then [(28, 23), (7, 0)]
  else if c = 0x06 then [(22, 17), (7, 0)]
  else if 0x18 ≤ c && c ≤ 0x1B then [(28, 0)]
  else if c = 0x23 || c = 0x27 then [(28, 0)]
  else if c = 0x28 || c = 0x29 then [(28, 17), (4, 0)]
  else if 0x20 ≤ c && c ≤ 0x2A then [(28, 11), (4, 0)]
  else if c = 0x2B then [(28, 2)]
  else if c = 0x2C then [(28, 6)]
  else if c = 0x30 then [(28, 1)]
  else if c = 0x31 then [(28, 27)]
  else if c = 0x32 || c = 0x33 then [(28, 19)]
  else if c = 0x34 then [(22, 21), (18, 13)]
  else if c = 0x36 || c = 0x37 then [(28, 17)]
  else if c = 0x38 then [(28, 4)]
  else if c = 0x39 then [(28, 4)]
  else if c = 0x3A then [(28, 9), (7, 4)]
  else if c = 0x3B then [(28, 10)]
  else if c = 0x3C then [(28, 7)]
  else if c = 0x3D then [(22, 7), (5, 0)]
  else []

/-- Is an opcode defined (04 R153). -/
def opcDefined (c : Nat) : Bool :=
  decide (c ≤ 0x06) || (decide (0x08 ≤ c) && decide (c ≤ 0x16)) || (decide (0x18 ≤ c) && decide (c ≤ 0x1B)) ||
    (decide (0x20 ≤ c) && decide (c ≤ 0x2C)) || (decide (0x30 ≤ c) && decide (c ≤ 0x34)) || (decide (0x36 ≤ c) && decide (c ≤ 0x3D))

/-- Has an instruction of a defined opcode a reserved body bit set (04 R150). -/
def bodyReserved (w : W64) : Bool :=
  opcDefined (opcOf w) &&
    (List.range 29).any (fun i => w.getLsbD i && !(bodyMask w).any (fun m => decide (m.2 ≤ i) && decide (i ≤ m.1)))

/-- Slot i of the CC body at o. -/
def bsSlot (b : Nat → Byte) (o i : Nat) : W64 := BitVec.ofNat 64 (num b (o + 0x90 + 8 * i) 8)

/-- Reserved bits of MESH_CFG (07 R291). -/
def meshRes (b : Nat → Byte) (o : Nat) (u : Option Nat) : List Bad :=
  badIf (numBits b o 4 7 6 != 0 || numBits b o 4 23 21 != 0 || numBits b o 4 31 28 != 0) o u

/-- Reserved fields of a CC body. -/
def ccRes (b : Nat → Byte) (o : Nat) (u : Option Nat) : List Bad :=
  badIf (num b (o + 3) 1 != 0) (o + 3) u ++ badIf (num b (o + 6) 2 != 0) (o + 6) u ++ meshRes b (o + 0x0C) u ++
    (List.range (num b (o + 4) 2)).flatMap (fun i => badIf (bodyReserved (bsSlot b o i)) (o + 0x90 + 8 * i) u)

/-- An SFU body: lengths, and fields whose values 05 R171 bounds. -/
def sfuBad (b : Nat → Byte) (o n lo : Nat) (u : Option Nat) : List Bad :=
  let k := num b (o + 4) 2
  if n < 0x108 then badIf true lo u
  else
    (if k > 640 then badIf true (o + 4) u else badIf (n != 0x108 + 16 * k) lo u) ++
      (List.range 8).flatMap (fun i =>
        let d := o + 8 + 32 * i
        badIf (numBits b (d + 1) 1 5 4 == 3) (d + 1) u ++ badIf (decide (numBits b (d + 0x14) 4 16 0 > 65536)) (d + 0x14) u)

/-- Reserved fields of an SFU body. -/
def sfuRes (b : Nat → Byte) (o : Nat) (u : Option Nat) : List Bad :=
  badIf (num b (o + 2) 2 != 0) (o + 2) u ++ badIf (num b (o + 6) 2 != 0) (o + 6) u ++
    (List.range 8).flatMap (fun i =>
      let d := o + 8 + 32 * i
      badIf (numBits b d 1 7 5 != 0) d u ++ badIf (numBits b (d + 2) 1 7 2 != 0) (d + 2) u ++ badIf (num b (d + 3) 1 != 0) (d + 3) u ++
        badIf (numBits b (d + 0x10) 4 31 17 != 0) (d + 0x10) u ++ badIf (numBits b (d + 0x14) 4 31 17 != 0) (d + 0x14) u ++
        badIf (num b (d + 0x1C) 4 != 0) (d + 0x1C) u)

/-- NSD and NWC of an MU body. -/
def bsNsd (b : Nat → Byte) (o : Nat) : Nat := num b (o + 4) 1
def bsNwc (b : Nat → Byte) (o : Nat) : Nat := num b (o + 5) 1
/-- Offsets of stream descriptor i and counter record i. -/
def sdOff (o i : Nat) : Nat := o + 0x30 + 16 * i
def wcOff (b : Nat → Byte) (o i : Nat) : Nat := o + 0x30 + 16 * bsNsd b o + 16 * i
/-- Mode of bank k. -/
def bsMode (b : Nat → Byte) (o k : Nat) : Nat := numBits b o 2 (4 * k + 2) (4 * k)

/-- An MU body: lengths, codes, BANK_WIN of a bank not in CACHE mode, the uniqueness of its counter records. -/
def muBad (b : Nat → Byte) (o n lo : Nat) (u : Option Nat) : List Bad :=
  if n < 0x30 then badIf true lo u
  else
    badIf ((List.range 4).any (fun k => decide (bsMode b o k > 5))) o u ++
      (List.range 4).flatMap (fun k => badIf (bsMode b o k != 2 && num b (o + 0x10 + 8 * k) 8 != 0) (o + 0x10 + 8 * k) u) ++
      (if bsNsd b o > 8 then badIf true (o + 4) u
       else if bsNwc b o > 64 then badIf true (o + 5) u
       else if n != 0x30 + 16 * (bsNsd b o + bsNwc b o) then badIf true lo u
       else
        (List.range (bsNsd b o)).flatMap (fun i => badIf (decide (numBits b (sdOff o i) 1 7 5 > 4)) (sdOff o i) u) ++
          (List.range (bsNwc b o)).flatMap (fun i =>
            let c := wcOff b o i
            badIf ((List.range i).any (fun j => numBits b (wcOff b o j) 1 5 0 == numBits b c 1 5 0)) c u ++
              badIf (numBits b (c + 1) 1 1 0 == 3) (c + 1) u))

/-- Reserved fields of an MU body (11 R388, 05 R214). -/
def muRes (b : Nat → Byte) (o : Nat) (u : Option Nat) : List Bad :=
  badIf ((List.range 4).any (fun k => numBits b o 2 (4 * k + 3) (4 * k + 3) != 0)) o u ++ badIf (num b (o + 6) 2 != 0) (o + 6) u ++
    meshRes b (o + 8) u ++ badIf (num b (o + 0x0C) 4 != 0) (o + 0x0C) u ++
    (List.range 4).flatMap (fun k =>
      let w := o + 0x10 + 8 * k
      badIf (numBits b w 8 18 0 != 0 || numBits b w 8 63 56 != 0) w u) ++
    (List.range (bsNsd b o)).flatMap (fun i => badIf (num b (sdOff o i + 1) 1 != 0) (sdOff o i + 1) u) ++
    (List.range (bsNwc b o)).flatMap (fun i =>
      let c := wcOff b o i
      badIf (numBits b c 1 7 6 != 0) c u ++ badIf (numBits b (c + 1) 1 7 4 != 0) (c + 1) u ++ badIf (num b (c + 2) 2 != 0) (c + 2) u ++
        badIf (num b (c + 0x0C) 4 != 0) (c + 0x0C) u)

/-- Reserved bits of a switch word (06 R224, R233): of the steering units, GANG of the leaders, and [767:653]. -/
def switchRes (b : Nat → Byte) (o : Nat) (u : Option Nat) : List Bad :=
  (List.range 4).flatMap (fun e =>
    badIf (numBits b (o + 71 + e) 1 7 6 != 0 || (e % 2 == 0 && numBits b (o + 71 + e) 1 5 5 != 0)) (o + 71 + e) u) ++
    badIf (numBits b (o + 81) 1 7 5 != 0 || num b (o + 82) 14 != 0) (o + 81) u

/-- Reserved bytes of a ROUTE body (11 R391). -/
def routeRes (b : Nat → Byte) (o : Nat) : List Bad :=
  [0, 184].flatMap (fun d =>
    badIf (num b (o + d + 115) 5 != 0) (o + d + 115) none ++ badIf (num b (o + d + 170) 6 != 0) (o + d + 170) none ++
      badIf (num b (o + d + 178) 6 != 0) (o + d + 178) none)

/-- Reserved bits of a CAUSEWAY body: entry 115 and the last 6 bytes. -/
def causewayRes (b : Nat → Byte) (o : Nat) : List Bad :=
  badIf (numBits b (o + 57) 1 7 4 != 0) (o + 57) none ++ badIf (num b (o + 58) 6 != 0) (o + 58) none

/-- Structure of a body of a kind at o of n bytes, whose LENGTH field lies at lo. -/
def bodyBad (b : Nat → Byte) (k : BodyKind) (o n lo : Nat) (u : Option Nat) : List Bad :=
  match k with
  | .cc => ccBad b o n lo u
  | .sfu => sfuBad b o n lo u
  | .mu => muBad b o n lo u
  | .switch => badIf (n != 96) lo u
  | .route => badIf (n != 368) lo u
  | .causeway => badIf (n != 64) lo u

/-- Reserved fields of a body. -/
def bodyRes (b : Nat → Byte) (k : BodyKind) (o : Nat) (u : Option Nat) : List Bad :=
  match k with
  | .cc => ccRes b o u
  | .sfu => sfuRes b o u
  | .mu => muRes b o u
  | .switch => switchRes b o u
  | .route => routeRes b o
  | .causeway => causewayRes b o

/-! ## The layout: what lies where (11 R377, R381 to R385) -/

/-- A walk's outcome: what it found, where it ended (none: it could not go on), what failed. -/
structure Walk (α : Type) where
  items : List α
  stop : Option Nat
  bad : List Bad

/-- A template: header offset, kind, body length. -/
structure Templ where
  off : Nat
  kind : BodyKind
  len : Nat
  deriving DecidableEq, Repr

/-- A record: header offset, position, RKIND, TREF, body length, TINDEX. -/
structure Rec where
  off : Nat
  x : Nat
  y : Nat
  f : Nat
  rkind : Nat
  tref : Bool
  len : Nat
  tindex : Nat
  deriving DecidableEq, Repr

/-- A record found to lie at an offset. -/
def recAt (b : Nat → Byte) (f y o : Nat) : Rec :=
  let h := num b o 8
  { off := o, x := bitsOf h 9 0, y := y, f := f, rkind := bitsOf h 11 10, tref := bitsOf h 12 12 == 1, len := bitsOf h 31 16,
    tindex := bitsOf h 47 32 }

/-- The unit ID of a record's position. -/
def Rec.unitId (r : Rec) : Nat := unitAt r.x r.y

/-- The unit that a failing item of a record names: none for a ROUTE or CAUSEWAY record. -/
def Rec.who (r : Rec) : Option Nat := if r.rkind < 2 then some r.unitId else none

/-- The kind of body a record has. -/
def Rec.kind (r : Rec) : BodyKind :=
  if r.rkind = 0 then unitKindOf r.unitId else if r.rkind = 1 then .switch else if r.rkind = 2 then .route else .causeway

/-- The stream engine records: offset and descriptors of each (11 R381); the ROWSEL code 3 of a descriptor is no value of that field
(R382). -/
def walkEngines (b : Nat → Byte) (lim : Nat) : Nat → Nat → Walk (Nat × Nat)
  | 0, o => { items := [], stop := some o, bad := [] }
  | n + 1, o =>
    let nd := numBits b o 8 15 12
    let depth := numBits b o 8 26 16
    if o + 8 > lim then { items := [], stop := none, bad := badIf true o none }
    else if nd = 0 || nd > 8 || o + 8 + 64 * nd > lim then { items := [], stop := none, bad := badIf true (o + 1) none }
    else
      let w := walkEngines b lim n (o + 8 + 64 * nd)
      { w with items := (o, nd) :: w.items,
               bad := badIf (depth % 16 != 0 || depth < 16 || depth > 1024) (o + 2) none ++
                 (List.range nd).flatMap (fun i => badIf (numBits b (o + 8 + 64 * i) 8 4 3 == 3) (o + 8 + 64 * i) none) ++ w.bad }

/-- The templates (11 R383). -/
def walkTempls (b : Nat → Byte) (lim : Nat) : Nat → Nat → Walk Templ
  | 0, o => { items := [], stop := some o, bad := [] }
  | n + 1, o =>
    let len := numBits b o 8 31 16
    let t : Templ := { off := o, kind := tkindOf (numBits b o 8 1 0), len := len }
    if o + 8 > lim then { items := [], stop := none, bad := badIf true o none }
    else if len % 8 != 0 || o + 8 + len > lim then { items := [], stop := none, bad := badIf true (o + 2) none }
    else
      let w := walkTempls b lim n (o + 8 + len)
      { w with items := t :: w.items, bad := bodyBad b t.kind (o + 8) len (o + 2) none ++ w.bad }

/-- What of a record's own header breaks 11 R385, its place after the record before it (X, RKIND) included. -/
def recHeaderBad (route : Bool) (ntempl : Nat) (prev : Option (Nat × Nat)) (r : Rec) : List Bad :=
  let x0 := 96 * (r.f % 8)
  let inField := decide (x0 ≤ r.x) && decide (r.x < x0 + 96)
  let level := r.y == 1023
  let xOk := if r.rkind < 2 then inField else if r.rkind = 2 then r.x == 1023 || (inField && !level) else r.x == 1023 && level
  let after := match prev with | none => true | some p => decide (p.1 < r.x) || (p.1 == r.x && decide (p.2 < r.rkind))
  let sameX := match prev with | none => false | some p => p.1 == r.x
  badIf (!xOk || (!after && !sameX)) r.off r.who ++
    badIf ((decide (r.rkind < 2)) == route || (!after && sameX) || (route && r.tref)) (r.off + 1) r.who ++
    (if r.tref then
      badIf (r.len != 0 && !(r.kind == .cc && r.len == 128)) (r.off + 2) r.who ++
        badIf (decide (r.tindex ≥ ntempl)) (r.off + 4) r.who
     else badIf (r.tindex != 0) (r.off + 4) r.who)

/-- The records of a row section that ends at lim (11 R385). -/
def walkRecs (b : Nat → Byte) (route : Bool) (ntempl f y lim : Nat) : Nat → Option (Nat × Nat) → Nat → Walk Rec
  | 0, _, o => { items := [], stop := some o, bad := [] }
  | n + 1, prev, o =>
    let r := recAt b f y o
    if o + 8 > lim then { items := [], stop := none, bad := badIf true o none }
    else if r.len % 8 != 0 || o + 8 + r.len > lim then { items := [], stop := none, bad := badIf true (o + 2) r.who }
    else
      let w := walkRecs b route ntempl f y lim n (some (r.x, r.rkind)) (o + 8 + r.len)
      { w with items := r :: w.items,
               bad := recHeaderBad route ntempl prev r ++ (if r.tref then [] else bodyBad b r.kind (o + 8) r.len (o + 2) r.who) ++ w.bad }

/-- The row sections of a field section that ends at lim (11 R384): their records and the offsets of their headers. -/
def walkRows (b : Nat → Byte) (route : Bool) (ntempl f lim : Nat) : Nat → Option Nat → Nat → Walk (Nat × List Rec)
  | 0, _, o => { items := [], stop := some o, bad := [] }
  | n + 1, prev, o =>
    let y := numBits b o 8 9 0
    let len := numBits b o 8 63 32
    let y0 := 96 * (f / 8)
    let first := match prev with | none => true | some _ => false
    let yOk := if y == 1023 then route && first else decide (y0 ≤ y) && decide (y < y0 + 96) &&
      (match prev with | none => true | some p => p == 1023 || decide (p < y))
    if o + 8 > lim then { items := [], stop := none, bad := badIf true o none }
    else if len % 8 != 0 || len < 8 || o + len > lim then { items := [], stop := none, bad := badIf (!yOk) o none ++ badIf true (o + 4) none }
    else
      let w := walkRecs b route ntempl f y (o + len) (numBits b o 8 31 16) none (o + 8)
      let v := walkRows b route ntempl f lim n (some y) (o + len)
      { v with items := (o, w.items) :: v.items,
               bad := badIf (!yOk) o none ++ badIf (w.stop.isSome && w.stop != some (o + len)) (o + 4) none ++ w.bad ++ v.bad }

/-- The field sections, for the fields of a list in order: their header offset, row headers and records. -/
def walkFields (b : Nat → Byte) (route : Bool) (ntempl lim : Nat) : List Nat → Nat → Walk (Nat × List (Nat × List Rec))
  | [], o => { items := [], stop := some o, bad := [] }
  | f :: l, o =>
    let len := numBits b o 8 63 32
    if o + 16 > lim then { items := [], stop := none, bad := badIf true o none }
    else if len % 8 != 0 || len < 16 || o + len > lim then
      { items := [], stop := none, bad := badIf (num b o 1 != f) o none ++ badIf true (o + 4) none }
    else
      let w := walkRows b route ntempl f (o + len) (numBits b o 8 31 16) none (o + 16)
      let v := walkFields b route ntempl lim l (o + len)
      { v with items := (o, w.items) :: v.items,
               bad := badIf (num b o 1 != f) o none ++ badIf (w.stop.isSome && w.stop != some (o + len)) (o + 4) none ++ w.bad ++ v.bad }

/-- The layout of a whole bitstream. -/
structure Layout where
  engines : List (Nat × Nat) := []
  templs : List Templ := []
  fields : List (Nat × List (Nat × List Rec)) := []
  bad : List Bad := []

/-- The records of a layout in order. -/
def Layout.recs (l : Layout) : List Rec := l.fields.flatMap (fun f => f.2.flatMap (·.2))

/-- The fields of FIELDMAP. -/
def bsFields (b : Nat → Byte) : List Nat := (List.range 64).filter (fun f => numBits b 0x20 8 f f == 1)

/-- The field sections from o on, and the signature block directly after them. -/
def fieldsFrom (b : Nat → Byte) (route : Bool) (ntempl o : Nat) : Layout :=
  let w := walkFields b route ntempl (bsSig b) (bsFields b) o
  { fields := w.items,
    bad := badIf (num b 0x30 4 != o) 0x30 none ++ w.bad ++
      (match w.stop with | some e => badIf (e != bsSig b) e none | none => []) }

/-- The layout of a POLDER bitstream for polder p, with everything that breaks check 3. -/
def polderLayout (p : Nat) (b : Nat → Byte) : Layout :=
  let fixed := polderBad p b
  let counts := decide (bsNsync b ≤ 65536) && decide (bsNse b ≤ 512) && decide (bsNgrant b ≤ 8) && decide (bsNheavy b ≤ 16)
  if !counts || seOff b > bsSig b then { bad := fixed ++ badIf counts (polOff + 0x80) none }
  else
    let e := walkEngines b (bsSig b) (bsNse b) (seOff b)
    let dup := (List.range e.items.length).flatMap (fun i =>
      let num' := fun j => numBits b (e.items.getD j (0, 0)).1 8 8 0
      badIf ((List.range i).any (fun j => num' j == num' i)) (e.items.getD i (0, 0)).1 none)
    let bad := fixed ++ tablesBad b ++ e.bad ++ dup
    match e.stop with
    | none => { engines := e.items, bad := bad }
    | some o =>
      let n := bsNtempl b
      let t := walkTempls b (bsSig b) n o
      let bad := bad ++ badIf (num b 0x2C 4 != (if n = 0 then 0 else o)) 0x2C none ++ t.bad
      match t.stop with
      | none => { engines := e.items, templs := t.items, bad := bad }
      | some o =>
        let l := fieldsFrom b false n o
        { l with engines := e.items, templs := t.items, bad := bad ++ l.bad }

/-- The layout of a ROUTE bitstream. -/
def routeLayout (b : Nat → Byte) : Layout :=
  let l := fieldsFrom b true 0 64
  { l with bad := badIf (num b 0x18 1 != 0) 0x18 none ++ badIf (bsNrect b != 0) 0x19 none ++ badIf (bsNtempl b != 0) 0x1A none ++
                  badIf (num b 0x28 4 != 0) 0x28 none ++ badIf (num b 0x2C 4 != 0) 0x2C none ++ l.bad }

/-! ## Reserved fields (11 R396 check 4) -/

/-- Reserved fields of the header and the signature block. -/
def headerRes (b : Nat → Byte) : List Bad :=
  badIf (num b 7 1 != 0) 7 none ++ badIf (num b 0x0C 4 != 0) 0x0C none ++ badIf (num b 0x1C 4 != 0) 0x1C none ++
    badIf (num b 0x38 8 != 0) 0x38 none ++ badIf (num b (bsSig b + 3) 5 != 0) (bsSig b + 3) none ++
    badIf (num b (bsSig b + 0x7A) 6 != 0) (bsSig b + 0x7A) none

/-- Reserved fields of the stream engine record at o with nd descriptors (11 R381, R382). -/
def engineRes (b : Nat → Byte) (o nd : Nat) : List Bad :=
  badIf (numBits b o 8 11 9 != 0) (o + 1) none ++ badIf (numBits b o 8 63 27 != 0) (o + 3) none ++
    (List.range nd).flatMap (fun i =>
      let d := o + 8 + 64 * i
      badIf (numBits b d 1 7 7 != 0) d none ++ badIf (numBits b (d + 2) 2 15 13 != 0) (d + 2) none ++
        badIf (numBits b (d + 4) 4 31 20 != 0) (d + 4) none ++ badIf (numBits b (d + 8) 8 63 41 != 0) (d + 8) none ++
        [0x28, 0x2C, 0x30, 0x34].flatMap (fun k => badIf (numBits b (d + k) 4 31 20 != 0) (d + k) none))

/-- Reserved fields of the record r: its header, its body where it has one of its own. -/
def recRes (b : Nat → Byte) (r : Rec) : List Bad :=
  badIf (numBits b r.off 8 15 13 != 0) (r.off + 1) r.who ++ badIf (numBits b r.off 8 63 48 != 0) (r.off + 6) r.who ++ (if r.tref then [] else bodyRes b r.kind (r.off + 8) r.who)

/-- Reserved fields of templates, field and row sections, and records. -/
def layoutRes (b : Nat → Byte) (l : Layout) : List Bad :=
  l.engines.flatMap (fun e => engineRes b e.1 e.2) ++
    l.templs.flatMap (fun t =>
      badIf (numBits b t.off 8 15 2 != 0) t.off none ++ badIf (numBits b t.off 8 63 32 != 0) (t.off + 4) none ++
        bodyRes b t.kind (t.off + 8) none) ++
    l.fields.flatMap (fun f =>
      badIf (num b (f.1 + 1) 1 != 0) (f.1 + 1) none ++ badIf (num b (f.1 + 8) 8 != 0) (f.1 + 8) none ++
        f.2.flatMap (fun r => badIf (numBits b r.1 8 15 10 != 0) (r.1 + 1) none ++ r.2.flatMap (recRes b)))

/-! ## What it spells -/

/-- Where the body of record r lies: in its template, or after its header. -/
def recBody (l : Layout) (r : Rec) : Nat :=
  if r.tref then (match l.templs[r.tindex]? with | some t => t.off + 8 | none => r.off + 8) else r.off + 8

/-- Is the template that record r names of another kind. -/
def wrongTempl (l : Layout) (r : Rec) : Bool :=
  r.tref && (match l.templs[r.tindex]? with | some t => t.kind != r.kind | none => true)

/-- The CC body at o, with the SINIT at si. -/
def ccOf (b : Nat → Byte) (o si : Nat) : CcCfg :=
  { qkind := BitVec.ofNat 16 (num b o 2), pinit := BitVec.ofNat 8 (num b (o + 2) 1), splBase := num b (o + 8) 2, splSize := num b (o + 0x0A) 2,
    meshCfg := BitVec.ofNat 32 (num b (o + 0x0C) 4), sinit := (List.range 32).map (fun i => BitVec.ofNat 32 (num b (si + 4 * i) 4)),
    slots := (List.range (num b (o + 4) 2)).map (bsSlot b o) }

/-- The SFU descriptor at d (11 R387). -/
def sfuDescOf (b : Nat → Byte) (d : Nat) : SfuDesc :=
  let q := num b (d + 1) 1
  { func := numBits b d 1 4 0, inQ := bitsOf q 1 0, outQ := bitsOf q 3 2, rowop := bitsOf q 5 4, sq := bitsOf q 7 6,
    ctxq := numBits b (d + 2) 1 1 0, a := BitVec.ofNat 32 (num b (d + 4) 4), b := BitVec.ofNat 32 (num b (d + 8) 4),
    c := BitVec.ofNat 32 (num b (d + 0x0C) 4), rowlen := numBits b (d + 0x10) 4 16 0, keep := numBits b (d + 0x14) 4 16 0,
    frameEntries := num b (d + 0x18) 4 }

/-- The SFU body at o. -/
def sfuOf (b : Nat → Byte) (o : Nat) : SfuCfg :=
  { qkind := BitVec.ofNat 16 (num b o 2), descs := (List.range 8).map (fun i => sfuDescOf b (o + 8 + 32 * i)),
    table := (List.range (num b (o + 4) 2)).map (fun i => BitVec.ofNat 128 (num b (o + 0x108 + 16 * i) 16)) }

/-- The stream descriptor at d (11 R388). -/
def muSdOf (b : Nat → Byte) (d : Nat) : MuSd :=
  { dir := numBits b d 1 0 0 == 1, q := numBits b d 1 2 1, bank := numBits b d 1 4 3, gate := numBits b d 1 7 5, rep := num b (d + 2) 2,
    addr := num b (d + 4) 4, len := num b (d + 8) 4, pitch := num b (d + 0x0C) 4 }

/-- The counter record at c. -/
def wcCfgOf (b : Nat → Byte) (c : Nat) : WcCfg :=
  { idx := numBits b c 1 5 0, mode := numBits b (c + 1) 1 1 0, auto := numBits b (c + 1) 1 2 2 == 1, freset := numBits b (c + 1) 1 3 3 == 1,
    limit := num b (c + 4) 4, base := num b (c + 8) 4 }

/-- The MU body at o. -/
def muOf (b : Nat → Byte) (o : Nat) : MuCfg :=
  { modes := (List.range 4).map (bsMode b o), qkind := BitVec.ofNat 16 (num b (o + 2) 2), meshCfg := BitVec.ofNat 32 (num b (o + 8) 4),
    win := (List.range 4).map (fun k => BitVec.ofNat 64 (num b (o + 0x10 + 8 * k) 8)),
    sds := (List.range (bsNsd b o)).map (fun i => muSdOf b (sdOff o i)), wcs := (List.range (bsNwc b o)).map (fun i => wcCfgOf b (wcOff b o i)) }

/-- The configuration that record r gives its unit. -/
def unitOf (b : Nat → Byte) (l : Layout) (r : Rec) : UnitCfg :=
  let o := recBody l r
  match r.kind with
  | .mu => .mu (muOf b o)
  | .sfu => .sfu (sfuOf b o)
  | _ => .cc (ccOf b o (if r.tref && r.len == 128 then r.off + 8 else o + 0x10))

/-- The switch word at o. -/
def switchOf (b : Nat → Byte) (o : Nat) : BitVec 768 := BitVec.ofNat 768 (num b o 96)

/-- The stream engine descriptor at d (11 R382). -/
def seDescOf (b : Nat → Byte) (d : Nat) : SeDesc :=
  let h := num b d 1
  { store := bitsOf h 0 0 == 1, paged := bitsOf h 1 1 == 1, ctxsel := bitsOf h 2 2 == 1, rowsel := bitsOf h 4 3, gateEn := bitsOf h 5 5 == 1,
    doneEn := bitsOf h 6 6 == 1, ubufs := num b (d + 1) 1, ctx := numBits b (d + 2) 2 12 0, unit := numBits b (d + 4) 4 19 0,
    dbase := numBits b (d + 8) 8 40 0, rowb := num b (d + 0x10) 4, rows := num b (d + 0x14) 2 + 1, planes := num b (d + 0x16) 2 + 1,
    rstride := sbitsOf (num b (d + 0x18) 4) 31 0, pstride := sbitsOf (num b (d + 0x1C) 4) 31 0, bstride := sbitsOf (num b (d + 0x20) 4) 31 0,
    padl := num b (d + 0x24) 2, padr := num b (d + 0x26) 2, uaddr := numBits b (d + 0x28) 4 19 0, urstride := numBits b (d + 0x2C) 4 19 0,
    upstride := numBits b (d + 0x30) 4 19 0, ubstride := numBits b (d + 0x34) 4 19 0, gateObj := num b (d + 0x38) 2, doneObj := num b (d + 0x3A) 2,
    gateVal := num b (d + 0x3C) 4 }

/-- The stream engine record at o. -/
def seRecOf (b : Nat → Byte) (o nd : Nat) : SeRec :=
  { engine := numBits b o 8 8 0, pfdepth := numBits b o 8 26 16, descs := (List.range nd).map (fun i => seDescOf b (o + 8 + 64 * i)) }

/-- The bytes 0 to n - 1. -/
def bsBytes (b : Nat → Byte) (n : Nat) : List Byte := (List.range n).map b

/-- The bitstream digest (11 R379). -/
def bsDigest (b : Nat → Byte) : W512 := Config.shake256 (bsBytes b (bsSig b))

/-- The configuration that a POLDER bitstream of a layout spells. -/
def polderOf (b : Nat → Byte) (l : Layout) : PolderCfg :=
  let units := l.recs.filter (fun r => r.rkind == 0)
  let sws := l.recs.filter (fun r => r.rkind == 1)
  { digest := bsDigest b, buildId := BitVec.ofNat 64 (num b 0x10 8), length := bsLength b, budget := BitVec.ofNat 32 (num b polOff 4),
    divM1 := BitVec.ofNat 8 (num b (polOff + 4) 1), mshare := num b (polOff + 5) 1, wM1 := BitVec.ofNat 4 (num b (polOff + 6) 1),
    replayable := numBits b (polOff + 7) 1 0 0 == 1, pmode := BitVec.ofNat 32 (num b (polOff + 8) 4), maxBatch := num b (polOff + 0x0C) 2,
    batchSync := num b (polOff + 0x0E) 2, batchMu := numBits b (polOff + 0x10) 8 19 0, batchOff := numBits b (polOff + 0x10) 8 39 20,
    mcValid := BitVec.ofNat 64 (num b (polOff + 0x18) 8), admitted := BitVec.ofNat 256 (num b (polOff + 0x20) 32), rects := bsRects b,
    hint := (List.range 64).map (fun f => num b (polOff + 0x88 + f) 1),
    mcast := (List.range 64).map (fun g => BitVec.ofNat 64 (num b (polOff + 0x100 + 8 * g) 8)),
    grants := (List.range (bsNgrant b)).map (fun i =>
      let o := grantOff + 16 * i
      ({ base := num b o 8, size := numBits b (o + 8) 8 24 0 * 65536, wr := numBits b (o + 8) 8 32 32 == 1 } : Grant)),
    heavy := (List.range (bsNheavy b)).map (fun i =>
      let o := heavyOff b + 8 * i
      ({ field := num b o 1, hint := num b (o + 1) 1, lead := numBits b o 8 19 16, period := num b (o + 4) 2, phase := num b (o + 6) 2 } : Heavy)),
    sync := (List.range (bsNsync b)).map (fun i =>
      let o := syncOff b + 8 * i
      ({ obj := num b o 2, freset := numBits b o 8 16 16 == 1, init := BitVec.ofNat 32 (num b (o + 4) 4) } : SyncAlloc)),
    engines := l.engines.map (fun e => seRecOf b e.1 e.2),
    units := units.foldl (fun m r => mput m r.unitId (unitOf b l r)) [],
    switches := sws.foldl (fun m r => mput m r.unitId (switchOf b (recBody l r))) [] }

/-- A net's tables at o (11 R391). -/
def netTabOf (b : Nat → Byte) (o : Nat) : NetTab :=
  { fld := (List.range 64).map (fun i => b (o + i)), ep := (List.range 51).map (fun i => b (o + 64 + i)),
    row := (List.range 100).map (fun i => BitVec.ofNat 4 (num b (o + 120 + i / 2) 1 / 16 ^ (i % 2))),
    det := BitVec.ofNat 16 (num b (o + 176) 2) }

/-- The ROUTE body at o. -/
def routeBodyOf (b : Nat → Byte) (o : Nat) : RouteBody := { req := netTabOf b o, rpl := netTabOf b (o + 184) }

/-- The CAUSEWAY body at o. -/
def causewayOf (b : Nat → Byte) (o : Nat) : List (BitVec 4) :=
  (List.range 115).map (fun i => BitVec.ofNat 4 (num b (o + i / 2) 1 / 16 ^ (i % 2)))

/-- The rows of field f. -/
def fieldRows (f : Nat) : List Nat := (List.range 96).map (fun j => 96 * (f / 8) + j)

/-- A record of a ROUTE bitstream applied to a bank: a wider record displaces what earlier loads gave narrower ones. -/
def routeApply (b : Nat → Byte) (r : Rec) (k : RouteBank) : RouteBank :=
  let body := routeBodyOf b (r.off + 8)
  if r.rkind = 3 then { k with cw := mput k.cw r.f (causewayOf b (r.off + 8)) }
  else if r.x = 1023 && r.y = 1023 then
    { k with fields := mput k.fields r.f body, rows := k.rows.filter (fun e => e.1 % 64 != r.f),
             routers := k.routers.filter (fun e => fieldOf e.1 != r.f) }
  else if r.x = 1023 then
    { k with rows := mput k.rows (64 * r.y + r.f) body, routers := k.routers.filter (fun e => !(unitY e.1 == r.y && fieldOf e.1 == r.f)) }
  else { k with routers := mput k.routers r.unitId body }

/-- The bank that a ROUTE bitstream makes of the current one (11 R402): within a field the records come widest first (11 R384). -/
def routeBankOf (b : Nat → Byte) (l : Layout) (k : RouteBank) : RouteBank :=
  let wide := l.recs.filter (fun r => r.x == 1023)
  let narrow := l.recs.filter (fun r => r.x != 1023)
  narrow.foldl (fun k r => routeApply b r k) (wide.foldl (fun k r => routeApply b r k) k)

end Sys2Proof.Machine
end

