-- ==== Sys2Proof/Machine/LoadChecks.lean ====
section
/-! DEFINITION. The checks of a POLDER bitstream after its structure (11 R396, codes 5 to 14 and 16): geometry, placement,
precision, cores, SFUs, memory units, switches, multicast groups, sync objects, DRAM and stream engines, the archive.
Readings: log 20, DEDUCED. -/

namespace Sys2Proof.Machine

open Sys2Proof

/-! ## Geometry (02 R64) -/

/-- Do the closed ranges a to b and c to d meet, or lie within g of each other. -/
def rangesMeet (a b c d g : Nat) : Bool := decide (a ≤ d + g) && decide (c ≤ b + g)

/-- Do two rectangles share a cluster. -/
def rectsMeet (r t : Rect) : Bool := rangesMeet r.c0 r.c1 t.c0 t.c1 0 && rangesMeet r.r0 r.r1 t.r0 t.r1 0

/-- Are two rectangles joined: they share a cluster or an edge between clusters. -/
def rectsTouch (r t : Rect) : Bool :=
  (rangesMeet r.c0 r.c1 t.c0 t.c1 0 && rangesMeet r.r0 r.r1 t.r0 t.r1 1) ||
    (rangesMeet r.c0 r.c1 t.c0 t.c1 1 && rangesMeet r.r0 r.r1 t.r0 t.r1 0)

/-- The rectangles reached from a list of them in n rounds. -/
def rectsReach (rs : List Rect) : Nat → List Rect → List Rect
  | 0, l => l
  | n + 1, l => rectsReach rs n (rs.filter (fun r => l.any (rectsTouch r)))

/-- Is a polder other than p live, that is, not VACANT. -/
def otherLive (s : State) (p q : Nat) : Bool := q != p && (getPolder s q).state != 0

/-- Check 5 for polder p; `stage`: the rectangles must be p's own. -/
def geometryBad (s : State) (p : Nat) (stage : Bool) (c : PolderCfg) : List Bad :=
  let reach := rectsReach c.rects 16 (c.rects.take 1)
  let live := s.polders.filter (fun e => otherLive s p e.1)
  let own := rectsOf (getPolder s p)
  c.rects.zipIdx.flatMap (fun x =>
    let r := x.1
    badIf (decide (r.c0 > r.c1) || decide (r.r0 > r.r1) || live.any (fun e => (rectsOf e.2).any (rectsMeet r)) ||
      !reach.contains r || (stage && own[x.2]? != some r)) (polOff + 0x40 + 4 * x.2) none) ++
    badIf (stage && decide (own.length > c.rects.length)) (polOff + 0x40 + 4 * c.rects.length) none

/-! ## Placement -/

/-- The UNIT records and the SWITCH records of a layout. -/
def unitRecs (l : Layout) : List Rec := l.recs.filter (fun r => r.rkind == 0)
def switchRecs (l : Layout) : List Rec := l.recs.filter (fun r => r.rkind == 1)

/-- Check 6. -/
def placementBad (s : State) (l : Layout) (c : PolderCfg) : List Bad :=
  (unitRecs l).flatMap (fun r => badIf (!inRects c.rects r.unitId || rowAbsent s r.unitId) r.off r.who) ++
    l.recs.flatMap (fun r => badIf (wrongTempl l r) (r.off + 4) r.who)

/-! ## Precision (03 R95) -/

/-- The flag of the precision mode word that a format code needs (03 R94, R95). -/
def formatFlag (c : Nat) : Option Nat :=
  if c = 0 then some 3 else if c = 1 then some 4 else if c = 2 || c = 3 then some 5 else if c = 4 || c = 5 then some 6
  else if c = 6 then some 7 else if c = 7 then some 2 else if c = 8 then some 1 else if c = 9 || c = 0xA then some 8
  else if c = 0xF then some 0 else none

/-- The flags that an instruction needs. -/
def flagsNeeded (w : W64) : List Nat :=
  if opcOf w = 0x30 then ([fld w 24 21, fld w 20 17].filterMap formatFlag) ++ (if fld w 25 25 = 1 then [9] else [])
  else if opcOf w = 0x2B then ([fld w 16 13, fld w 12 9].filterMap formatFlag) ++ (if fld w 8 8 = 1 then [10] else [])
  else if opcOf w = 0x2C then ([0xF, fld w 10 7].filterMap formatFlag) ++ (if fld w 6 6 = 1 then [10] else [])
  else []

/-- Does an instruction name what the word does not declare. -/
def undeclared (pmode : W32) (w : W64) : Bool := (flagsNeeded w).any (fun i => !pmode.getLsbD i)

/-- Check 7 for the unit of record r. -/
def precisionBad (pmode : W32) (l : Layout) (r : Rec) (x : UnitCfg) : List Bad :=
  let o := recBody l r
  match x with
  | .cc c => c.slots.zipIdx.flatMap (fun w => badIf (undeclared pmode w.1) (o + 0x90 + 8 * w.2) r.who)
  | .sfu c => c.descs.zipIdx.flatMap (fun d => badIf ((d.1.func == 20 || d.1.func == 21) && !pmode.getLsbD 10) (o + 8 + 32 * d.2) r.who)
  | .mu _ => []

/-! ## Cores (04 R169) -/

/-- Is a specifier allowed as a scalar source, scalar destination, vector source, vector destination (04 R149) with these queue
kinds. -/
def scalarSrcOk (k : BitVec 16) (n : Nat) : Bool :=
  decide (n ≤ 0x1F) || (decide (0x20 ≤ n) && decide (n ≤ 0x23) && iqKind k (n - 0x20) != 0) || (decide (0x24 ≤ n) && decide (n ≤ 0x2D)) || n == 0x3F
def scalarDstOk (k : BitVec 16) (n : Nat) : Bool :=
  decide (n ≤ 0x1F) || (decide (0x30 ≤ n) && decide (n ≤ 0x33) && decide (oqKind k (n - 0x30) ≥ 2)) || n == 0x3F
def vectorSrcOk (k : BitVec 16) (n : Nat) : Bool :=
  decide (n ≤ 7) || (decide (0x20 ≤ n) && decide (n ≤ 0x23) && iqKind k (n - 0x20) == 1) || n == 0x24 || n == 0x3F
def vectorDstOk (k : BitVec 16) (n : Nat) : Bool :=
  decide (n ≤ 7) || (decide (0x30 ≤ n) && decide (n ≤ 0x33) && oqKind k (n - 0x30) == 1) || n == 0x3F

/-- Does VCVT convert a pair of formats in one instruction (03 R109). -/
def convertsPair (from_ to_ : Nat) : Bool :=
  (to_ == 0xF && decide (from_ ≤ 0xA)) || (from_ == 0xF && (to_ == 0 || to_ == 1 || to_ == 7 || to_ == 8 || to_ == 9)) ||
    (from_ == 0xA && to_ == 9)

/-- Does the tensor datapath take a pair of formats (03 R97). -/
def tensorPair (a w : Nat) : Bool :=
  (decide (a ≤ 1) && decide (w ≤ 1)) || (mxCode a && mxCode w) || (a == w && (a == 7 || a == 8 || a == 9))

/-- The special registers that MFSR may name (04 R168, 03 R118). -/
def sprDefined (n : Nat) : Bool :=
  [0x00, 0x01, 0x02, 0x03, 0x04, 0x05, 0x08, 0x09, 0x10, 0x11, 0x12, 0x18, 0x19, 0x1A, 0x1B, 0x1C, 0x1D, 0x20, 0x21, 0x22, 0x23].contains n

/-- The rules of R169 that concern one opcode. -/
def opcodeOk (k : BitVec 16) (w : W64) : Bool :=
  let c := opcOf w
  if c = 0x05 then sprDefined (fld w 7 0)
  else if c = 0x06 then fld w 7 0 == 0x11 || fld w 7 0 == 0x12
  else if c = 0x15 then fld w 16 16 == 1
  else if c = 0x16 then decide (fld w 25 23 ≤ 5)
  else if c = 0x26 then decide (fld w 4 0 ≤ 3)
  else if c = 0x29 then decide (fld w 4 0 ≤ 1)
  else if 0x20 ≤ c && c ≤ 0x2A then fld w 4 0 == 0
  else if c = 0x2B then convertsPair (fld w 16 13) (fld w 12 9) && (mxCode (fld w 16 13) || fld w 7 2 == 0)
  else if c = 0x2C then mxCode (fld w 10 7) && (fB w == 0 || fB w == 2 || fB w == 4 || fB w == 6)
  else if c = 0x30 then
    tensorPair (fld w 24 21) (fld w 20 17) &&
      (if fld w 16 16 = 0 then decide (fld w 15 11 ≤ 3) && iqKind k (fld w 15 11) == 1
       else !(mxCode (fld w 24 21) && decide (fld w 15 11 > 30))) &&
      !(mxCode (fld w 20 17) && decide (fld w 10 6 > 30)) && !(fld w 25 25 == 1 && decide (fld w 10 6 > 29))
  else if c = 0x34 then fld w 18 18 == 1 || (decide (fld w 17 13 ≤ 3) && oqKind k (fld w 17 13) == 1)
  else if c = 0x36 then iqKind k (fld w 28 27) == 1
  else if c = 0x37 then oqKind k (fld w 28 27) == 1
  else if c = 0x3B then decide (fld w 28 26 ≤ 4)
  else true

/-- May a slot hold an instruction (R169), with these queue kinds and this precision mode word. -/
def slotOk (k : BitVec 16) (pmode : W32) (w : W64) : Bool :=
  let u := usesOf w
  opcDefined (opcOf w) && !bodyReserved w && !undeclared pmode w && opcodeOk k w &&
    (List.range 5).all (fun i => !w.getLsbD (29 + i) || w.getLsbD (53 + i)) &&
    u.ss.all (scalarSrcOk k) && u.sd.all (scalarDstOk k) && u.vs.all (vectorSrcOk k) && u.vd.all (vectorDstOk k)

/-- Check 8 for the core of record r: its spill ring (04 R139) and its slots. -/
def coreBad (pmode : W32) (l : Layout) (r : Rec) (c : CcCfg) : List Bad :=
  let o := recBody l r
  badIf (c.splBase % 256 != 0 || (decide (c.splSize > 0) && decide (c.splBase + c.splSize > 0xC000))) (o + 8) r.who ++
    badIf (c.splSize % 256 != 0 || decide (c.splSize > 32768)) (o + 0x0A) r.who ++
    c.slots.zipIdx.flatMap (fun w => badIf (!slotOk c.qkind pmode w.1) (o + 0x90 + 8 * w.2) r.who)

/-! ## Special-function units (05 R185) -/

/-- The functions of 05 R174; 31 marks a descriptor unused. -/
def funcDefined (n : Nat) : Bool := decide (n ≤ 10) || n == 16 || n == 17 || n == 20 || n == 21 || n == 31

/-- Check 9 for the SFU of record r. -/
def sfuCfgBad (pmode : W32) (l : Layout) (r : Rec) (c : SfuCfg) : List Bad :=
  c.descs.zipIdx.flatMap (fun x =>
    let d := x.1
    let o := recBody l r + 8 + 32 * x.2
    let before := (c.descs.take x.2).filter (fun e => e.func != 31)
    let row := d.rowop != 0 || d.func == 16 || d.func == 17 || d.func == 20 || d.func == 21
    if d.func == 31 then []
    else
      badIf (!funcDefined d.func || ((d.func == 20 || d.func == 21) && !pmode.getLsbD 10)) o r.who ++
        badIf (iqKind c.qkind d.inQ != 1 || oqKind c.qkind d.outQ != 1 || before.any (fun e => e.inQ == d.inQ || e.outQ == d.outQ)) (o + 1) r.who ++
        badIf (row && (d.rowlen % 16 != 0 || decide (d.rowlen < 16) || decide (d.rowlen > 65536))) (o + 0x10) r.who)

/-! ## Memory units (05 R203, R205, R190) -/

/-- Bytes of a bank, or of its window in CACHE mode. -/
def sdLimit (mode : Nat) : Nat := if mode = 2 then 0x80000 else 0x30000

/-- A stream descriptor at offset o that breaks 05 R190; one with REPEAT 0 is unused. -/
def sdBad (c : MuCfg) (d : MuSd) (o : Nat) (u : Option Nat) : List Bad :=
  let mode := c.modes.getD d.bank 0
  let kind := if d.dir then iqKind c.qkind d.q else oqKind c.qkind d.q
  let wr := (c.win.getD d.bank 0).getLsbD 55
  if d.rep = 0 then []
  else
    badIf (kind != 1 || !(mode == 1 || mode == 2 || mode == 3) || (d.dir && mode == 2 && !wr) ||
        (decide (d.gate ≥ 1) && iqKind c.qkind (d.gate - 1) != 3)) o u ++
      badIf (mode != 3 && (d.addr % 64 != 0 || decide (d.addr + (d.rep - 1) * d.pitch + d.len > sdLimit mode))) (o + 4) u ++
      badIf (d.len % 64 != 0 || d.len == 0 || decide (d.len > sdLimit mode)) (o + 8) u ++ badIf (d.pitch % 64 != 0) (o + 0x0C) u

/-- A counter that breaks 05 R205. -/
def wcBad (w : WcCfg) : Bool :=
  (w.mode == 1 && decide (w.base > w.limit)) || (w.mode == 2 && (w.limit == 0 || decide (w.limit > 4096)))

/-- Check 10 for the MU of record r. -/
def muCfgBad (b : Nat → Byte) (l : Layout) (r : Rec) (c : MuCfg) : List Bad :=
  let o := recBody l r
  badIf (decide ((c.modes.filter (· == 4)).length > 1) || decide ((c.modes.filter (· == 5)).length > 1)) o r.who ++
    c.sds.zipIdx.flatMap (fun x => sdBad c x.1 (sdOff o x.2) r.who) ++
    c.wcs.zipIdx.flatMap (fun x => badIf (wcBad x.1) (wcOff b o x.2 + 4) r.who)

/-- Is the batch list's place wrong (02 R87): in one SCRATCH bank of an MU of the polder. -/
def batchLocBad (c : PolderCfg) : Bool :=
  let size := 16 + 8 * c.maxBatch
  decide (c.maxBatch > 0) &&
    !(isMu c.batchMu && inRects c.rects c.batchMu && decide (c.batchOff / bankSize < 4) &&
      c.batchOff / bankSize == (c.batchOff + size - 1) / bankSize &&
      (match unitCfg c c.batchMu with | .mu m => m.modes.getD (c.batchOff / bankSize) 0 == 1 | _ => false))

/-! ## Switches (06 R245, 11 R389) -/

/-- Queue kinds of a unit's configuration. -/
def cfgKinds : UnitCfg → BitVec 16
  | .cc c => c.qkind
  | .sfu c => c.qkind
  | .mu c => c.qkind

/-- The kind of queue that a fabric serves. -/
def fabKind : Fab → Nat
  | .vec => 1
  | .scl => 2
  | .ctl => 3

/-- The unit output queue that a source code names. -/
def srcQueue (fab : Fab) (code : Nat) : Option Nat :=
  match fab with
  | .vec => if 9 ≤ code && code ≤ 0x10 then some ((code - 9) / 2) else none
  | .scl => if 9 ≤ code && code ≤ 0x0C then some (code - 9) else none
  | .ctl => if 0x11 ≤ code && code ≤ 0x14 then some (code - 0x11) else none

/-- The unit input queue that is selector k's sink. -/
def sinkQueue (fab : Fab) (k : Nat) : Option Nat :=
  match fab with
  | .vec => if 8 ≤ k && k ≤ 15 then some ((k - 8) / 2) else none
  | .scl => if 8 ≤ k && k ≤ 11 then some (k - 8) else none
  | .ctl => if 16 ≤ k && k ≤ 19 then some (k - 16) else none

/-- The element a source code names: 0 to 3 VST0, VST1, SST0, SST1; 4 to 7 VJ0, VJ1, SJ0, SJ1; 8 CA. -/
def srcElem (fab : Fab) (code : Nat) : Option Nat :=
  match fab with
  | .vec =>
    if 0x11 ≤ code && code ≤ 0x14 then some ((code - 0x11) / 2)
    else if 0x15 ≤ code && code ≤ 0x18 then some (4 + (code - 0x15) / 2)
    else if code = 0x19 || code = 0x1A then some 8 else none
  | .scl =>
    if 0x0D ≤ code && code ≤ 0x10 then some (2 + (code - 0x0D) / 2)
    else if 0x11 ≤ code && code ≤ 0x14 then some (6 + (code - 0x11) / 2) else none
  | .ctl => if 0x15 ≤ code && code ≤ 0x18 then some (code - 0x15) else none

/-- The element that selector k feeds. -/
def sinkElem (fab : Fab) (k : Nat) : Option Nat :=
  match fab with
  | .vec =>
    if 16 ≤ k && k ≤ 19 then some ((k - 16) / 2)
    else if 20 ≤ k && k ≤ 23 then some (4 + (k - 20) / 2)
    else if 24 ≤ k && k ≤ 27 then some 8 else none
  | .scl =>
    if 12 ≤ k && k ≤ 15 then some (2 + (k - 12) / 2)
    else if 16 ≤ k && k ≤ 19 then some (6 + (k - 16) / 2) else none
  | .ctl => if 20 ≤ k && k ≤ 23 then some (k - 20) else none

/-- Is an element enabled. -/
def elemEnabled (w : BitVec 768) (e : Nat) : Bool := if e < 4 then steerMode w e != 0 else elemOn w (e - 4)

/-- Does a source code name port 1 of a steering unit that is not in split mode. -/
def namesPort1 (w : BitVec 768) (fab : Fab) (code : Nat) : Bool :=
  match fab with
  | .vec => (code == 0x12 && steerMode w 0 != 2) || (code == 0x14 && steerMode w 1 != 2)
  | .scl => (code == 0x0E && steerMode w 2 != 2) || (code == 0x10 && steerMode w 3 != 2)
  | .ctl => false

/-- Highest source code of a fabric. -/
def codeMax : Fab → Nat
  | .vec => 0x1A
  | .scl => 0x14
  | .ctl => 0x28

/-- Every selector: fabric and number. -/
def selectors : List (Fab × Nat) := [Fab.vec, .scl, .ctl].flatMap (fun f => (List.range (selCount f)).map (fun k => (f, k)))

/-- The edges among a switch's elements: the element named, the element fed. -/
def elemEdges (w : BitVec 768) : List (Nat × Nat) :=
  selectors.filterMap (fun x =>
    match srcElem x.1 (selCode w x.1 x.2), sinkElem x.1 x.2 with
    | some a, some e => some (a, e)
    | _, _ => none)

/-- Elements from which a cycle can be reached. -/
def elemCycles (w : BitVec 768) : List Nat :=
  let es := elemEdges w
  pruneNodes (fun a b => es.contains (a, b)) 9 (List.range 9)

/-- May a two-lane input queue be fed by this pair of codes (06 R245). -/
def lanePair (w : BitVec 768) (a e : Nat) : Bool :=
  (decide (1 ≤ a) && decide (a ≤ 7) && a % 2 == 1 && e == a + 1) || (a == 0x15 && e == 0x16) || (a == 0x17 && e == 0x18) ||
    (a == 0x19 && e == 0x1A) || (steerGang w 1 && ((a == 0x11 && e == 0x13) || (a == 0x12 && e == 0x14)))

/-- Vector FIFO depths in use (06 R237). -/
def fifoDepths (w : BitVec 768) : Nat :=
  ((List.range 2).map (fun j => if elemOn w j then elemDepth w j 0 + elemDepth w j 1 else 0)).foldl (· + ·) 0 +
    (if elemOn w 4 then ((List.range 4).map (fun i => if selCode w .vec (24 + i) != 0 then elemDepth w 4 (i / 2) else 0)).foldl (· + ·) 0 else 0)

/-- Does a transit selector break 06 R241. -/
def transitBad (fab : Fab) (k code : Nat) : Bool :=
  match fab with
  | .ctl => if k ≥ 24 then code != 0 else decide (code > 0x10)
  | _ => decide (code > 8)

/-- Where selector k of a word at o begins. -/
def selOff (o : Nat) (fab : Fab) (k : Nat) : Nat := o + (selPlace fab k).1 / 8

/-- The word that switch v holds once configuration c is active in polder p. -/
def wordAfter (s : State) (p : Nat) (c : PolderCfg) (v : Nat) : BitVec 768 :=
  (switchSet p (inRects c.rects v) (mget 0 c.switches v) (getSw s v)).word

/-- The polder that position v then lies in. -/
def ownerAfter (s : State) (p : Nat) (c : PolderCfg) (v : Nat) : Option Nat := if inRects c.rects v then some p else ownerOf s v

/-- Does selector k of switch u send a lane across a dike link against 06 R242. -/
def dikeBad (s : State) (p : Nat) (c : PolderCfg) (u : Nat) (fab : Fab) (k : Nat) : Bool :=
  let ways := laneWays fab
  let w := wordAfter s p c u
  if k ≥ 4 * ways || selCode w fab k == 0 then false
  else
    match neighbour u (dirOf (k / ways)) with
    | none => false
    | some v =>
      let w' := wordAfter s p c v
      let a := ownerAfter s p c u
      let dike := a.isNone || ownerAfter s p c v != a
      dike && !(selT w fab k && (laneNamers w' fab (ways * oppN (k / ways) + k % ways)).all (fun x => selT w' x.1 x.2) && tpolder w == tpolder w')

/-- What of the word of one selector breaks R245. -/
def selectorBad (s : State) (p : Nat) (c : PolderCfg) (u : Nat) (w : BitVec 768) (fab : Fab) (k : Nat) : Bool :=
  let code := selCode w fab k
  let kinds := cfgKinds (unitCfg c u)
  let t := selT w fab k
  let old := (getSw s u).word
  decide (code > codeMax fab) ||
    (match srcQueue fab code with | some q => oqKind kinds q != fabKind fab | none => false) ||
    (match sinkQueue fab k with | some q => code != 0 && iqKind kinds q != fabKind fab | none => false) ||
    (fab == .vec && decide (8 ≤ k) && decide (k ≤ 15) && k % 2 == 1 && code != 0 &&
      !(selCode w .vec (k - 1) != 0 && lanePair w (selCode w .vec (k - 1)) code)) ||
    (fab == .vec && decide (9 ≤ code) && decide (code ≤ 0x10) && code % 2 == 0 &&
      !(List.range 28).any (fun j => selCode w .vec j == code - 1)) ||
    namesPort1 w fab code || (match srcElem fab code with | some e => !elemEnabled w e | none => false) ||
    (t && (transitBad fab k code || otherLive s p (tpolder w) || (hasTransit old && otherLive s p (tpolder old)))) ||
    dikeBad s p c u fab k

/-- Check 11 for the switch of record r. -/
def switchBad (s : State) (p : Nat) (c : PolderCfg) (l : Layout) (r : Rec) : List Bad :=
  let u := r.unitId
  let o := recBody l r
  let w := mget 0 c.switches u
  let cyc := elemCycles w
  let own := inRects c.rects u
  selectors.flatMap (fun x =>
    let inCycle := match srcElem x.1 (selCode w x.1 x.2), sinkElem x.1 x.2 with
      | some a, some e => cyc.contains a && cyc.contains e
      | _, _ => false
    let outside := !own && selCode w x.1 x.2 != 0 && !selT w x.1 x.2
    badIf (selectorBad s p c u w x.1 x.2 || inCycle || outside) (selOff o x.1 x.2) r.who) ++
    [1, 3].flatMap (fun e =>
      badIf (steerGang w e && (steerMode w e != steerMode w (e - 1) || steerG w e != steerG w (e - 1))) (o + 71 + e) r.who ++
        badIf (steerGang w e && selCode w .ctl (20 + e) != 0) (selOff o .ctl (20 + e)) r.who) ++
    badIf (decide (fifoDepths w > 256)) (o + 75) r.who ++
    badIf (!own && wbits w 644 568 != 0) (o + 71) r.who ++ badIf (!own && tpolder w != p) (o + 80) r.who

/-! ## Multicast groups, sync objects (07 R274, 08 R295) -/

/-- Is a group entry refused. -/
def groupBad (c : PolderCfg) (w : Nat) : Bool :=
  let x0 := bitsOf w 9 0
  let y0 := bitsOf w 19 10
  let x1 := bitsOf w 29 20
  let y1 := bitsOf w 39 30
  let t := bitsOf w 41 40
  let ofType := fun x => if t = 0 then isCc (unitAt x y0) else if t = 1 then isMu (unitAt x y0) else true
  let n := ((span x0 x1).filter ofType).length
  t == 2 || decide (x1 < x0) || decide (y1 < y0) || n == 0 || decide (n * (y1 + 1 - y0) > 2048) ||
    !((span y0 y1).all (fun y => (span x0 x1).all (fun x => isUnit (unitAt x y) && inRects c.rects (unitAt x y))))

/-- Check 12. -/
def mcastBad (c : PolderCfg) : List Bad :=
  (List.range 64).flatMap (fun g => badIf (c.mcValid.getLsbD g && groupBad c (c.mcast.getD g 0).toNat) (polOff + 0x100 + 8 * g) none)

/-- Check 13. -/
def syncBad (s : State) (p : Nat) (b : Nat → Byte) (c : PolderCfg) : List Bad :=
  let fields := rectFields c.rects
  badIf (decide (c.maxBatch > 0) && !c.sync.any (fun a => a.obj == c.batchSync)) (polOff + 0x0E) none ++
    c.sync.zipIdx.flatMap (fun x =>
      let o := getObj s x.1.obj
      badIf ((o.alloc && otherLive s p o.owner.toNat) || !fields.contains (x.1.obj / 1024)) (syncOff b + 8 * x.2) none)

/-! ## DRAM ranges and stream engines (10 R346, R353, R361) -/

/-- Iterations that a descriptor can run, and the buffers they use. -/
def seBuffers (c : PolderCfg) (d : SeDesc) : Nat :=
  let n := if d.ctxsel then c.maxBatch else 1
  if d.ubufs = 0 then n else min n d.ubufs

/-- Bytes of a row in the unit. -/
def seRowLen (d : SeDesc) : Nat := if d.store then d.rowb else d.padl + d.rowb + d.padr

/-- Does a descriptor reach outside its unit's memory, or into the spill ring of its core. -/
def seReachBad (c : PolderCfg) (d : SeDesc) : Bool :=
  let nb := seBuffers c d
  let top := d.uaddr + (nb - 1) * d.ubstride + (d.planes - 1) * d.upstride + (d.rows - 1) * d.urstride + seRowLen d
  let size := if isCc d.unit then 0xC000 else 4 * bankSize
  let inRing := match unitCfg c d.unit with
    | .cc k => decide (k.splSize > 0) && (List.range nb).any (fun i => (List.range d.planes).any (fun q => (List.range d.rows).any (fun r =>
        overlaps (d.uaddr + i * d.ubstride + q * d.upstride + r * d.urstride) (seRowLen d) k.splBase k.splSize)))
    | _ => false
  decide (nb > 0) && (decide (top > size) || inRing)

/-- What of the descriptor at offset o breaks 10 R361. -/
def seDescBad (c : PolderCfg) (d : SeDesc) (o : Nat) : List Bad :=
  let owned := fun n => c.sync.any (fun a => a.obj == n)
  let m8 := fun (n : Nat) => n % 8 != 0
  badIf (d.store && d.rowsel == 2) o none ++
    badIf (!((isCc d.unit || isMu d.unit) && inRects c.rects d.unit)) (o + 4) none ++ badIf (m8 d.dbase) (o + 8) none ++
    badIf (m8 d.rowb || decide (d.rowb < 8) || decide (d.rowb > 65536)) (o + 0x10) none ++
    badIf (d.rstride % 8 != 0) (o + 0x18) none ++ badIf (d.pstride % 8 != 0) (o + 0x1C) none ++ badIf (d.bstride % 8 != 0) (o + 0x20) none ++
    badIf (m8 d.padl || (d.store && d.padl != 0)) (o + 0x24) none ++ badIf (m8 d.padr || (d.store && d.padr != 0)) (o + 0x26) none ++
    badIf (m8 d.uaddr || seReachBad c d) (o + 0x28) none ++ badIf (m8 d.urstride || decide (d.urstride < seRowLen d)) (o + 0x2C) none ++
    badIf (m8 d.upstride) (o + 0x30) none ++ badIf (m8 d.ubstride) (o + 0x34) none ++
    badIf (d.gateEn && !owned d.gateObj) (o + 0x38) none ++ badIf (d.doneEn && !owned d.doneObj) (o + 0x3A) none

/-- Prefetch depth that other live polders hold at MEC n. -/
def depthHeld (s : State) (p n : Nat) : Nat :=
  ((List.range 16).map (fun i =>
    let e := getSe s (16 * n + i)
    if e.assigned && otherLive s p e.owner.toNat then e.pfdepth else 0)).foldl (· + ·) 0

/-- Check 14. -/
def dramBad (s : State) (p : Nat) (c : PolderCfg) (l : Layout) : List Bad :=
  c.grants.zipIdx.flatMap (fun x =>
    badIf (!dramRange x.1.base x.1.size || inConfArea s x.1.base x.1.size) (grantOff + 16 * x.2) none) ++
    (c.engines.zip l.engines).zipIdx.flatMap (fun x =>
      let r := x.1.1
      let o := x.1.2.1
      let held := getSe s r.engine
      let sum := ((c.engines.take (x.2 + 1)).filter (fun t => t.engine / 16 == r.engine / 16)).foldl (fun a t => a + t.pfdepth) (depthHeld s p (r.engine / 16))
      badIf (held.assigned && otherLive s p held.owner.toNat) o none ++ badIf (decide (sum > 12288)) (o + 2) none ++
        r.descs.zipIdx.flatMap (fun d => seDescBad c d.1 (o + 8 + 64 * d.2)))

/-! ## The archive (11 R392) -/

/-- Where a copy of n bytes goes in the archive, in 64 KiB units from its base: the lowest place between the copies there. -/
def archPlace (k : Conf) (n : Nat) : Option Nat :=
  let base := k.archBase.toNat * 65536
  let used := k.archive.map (fun e => ((e.2.1 - base) / 65536, archUnits e.2.2))
  let fits := fun a => decide (a + archUnits n ≤ k.archSize.toNat) && dramRange (base + 65536 * a) n &&
    used.all (fun u => !overlaps a (archUnits n) u.1 u.2)
  least? ((0 :: used.map (fun u => u.1 + u.2)).filter fits)

/-- Has the archive a copy of a digest already. -/
def archHas (k : Conf) (d : W512) : Bool := k.archive.any (fun e => e.1 == d)

/-! ## All checks of a POLDER bitstream -/

/-- Checks 7 to 10 of the units. -/
def unitChecks (b : Nat → Byte) (c : PolderCfg) (l : Layout) : List (Nat × List Bad) :=
  let us := (unitRecs l).map (fun r => (r, unitOf b l r))
  [(7, us.flatMap (fun x => precisionBad c.pmode l x.1 x.2)),
   (8, us.flatMap (fun x => match x.2 with | .cc k => coreBad c.pmode l x.1 k | _ => [])),
   (9, us.flatMap (fun x => match x.2 with | .sfu k => sfuCfgBad c.pmode l x.1 k | _ => [])),
   (10, badIf (batchLocBad c) (polOff + 0x10) none ++ us.flatMap (fun x => match x.2 with | .mu k => muCfgBad b l x.1 k | _ => []))]

/-- Checks 3 to 16 of a POLDER bitstream for polder p, by code. -/
def polderChecks (s : State) (p : Nat) (stage : Bool) (b : Nat → Byte) : List (Nat × List Bad) :=
  let l := polderLayout p b
  let c := polderOf b l
  [(3, l.bad), (4, headerRes b ++ polderRes b ++ tablesRes b ++ layoutRes b l), (5, geometryBad s p stage c), (6, placementBad s l c)] ++
    unitChecks b c l ++
    [(11, (switchRecs l).flatMap (switchBad s p c l)), (12, mcastBad c), (13, syncBad s p b c), (14, dramBad s p c l),
     (16, badIf (!archHas s.conf c.digest && (archPlace s.conf c.length).isNone) 0 none)]

/-- The first check that fails and its lowest item. -/
def firstRefusal : List (Nat × List Bad) → Option (Nat × Bad)
  | [] => none
  | (n, l) :: rest => match lowestBad l with | some x => some (n, x) | none => firstRefusal rest

end Sys2Proof.Machine
end

