-- ==== Sys2Proof/Machine/RouteCheck.lean ====
section
/-! DEFINITION. The checks of a ROUTE bitstream after its signature (11 R396 codes 3, 4, 15): structure, reserved fields, reserved
table codes (07 R260, R265). Readings: log 23, DEDUCED. -/

namespace Sys2Proof.Machine

open Sys2Proof

/-! ## Reserved table codes (07 R260, R265) -/

/-- Is a code legal in a field table or a detour register; in an endpoint table; in a row table; in a causeway table. -/
def fieldCodeOk (n : Nat) : Bool := decide (n ≤ 8) || n == 15
def epCodeOk (n : Nat) : Bool := decide (n ≤ 9) || n == 15
def rowCodeOk (n : Nat) : Bool := decide (n ≤ 2) || (decide (5 ≤ n) && decide (n ≤ 8)) || n == 15
def cwCodeOk (n : Nat) : Bool := (decide (1 ≤ n) && decide (n ≤ 8)) || n == 15

/-- Reserved codes in the tables of one net at o. -/
def netTabBad (b : Nat → Byte) (o : Nat) : List Bad :=
  (List.range 64).flatMap (fun i => badIf (!fieldCodeOk (num b (o + i) 1 % 16) || !fieldCodeOk (num b (o + i) 1 / 16)) (o + i) none) ++
    (List.range 51).flatMap (fun i => badIf (!epCodeOk (num b (o + 64 + i) 1 % 16) || !epCodeOk (num b (o + 64 + i) 1 / 16)) (o + 64 + i) none) ++
    (List.range 50).flatMap (fun i => badIf (!rowCodeOk (num b (o + 120 + i) 1 % 16) || !rowCodeOk (num b (o + 120 + i) 1 / 16)) (o + 120 + i) none) ++
    (List.range 2).flatMap (fun i => badIf (!fieldCodeOk (num b (o + 176 + i) 1 % 16) || !fieldCodeOk (num b (o + 176 + i) 1 / 16)) (o + 176 + i) none)

/-- Reserved codes in a record's tables. -/
def codesBad (b : Nat → Byte) (r : Rec) : List Bad :=
  let o := r.off + 8
  if r.rkind = 3 then (List.range 115).flatMap (fun i => badIf (!cwCodeOk (num b (o + i / 2) 1 / 16 ^ (i % 2) % 16)) (o + i / 2) none)
  else netTabBad b o ++ netTabBad b (o + 184)

/-! ## Checks of a ROUTE bitstream -/

/-- Checks 3, 4 and the codes of check 15; the cycle is checked after them. -/
def routeChecks (b : Nat → Byte) : List (Nat × List Bad) :=
  let l := routeLayout b
  [(3, l.bad), (4, headerRes b ++ layoutRes b l), (15, l.recs.flatMap (codesBad b))]

end Sys2Proof.Machine
end

