-- ==== Sys2Proof/Machine/Load.lean ====
section
/-! DEFINITION. The configuration commands (11 R392 to R402): POLDER_LOAD, POLDER_STAGE, POLDER_SWAP, ROUTE_LOAD, and the end of
staging (05 R199). A command verifies, checks and writes in one step; the activation follows at a tick (log 5, DESIGN CHOICE).
Readings: log 21, DEDUCED; log 22, DEDUCED. -/

namespace Sys2Proof.Machine

open Sys2Proof

/-! ## The staged bitstream -/

/-- Byte i of the staging window (R392). -/
def stagedByte (s : State) (i : Nat) : Byte := rd8 s.dram (s.conf.stageBase.toNat * 65536 + i)

/-- The first row of the status table of R394 that applies to a command that may run where `legal`, on a polder whose clusters lie
in a list of fields. -/
def confStatus (s : State) (legal : Bool) (fields : List Nat) : Option Nat :=
  let len := bsLength (stagedByte s)
  if s.conf.busy then some stBusy
  else if !legal then some stState
  else if !s.conf.stageEn || s.conf.archSize == 0 || decide (len > 268435456) then some stAddr
  else if fields.any (fieldDown s) then some stPdown
  else none

/-- A configuration command runs: LD_STAT (R395 step 1). -/
def confBegin (q op p phase : Nat) (s : State) : State :=
  modConf s (fun k => { k with busy := true, op := BitVec.ofNat 2 op, phase := BitVec.ofNat 2 phase, polder := BitVec.ofNat 8 p, queue := q })

/-- A configuration command ends with a status. -/
def confEnd (q status : Nat) (s : State) : State := finish q status 0 (modConf s (fun k => { k with busy := false }))

/-- A refusal with a code at an item (R396, R397). -/
def refuse (q : Nat) (p : Option Nat) (code : Nat) (x : Bad) (s : State) : State :=
  refuseAt q p code x.off x.unit s

/-- Check 2 (R379): a bitstream of which a granule cannot be read has a signature that does not verify (log 35, DESIGN CHOICE). -/
def signatureBad (s : State) (b : Nat → Byte) : List Bad :=
  let o := bsSig b
  badIf (num b o 2 != 1) o none ++ badIf (!keyActive s (num b (o + 2) 1)) (o + 2) none ++
    badIf (!ownerSigned s "KMLYCFG1" (bsBytes b o) ((List.range 128).map (fun i => b (o + i))) ||
      (badIn s (stagingArea s).1 (bsLength b)).isSome) (o + 8) none

/-- Checks 1 and 2 for a command that takes a KIND, by code. -/
def verifyChecks (s : State) (kind : Nat) (b : Nat → Byte) : List (Nat × List Bad) := [(1, headerBad kind b), (2, signatureBad s b)]

/-- Run checks in order; where one fails refuse, else go on. -/
def checked (q : Nat) (p : Option Nat) (checks : List (Nat × List Bad)) (f : State → State) (s : State) : State :=
  match firstRefusal checks with
  | some (code, x) => refuse q p code x s
  | none => f s

/-! ## What a verified bitstream leaves -/

/-- LD_DIGEST and LD_BUILD (R403). -/
def noteTaken (b : Nat → Byte) (s : State) : State :=
  modConf s (fun k => { k with
    priorDigest := k.digest, priorBuild := k.buildId, digest := bsDigest b, buildId := BitVec.ofNat 64 (num b 0x10 8) })

/-- The copy of a configuration in the archive (R392); one of the same digest serves several. -/
def archiveCopy (c : PolderCfg) (b : Nat → Byte) (s : State) : State :=
  if archHas s.conf c.digest then s
  else
    match archPlace s.conf c.length with
    | none => s
    | some a =>
      let addr := (archiveArea s).1 + 65536 * a
      let s := copyBytes addr (bsBytes b c.length) s
      archiveTrim (modConf s (fun k => { k with archive := k.archive ++ [(c.digest, addr, c.length)] }))

/-- Bytes of a configuration slot (05 R199). -/
def slotBytes : Nat := 49152

/-- Write the image of every cluster of a configuration into slot i of a bank of its MU, where that is not absent, and mark the slots
that the MU holds valid (R395). -/
def writeImages (c : PolderCfg) (absent : Nat → Bool) (bank : Nat → Nat) (i : Nat) (valid : Nat → BitVec 4 → BitVec 4) (s : State) : State :=
  forEach (rectClusters c.rects).zipIdx (fun x s =>
    let u := x.1 + 5
    if absent u then s
    else modMu s u (fun m => { m with
      mem := wrN m.mem (bankSize * bank u + slotBytes * i) ((List.range slotBytes).map (Config.imageByte c.digest x.2)),
      slots := valid u m.slots })) s

/-- Mode of bank k of MU u in a configuration. -/
def cfgMode (c : PolderCfg) (u k : Nat) : Nat := match unitCfg c u with | .mu m => m.modes.getD k 0 | _ => 0

/-- The CONFIG bank of MU u in a configuration. -/
def configBank (c : PolderCfg) (u : Nat) : Option Nat := (List.range 4).find? (fun k => cfgMode c u k == 5)

/-- The memory units whose store a write of configuration c reaches. -/
def storesOf (c : PolderCfg) (s : State) : List Nat := ((rectClusters c.rects).map (· + 5)).filter (faultable s)

/-- The memory unit in whose store an uncorrectable error is found as the images of configuration c are written there: a free choice
of each write (05 R202; log 36, DESIGN CHOICE). -/
def storeUe (c : PolderCfg) (s : State) : Option Nat := (storesOf c s).find? (Config.storeUe s.free)

/-- The write of a store fails at memory unit u, in the bank at address a: the unit has its SRAM fault (05 R202), and the command is
refused with STORE_ERR (11 R396 check 17). -/
def storeRefused (q p u a : Nat) (s : State) : State :=
  let (w, s1) := takeFree (unitFault u 2 a (modMu s u (fun m => { m with flags := setBit m.flags 0 })))
  eventsByCode s (refuse q (some p) 17 ⟨w.toNat, some u⟩ s1)

/-- A free choice has been used. -/
def freeUsed (s : State) : State := { s with free := s.free + 1 }

/-! ## POLDER_LOAD -/

/-- The rectangles of the staged bitstream that make sense as they stand. -/
def stagedRects (b : Nat → Byte) : List Rect :=
  (bsRects b).filter (fun r => decide (r.c0 ≤ r.c1) && decide (r.r0 ≤ r.r1) && decide (r.r1 ≤ 767))

/-- The load of a verified configuration c up to the beginning of staging (R395 step 3). The images go to the memory units that the
rows will serve once the load takes effect. -/
def loadStage (p : Nat) (b : Nat → Byte) (s : State) : State :=
  let c := polderOf b (polderLayout p b)
  let s := modPolder s p (fun x => { x with staging := some c, staged := false })
  let s := archiveCopy c b (noteTaken b s)
  let s := writeImages c (rowAbsent (remapWhole c.rects s)) (fun _ => 3) 0 (fun u _ => if cfgMode c u 3 == 5 then 1 else 0) s
  modConf s (fun k => { k with phase := 2 })

/-- The store of a verified bitstream is written, or that fails and the load is refused. -/
def loadWrite (q p : Nat) (b : Nat → Byte) (s : State) : State :=
  match storeUe (polderOf b (polderLayout p b)) (remapWhole (stagedRects b) s) with
  | none => loadStage p b (freeUsed s)
  | some u => storeRefused q p u (3 * bankSize) (freeUsed s)

/-- POLDER_LOAD. A field counts as holding a cluster of P where a rectangle of the staged bitstream reaches it. -/
def execPolderLoad (q : Nat) (s : State) : Out :=
  hostCmd q 0x01 (fun cmd s =>
    let p := polderArg cmd
    let b := stagedByte s
    match confStatus s ((getPolder s p).state == 0) (rectFields (stagedRects b)) with
    | some st => if st = stState then refuseState q cmd false s else finish q st 0 s
    | none =>
      checked q (some p) (verifyChecks s 1 b) (fun s =>
        checked q (some p) (polderChecks (remapWhole (stagedRects b) s) p false b) (loadWrite q p b) (modConf s (fun k => { k with phase := 1 })))
        (confBegin q 0 p 0 s)) s

/-! ## POLDER_STAGE -/

/-- s, a slot number: ARG0 [9:8]. -/
def slotArg (c : Cmd) : Nat := bitsOf c.a0.toNat 9 8

/-- May a bitstream be staged in polder p: it is loaded, and every MU of it has a CONFIG bank. -/
def mayStage (x : Polder) : Bool :=
  match x.cfg with
  | some c => !x.releasing && (x.state == 1 || x.state == 2 || x.state == 3) && ((rectUnits c.rects).filter isMu).all (fun u => (configBank c u).isSome)
  | none => false

/-- A verified configuration c is written into slot i of polder p (R395 steps 3, 4). -/
def stageSlot (p i : Nat) (b : Nat → Byte) (s : State) : State :=
  let c := polderOf b (polderLayout p b)
  let x := getPolder s p
  let bank := fun u => match x.cfg with | some a => (configBank a u).getD 3 | none => 3
  let s := setPolder s p { x with
    slotValid := setBit x.slotValid i, slotDigest := lset x.slotDigest i c.digest, slotCfg := mput x.slotCfg i c,
    active := if x.active.toNat == i && c.digest != x.cfgActive then 7 else x.active }
  writeImages c (rowAbsent s) bank i (fun _ v => setBit v i) (archiveCopy c b (noteTaken b s))

/-- Slot i of polder p holds no configuration that can be staged (11 R397). -/
def slotInvalid (p i : Nat) (s : State) : State :=
  let x := getPolder s p
  let s := setPolder s p { x with slotValid := clrBit x.slotValid i, slotCfg := merase x.slotCfg i,
                                  active := if x.active.toNat == i then 7 else x.active }
  forEach (((rectUnits (rectsOf x)).filter isMu).filter (fun u => !rowAbsent s u)) (fun u s => modMu s u (fun m => { m with slots := clrBit m.slots i })) s

/-- The slot of a verified bitstream is written, or that fails, the slot becomes invalid and the command is refused. -/
def stageWrite (q p i : Nat) (b : Nat → Byte) (s : State) : State :=
  match storeUe (polderOf b (polderLayout p b)) s, (getPolder s p).cfg with
  | some u, some a => storeRefused q p u (bankSize * (configBank a u).getD 3 + slotBytes * i) (slotInvalid p i (freeUsed s))
  | _, _ => confEnd q stOk (stageSlot p i b (freeUsed s))

/-- POLDER_STAGE. -/
def execPolderStage (q : Nat) (s : State) : Out :=
  hostCmd q 0x07 (fun cmd s =>
    let p := polderArg cmd
    let b := stagedByte s
    let x := getPolder s p
    match confStatus s (mayStage x) (rectFields (rectsOf x)) with
    | some st => finish q st 0 s
    | none =>
      checked q (some p) (verifyChecks s 1 b) (fun s =>
        checked q (some p) (polderChecks s p true b) (stageWrite q p (slotArg cmd) b) (modConf s (fun k => { k with phase := 1 })))
        (confBegin q 1 p 0 s)) s

/-! ## POLDER_SWAP and the end of staging -/

/-- May slot i of a polder be swapped in. -/
def maySwap (x : Polder) (i : Nat) : Bool := !x.releasing && (x.state == 1 || x.state == 2 || x.state == 3) && x.slotValid.getLsbD i

/-- POLDER_SWAP: a budget above the bound of 02 R51 answers STATE while the polder runs (R398 step 1). -/
def execPolderSwap (q : Nat) (s : State) : Out :=
  hostCmd q 0x08 (fun cmd s =>
    let p := polderArg cmd
    let i := slotArg cmd
    let x := getPolder s p
    match confStatus s (maySwap x i) (rectFields (rectsOf x)), mget? x.slotCfg i with
    | some st, _ => finish q st 0 s
    | none, none => finish q stState 0 s
    | none, some c =>
      if x.state == 2 && !budgetFits c (nextPeriod s) then refuseState q cmd true s
      else
        setPolder (confBegin q 2 p 2 s) p { x with staging := some c, staged := false, swapPend := true, swapSlot := BitVec.ofNat 2 i, swapHeld := x.await.isSome }) s

/-- The MUs of a configuration whose image in slot i has been staged show it (05 R214). -/
def noteStaged (c : PolderCfg) (i : BitVec 2) (s : State) : State :=
  forEach ((rectUnits c.rects).filter isMu) (fun u s => if rowAbsent s u then s else modMu s u (fun m => { m with lastSlot := i })) s

/-- STAGING_DONE: staging for polder p has ended in every field (05 R199), from its slot or, for a load, from slot 0; its activation
may follow. -/
def execStagingDone (p : Nat) (s : State) : Out :=
  if p ≥ 256 then .fault (.noSuchObject p)
  else
    let x := getPolder s p
    match x.staging with
    | none => .next s
    | some c =>
      if x.staged then .next s
      else
        let s := noteStaged c (if x.swapPend then x.swapSlot else 0) s
        .next (modConf (modPolder s p (fun x => { x with staged := true })) (fun k => { k with phase := 3 }))

/-! ## ROUTE_LOAD -/

/-- The new bank waits for its place, and the change of epoch completes the command (R402). -/
def routeStage (q : Nat) (b : Nat → Byte) (s : State) : State :=
  let k := routeBankOf b (routeLayout b) (bankOf s s.epoch.epoch)
  let s := noteTaken b s
  armEpoch { s with epoch := { s.epoch with built := some k, queue := some q } }

/-- ROUTE_LOAD. -/
def execRouteLoad (q : Nat) (s : State) : Out :=
  hostCmd q 0x09 (fun _ s =>
    let b := stagedByte s
    match confStatus s (!s.epoch.armed) [] with
    | some st => finish q st 0 s
    | none =>
      checked q none (verifyChecks s 2 b ++ routeChecks b) (fun s =>
        let s := modConf s (fun k => { k with phase := 1 })
        if bankSound s (bankNow s (routeBankOf b (routeLayout b) (bankOf s s.epoch.epoch))) then routeStage q b s else routeRefuse q s)
        (confBegin q 3 0 0 s)) s

end Sys2Proof.Machine
end

