-- ==== Sys2Proof/Machine/Readout.lean ====
section
/-! DEFINITION. Stores copied out to the host: the working fault map (15 R504, R523) and the sections of a brownout save (14
R481, R485). Readings: log 4, DESIGN CHOICE; log 40, DEDUCED. -/

namespace Sys2Proof.Machine

open Sys2Proof

/-! ## The fault map as bytes (15 R504) -/

/-- Physical row of a field record: 32 bytes. -/
def rowBytes (x : RowMap) : List Byte :=
  toLe 16 (x.cc.toNat + 2 ^ 84 * x.mu.toNat + 2 ^ 93 * x.sfu.toNat) ++ toLe 2 (x.row.toNat + 4 * b2n x.factory) ++ zeros 6 ++
    toLe 8 x.bootSeq.toNat

/-- Logical rows present in field f by a map (01 R24); none of a field fenced whole (R25). -/
def presentRows (m : FaultMap) (f : Nat) : Nat :=
  if m.fenced.getLsbD f then 0 else min 96 ((List.range 100).filter (fun r => rowUsable (mget {} m.rows (100 * f + r)))).length

/-- The record of field f: 3,208 bytes. -/
def fieldRecord (m : FaultMap) (f : Nat) : List Byte :=
  toLe 8 (b2n (m.fenced.getLsbD f) + 2 * b2n (m.factoryF.getLsbD f) + 2 ^ 8 * presentRows m f) ++
    (List.range 100).flatMap (fun r => rowBytes (mget {} m.rows (100 * f + r)))

/-- The bytes from 0x80 on, which the digest covers. -/
def mapBody (m : FaultMap) : List Byte :=
  (List.range 64).flatMap (fieldRecord m) ++
    (List.range 32).flatMap (fun n => toLe 8 (b2n (m.stackBits.getLsbD n) + 2 * b2n (m.factoryS.getLsbD n) + 4 * (Config.stackLanes n).toNat)) ++
    (List.range 18).flatMap (fun p => toLe 8 (b2n (m.ports.getLsbD p) + 2 * b2n (m.factoryP.getLsbD p) + 4 * (Config.portLanes p).toNat))

/-- Length of the fault map. -/
def mapLength : Nat := 205840

/-- The fault map. -/
def mapBytes (m : FaultMap) : List Byte :=
  toLe 4 0x50464D4B ++ toLe 2 1 ++ zeros 2 ++ toLe 4 mapLength ++ toLe 4 m.bootSeq.toNat ++ toLe 8 m.updates.toNat ++ zeros 40 ++
    digestBytes (Config.shake256 (mapBody m)) ++ mapBody m

/-- The stacks whose domain is off. -/
def stacksOff (s : State) : W32 :=
  BitVec.ofNat 32 ((List.range 32).foldl (fun a n => a + 2 ^ n * b2n ((getDom s (64 + n)).st == 0)) 0)

/-- RPR_MAP_READ: the working fault map is copied; it reports a stack whose domain is off (10 R372) as FAILED (log 48, DESIGN CHOICE). -/
def execRprMapRead (q : Nat) (s : State) : Out :=
  hostCmd q 0x48 (fun c s => copyCmd q c (mapBytes { s.boot.fmap with stackBits := s.boot.fmap.stackBits ||| stacksOff s }) s) s

/-! ## A brownout save (14 R481) -/

/-- An event record (12 R423). -/
def eventBytes (e : Event) : List Byte :=
  toLe 2 e.code.toNat ++ [BitVec.ofNat 8 (b2n e.polder.isSome + 2 * b2n e.ctx.isSome + 4 * b2n e.unit.isSome), e.polder.getD 0] ++
    toLe 2 (e.ctx.getD 0).toNat ++ zeros 2 ++ toLe 4 (e.unit.getD 0).toNat ++ toLe 4 e.seq.toNat ++ toLe 8 e.arg.toNat ++
    toLe 8 e.tick.toNat

/-- Words as bytes. -/
def wordBytes (l : List Nat) : List Byte := l.flatMap (toLe 8)

/-- What Shallot's open records hold of the contexts that are not FREE, as numbers: section 2 is their bytes, in a format that no rule
gives. -/
def openRecords (m : Map Ctx) : List Nat :=
  (m.filter (fun e => e.2.state != 0)).flatMap (fun e =>
    let r := e.2.shRec
    [e.1, r.prio.toNat, r.pmode.toNat, r.openTick.toNat, b2n r.unmeasured, b2n r.jnlGap, (cntWord r.lost).toNat, r.configs.toNat,
      r.wgtChg.toNat, r.nrect] ++ r.rects.map rectWord ++
      [r.cfgDigest.toNat, r.wgtDigest.toNat, r.dOpen.toNat, r.reason.toNat])

/-- Section n of a save, 0 to 6. -/
def saveSection (x : Save) (n : Nat) : List Byte :=
  if n = 0 then (List.range 4096).map (Config.saveHeader x.cause.toNat x.tick.toNat x.serial)
  else if n = 1 then (List.range 8192).flatMap (fun c => wordBytes ((List.range 16).map (ctxOf (mget {} x.ctxs c))))
  else if n = 2 then
    let k := openRecords x.ctxs
    (List.range (Config.openRecordLength k).val).map (Config.openRecordState k)
  else if n = 3 then
    (List.range 4096).flatMap (fun i => match x.events[i]? with
      | some e => eventBytes e
      | none => (List.range 32).map (fun k => Config.blankEvent (32 * i + k)))
  else if n = 4 then mapBytes x.fmap
  else if n = 5 then
    (List.range 256).flatMap (fun p => wordBytes ((List.range 8).map (pstOf (mget {} x.polders p) (mget 0 x.slow p)))) ++
      (List.range 256).flatMap (fun p => wordBytes ((List.range 8).map (dwOf (mget {} x.polders p))))
  else
    (List.range 65536).flatMap (fun o =>
      wordBytes ((List.range 4).map (objOf (mget {} x.objs o) (x.waiters.filter (fun w => w.obj == o)))))

/-- Any section of a save; the commit block holds the digest of the others, signed under the device identity key (log 40, DEDUCED: with
an empty context string and no prehash, since the rule names none). -/
def savePart (dik : List Byte) (x : Save) (n : Nat) : List Byte :=
  if n < 7 then saveSection x n
  else
    let d := Config.shake256 ((List.range 7).flatMap (saveSection x))
    (List.range 4096).map (Config.commitBlock d (Config.ed448Sign dik "" false (digestBytes d)))

/-- BRN_READ: a section of the newest committed save is copied. -/
def execBrnRead (q : Nat) (s : State) : Out :=
  hostCmd q 0x24 (fun c s =>
    match if s.power.brnSaved then newestSave s.power else none with
    | none => finish q stState 0 s
    | some (_, x) => copyCmd q c (savePart s.sec.dik x (bitsOf c.a0.toNat 2 0)) s) s

end Sys2Proof.Machine
end

