-- ==== Sys2Proof/Machine/Dispatch.lean ====
section
/-! DEFINITION. One arm per command: the meaning it has, or its rejection by name. -/

namespace Sys2Proof.Machine

open Sys2Proof

def exec (i : Instr) (s : State) : Host.Outcome State Fault Refusal :=
  match i with
  | .waferTick => Sys2Proof.Machine.execWaferTick s
  | .idleTick => Sys2Proof.Machine.execIdleTick s
  | .crossingRetime f d => Sys2Proof.Machine.execCrossingRetime f d s
  | .epochDrainDone => Sys2Proof.Machine.execEpochDrainDone s
  | .epochLate => Sys2Proof.Machine.execEpochLate s
  | .batchListWrite p => Sys2Proof.Machine.execBatchListWrite p s
  | .overrun p => Sys2Proof.Machine.execOverrun p s
  | .frameEndSignal u => Sys2Proof.Machine.execFrameEndSignal u s
  | .frameComplete p => Sys2Proof.Machine.execFrameComplete p s
  | .dikewatch p => Sys2Proof.Machine.execDikewatch p s
  | .nop u => Sys2Proof.Machine.execNop u s
  | .fend u => Sys2Proof.Machine.execFend u s
  | .brk u => Sys2Proof.Machine.execBrk u s
  | .pset u => Sys2Proof.Machine.execPset u s
  | .mfsr u => Sys2Proof.Machine.execMfsr u s
  | .mtsr u => Sys2Proof.Machine.execMtsr u s
  | .add u => Sys2Proof.Machine.execAdd u s
  | .sub u => Sys2Proof.Machine.execSub u s
  | .mul u => Sys2Proof.Machine.execMul u s
  | .and u => Sys2Proof.Machine.execAnd u s
  | .or u => Sys2Proof.Machine.execOr u s
  | .xor u => Sys2Proof.Machine.execXor u s
  | .shl u => Sys2Proof.Machine.execShl u s
  | .shr u => Sys2Proof.Machine.execShr u s
  | .sar u => Sys2Proof.Machine.execSar u s
  | .min u => Sys2Proof.Machine.execMin u s
  | .max u => Sys2Proof.Machine.execMax u s
  | .minu u => Sys2Proof.Machine.execMinu u s
  | .maxu u => Sys2Proof.Machine.execMaxu u s
  | .movh u => Sys2Proof.Machine.execMovh u s
  | .scmp u => Sys2Proof.Machine.execScmp u s
  | .lds u => Sys2Proof.Machine.execLds u s
  | .sts u => Sys2Proof.Machine.execSts u s
  | .ldv u => Sys2Proof.Machine.execLdv u s
  | .stv u => Sys2Proof.Machine.execStv u s
  | .vadd u => Sys2Proof.Machine.execVadd u s
  | .vsub u => Sys2Proof.Machine.execVsub u s
  | .vmul u => Sys2Proof.Machine.execVmul u s
  | .vfma u => Sys2Proof.Machine.execVfma u s
  | .vmin u => Sys2Proof.Machine.execVmin u s
  | .vmax u => Sys2Proof.Machine.execVmax u s
  | .vcmp u => Sys2Proof.Machine.execVcmp u s
  | .vsel u => Sys2Proof.Machine.execVsel u s
  | .vbcst u => Sys2Proof.Machine.execVbcst u s
  | .vred u => Sys2Proof.Machine.execVred u s
  | .vperm u => Sys2Proof.Machine.execVperm u s
  | .vcvt u => Sys2Proof.Machine.execVcvt u s
  | .vcvtmx u => Sys2Proof.Machine.execVcvtmx u s
  | .tmma u => Sys2Proof.Machine.execTmma u s
  | .tzero u => Sys2Proof.Machine.execTzero u s
  | .trd u => Sys2Proof.Machine.execTrd u s
  | .twr u => Sys2Proof.Machine.execTwr u s
  | .tout u => Sys2Proof.Machine.execTout u s
  | .qmovin u => Sys2Proof.Machine.execQmovin u s
  | .qmovout u => Sys2Proof.Machine.execQmovout u s
  | .msend u => Sys2Proof.Machine.execMsend u s
  | .mput u => Sys2Proof.Machine.execMput u s
  | .mget u => Sys2Proof.Machine.execMget u s
  | .sync u => Sys2Proof.Machine.execSync u s
  | .wclaim u => Sys2Proof.Machine.execWclaim u s
  | .wdone u => Sys2Proof.Machine.execWdone u s
  | .faultArith u => Sys2Proof.Machine.execFaultArith u s
  | .faultSram u e => Sys2Proof.Machine.execFaultSram u e s
  | .logicFault u => Sys2Proof.Machine.execLogicFault u s
  | .switchFault f prow => Sys2Proof.Machine.execSwitchFault f prow s
  | .livenessProbe f => Sys2Proof.Machine.execLivenessProbe f s
  | .probeTimeout u => Sys2Proof.Machine.execProbeTimeout u s
  | .repairDecision differs other => Sys2Proof.Machine.execRepairDecision differs other s
  | .repairDone unclean => Sys2Proof.Machine.execRepairDone unclean s
  | .seedWrite c => Sys2Proof.Machine.execSeedWrite c s
  | .seedArrival u => Sys2Proof.Machine.execSeedArrival u s
  | .sfuInputEntry u => Sys2Proof.Machine.execSfuInputEntry u s
  | .streamRepetition u d => Sys2Proof.Machine.execStreamRepetition u d s
  | .steeringGroup u e => Sys2Proof.Machine.execSteeringGroup u e s
  | .combiningAdd u => Sys2Proof.Machine.execCombiningAdd u s
  | .reconvStall u e side => Sys2Proof.Machine.execReconvStall u e side s
  | .msg u => Sys2Proof.Machine.execMsg u s
  | .ringToInbox u => Sys2Proof.Machine.execRingToInbox u s
  | .write u => Sys2Proof.Machine.execWrite u s
  | .read u => Sys2Proof.Machine.execRead u s
  | .release h => Sys2Proof.Machine.execRelease h s
  | .wclaimRequest u => Sys2Proof.Machine.execWclaimRequest u s
  | .wdoneRequest u => Sys2Proof.Machine.execWdoneRequest u s
  | .syncAdd f => Sys2Proof.Machine.execSyncAdd f s
  | .syncSub f => Sys2Proof.Machine.execSyncSub f s
  | .syncSet f => Sys2Proof.Machine.execSyncSet f s
  | .syncWaitGe f => Sys2Proof.Machine.execSyncWaitGe f s
  | .syncWaitEq f => Sys2Proof.Machine.execSyncWaitEq f s
  | .dbg u => Sys2Proof.Machine.execDbg u s
  | .dread n ecc => Sys2Proof.Machine.execDread n ecc s
  | .dwrite n ecc => Sys2Proof.Machine.execDwrite n ecc s
  | .ringRequest n ecc => Sys2Proof.Machine.execRingRequest n ecc s
  | .umsg x => Sys2Proof.Machine.execUmsg x s
  | .ack u => Sys2Proof.Machine.execAck u s
  | .rdata d => Sys2Proof.Machine.execRdata d s
  | .wval u => Sys2Proof.Machine.execWval u s
  | .wsat u => Sys2Proof.Machine.execWsat u s
  | .nack u => Sys2Proof.Machine.execNack u s
  | .mcAck u => Sys2Proof.Machine.execMcAck u s
  | .mcNack u => Sys2Proof.Machine.execMcNack u s
  | .mcDrop u => Sys2Proof.Machine.execMcDrop u s
  | .holdIdle u d => Sys2Proof.Machine.execHoldIdle u d s
  | .replyTimer u q => Sys2Proof.Machine.execReplyTimer u q s
  | .resendDelay u q => Sys2Proof.Machine.execResendDelay u q s
  | .meshLinkDown net u l => Sys2Proof.Machine.execMeshLinkDown net u l s
  | .sendBlk u => Sys2Proof.Machine.execSendBlk u s
  | .recvBlk u => Sys2Proof.Machine.execRecvBlk u s
  | .seIteration r => Sys2Proof.Machine.execSeIteration r s
  | .seIterationDone e => Sys2Proof.Machine.execSeIterationDone e s
  | .stagingDone p => Sys2Proof.Machine.execStagingDone p s
  | .refresh n => Sys2Proof.Machine.execRefresh n s
  | .calibrationDue n => Sys2Proof.Machine.execCalibrationDue n s
  | .calLate n => Sys2Proof.Machine.execCalLate n s
  | .patrolScrub n ecc => Sys2Proof.Machine.execPatrolScrub n ecc s
  | .mecTelemetry n t => Sys2Proof.Machine.execMecTelemetry n t s
  | .hostRead fr => Sys2Proof.Machine.execHostRead fr s
  | .hostWrite fr => Sys2Proof.Machine.execHostWrite fr s
  | .ackFrame port header body fec => Sys2Proof.Machine.execAckFrame port header body fec s
  | .replayTimeout port => Sys2Proof.Machine.execReplayTimeout port s
  | .evt => Sys2Proof.Machine.execEvt s
  | .failover port header body fec => Sys2Proof.Machine.execFailover port header body fec s
  | .failoverRepeat port => Sys2Proof.Machine.execFailoverRepeat port s
  | .linkDown port => Sys2Proof.Machine.execLinkDown port s
  | .linkUp port => Sys2Proof.Machine.execLinkUp port s
  | .trainRetry port lanes => Sys2Proof.Machine.execTrainRetry port lanes s
  | .spanEgress p => Sys2Proof.Machine.execSpanEgress p s
  | .spanData p header body fec => Sys2Proof.Machine.execSpanData p header body fec s
  | .spanAck p header payload crc fec => Sys2Proof.Machine.execSpanAck p header payload crc fec s
  | .reach p fr hops wmap => Sys2Proof.Machine.execReach p fr hops wmap s
  | .spanDown p => Sys2Proof.Machine.execSpanDown p s
  | .spanUp p peer peerEn => Sys2Proof.Machine.execSpanUp p peer peerEn s
  | .relayTimeout p egress q => Sys2Proof.Machine.execRelayTimeout p egress q s
  | .polderLoad q => Sys2Proof.Machine.execPolderLoad q s
  | .polderStart q => Sys2Proof.Machine.execPolderStart q s
  | .polderHalt q => Sys2Proof.Machine.execPolderHalt q s
  | .polderResume q => Sys2Proof.Machine.execPolderResume q s
  | .polderReset q => Sys2Proof.Machine.execPolderReset q s
  | .polderRelease q => Sys2Proof.Machine.execPolderRelease q s
  | .polderStage q => Sys2Proof.Machine.execPolderStage q s
  | .polderSwap q => Sys2Proof.Machine.execPolderSwap q s
  | .routeLoad q => Sys2Proof.Machine.execRouteLoad q s
  | .ctxOpen q => Sys2Proof.Machine.execCtxOpen q s
  | .ctxSubmit q => Sys2Proof.Machine.execCtxSubmit q s
  | .ctxPark q => Sys2Proof.Machine.execCtxPark q s
  | .ctxUnpark q => Sys2Proof.Machine.execCtxUnpark q s
  | .ctxPrio q => Sys2Proof.Machine.execCtxPrio q s
  | .ctxClose q => Sys2Proof.Machine.execCtxClose q s
  | .ctxRecord q => Sys2Proof.Machine.execCtxRecord q s
  | .ctxFree q => Sys2Proof.Machine.execCtxFree q s
  | .treatmentEntry => Sys2Proof.Machine.execTreatmentEntry s
  | .sealRecord c => Sys2Proof.Machine.execSeal c s
  | .pwrDomain q differs => Sys2Proof.Machine.execPwrDomain q differs s
  | .pwrCeil q => Sys2Proof.Machine.execPwrCeil q s
  | .pwrHint q => Sys2Proof.Machine.execPwrHint q s
  | .pwrTrust q => Sys2Proof.Machine.execPwrTrust q s
  | .brnRead q => Sys2Proof.Machine.execBrnRead q s
  | .brnClear q => Sys2Proof.Machine.execBrnClear q s
  | .rstUnit q => Sys2Proof.Machine.execRstUnit q s
  | .rstCluster q => Sys2Proof.Machine.execRstCluster q s
  | .rstField q => Sys2Proof.Machine.execRstField q s
  | .fieldResetDiscard f => Sys2Proof.Machine.execFieldResetDiscard f s
  | .rstWafer q => Sys2Proof.Machine.execRstWafer q s
  | .rprImage q => Sys2Proof.Machine.execRprImage q s
  | .rprRestore q => Sys2Proof.Machine.execRprRestore q s
  | .rprFence q => Sys2Proof.Machine.execRprFence q s
  | .rprClear q pass => Sys2Proof.Machine.execRprClear q pass s
  | .rprMapRead q => Sys2Proof.Machine.execRprMapRead q s
  | .calWrite q => Sys2Proof.Machine.execCalWrite q s
  | .calRead q => Sys2Proof.Machine.execCalRead q s
  | .secCertRead q => Sys2Proof.Machine.execSecCertRead q s
  | .secEnrol q => Sys2Proof.Machine.execSecEnrol q s
  | .secFwUpdate q => Sys2Proof.Machine.execSecFwUpdate q s
  | .secFwCommit q => Sys2Proof.Machine.execSecFwCommit q s
  | .secMeasure q => Sys2Proof.Machine.execSecMeasure q s
  | .secJournal q => Sys2Proof.Machine.execSecJournal q s
  | .secKeyRead q => Sys2Proof.Machine.execSecKeyRead q s
  | .spanTable q => Sys2Proof.Machine.execSpanTable q s
  | .spanSluice q => Sys2Proof.Machine.execSpanSluice q s
  | .dbgSnapshot q => Sys2Proof.Machine.execDbgSnapshot q s
  | .sqTail h q v => Sys2Proof.Machine.execSqTail h q v s
  | .cqHead h q v => Sys2Proof.Machine.execCqHead h q v s
  | .mbxLockRead h n => Sys2Proof.Machine.execMbxLockRead h n s
  | .mbxLockWrite h n v => Sys2Proof.Machine.execMbxLockWrite h n v s
  | .mbxSlotWrite h n off data => Sys2Proof.Machine.execMbxSlotWrite h n off data s
  | .mbxSend h n v => Sys2Proof.Machine.execMbxSend h n v s
  | .mbxEmpty n => Sys2Proof.Machine.execMbxEmpty n s
  | .tickPeriodWrite h v => Sys2Proof.Machine.execTickPeriodWrite h v s
  | .tickRunSet h => Sys2Proof.Machine.execTickRunSet h s
  | .tickRunClear h => Sys2Proof.Machine.execTickRunClear h s
  | .memCfgWrite h v => Sys2Proof.Machine.execMemCfgWrite h v s
  | .memTlbInvCtx h c => Sys2Proof.Machine.execMemTlbInvCtx h c s
  | .memTlbInvAll h => Sys2Proof.Machine.execMemTlbInvAll h s
  | .nlCtrlEn h port en => Sys2Proof.Machine.execNlCtrlEn h port en s
  | .nlCtrlRetrain h port => Sys2Proof.Machine.execNlCtrlRetrain h port s
  | .nlModeWrite h v => Sys2Proof.Machine.execNlModeWrite h v s
  | .spanCfgWrite h v => Sys2Proof.Machine.execSpanCfgWrite h v s
  | .spCtrlRetrain h p => Sys2Proof.Machine.execSpCtrlRetrain h p s
  | .pwrCapWrite h v => Sys2Proof.Machine.execPwrCapWrite h v s
  | .secJnlHeadWrite h v => Sys2Proof.Machine.execSecJnlHeadWrite h v s
  | .tagcCfgWrite u n v => Sys2Proof.Machine.execTagcCfgWrite u n v s
  | .wcCtlReset u c => Sys2Proof.Machine.execWcCtlReset u c s
  | .winBaseWrite u b v => Sys2Proof.Machine.execWinBaseWrite u b v s
  | .debugWindowAccess h wr off words data => Sys2Proof.Machine.execDebugWindowAccess h wr off words data s
  | .rcRead h addr size => Sys2Proof.Machine.execRcRead h addr size s
  | .registerWrite h addr size v => Sys2Proof.Machine.execRegisterWrite h addr size v s
  | .jtagDbgAddr v => Sys2Proof.Machine.execJtagDbgAddr v s
  | .jtagDbgData v => Sys2Proof.Machine.execJtagDbgData v s
  | .smbusBlockRead cmd => Sys2Proof.Machine.execSmbusBlockRead cmd s
  | .requestDatagram cmd => Sys2Proof.Machine.execRequestDatagram cmd s
  | .governorTick temps differs => Sys2Proof.Machine.execGovernorTick temps differs s
  | .regulatorReport d mv da => Sys2Proof.Machine.execRegulatorReport d mv da s
  | .regulatorStale d => Sys2Proof.Machine.execRegulatorStale d s
  | .regFault d => Sys2Proof.Machine.execRegFault d s
  | .drainDone f => Sys2Proof.Machine.execDrainDone f s
  | .fieldUp f => Sys2Proof.Machine.execFieldUp f s
  | .thermalRestart f => Sys2Proof.Machine.execThermalRestart f s
  | .thermalTrip => Sys2Proof.Machine.execThermalTrip s
  | .coolantWarn inlet outlet flow => Sys2Proof.Machine.execCoolantWarn inlet outlet flow s
  | .coolantClear => Sys2Proof.Machine.execCoolantClear s
  | .inputLow mv => Sys2Proof.Machine.execInputLow mv s
  | .brownout => Sys2Proof.Machine.execBrownout s
  | .saveCommit => Sys2Proof.Machine.execSaveCommit s
  | .inputOvervoltage => Sys2Proof.Machine.execInputOvervoltage s
  | .aoLockout => Sys2Proof.Machine.execAoLockout s
  | .powerUp => Sys2Proof.Machine.execPowerUp s
  | .resetInput => Sys2Proof.Machine.execResetInput s
  | .stackTraining n ok => Sys2Proof.Machine.execStackTraining n ok s
  | .fcStartTimeout f => Sys2Proof.Machine.execFcStartTimeout f s
  | .bootDone faults => Sys2Proof.Machine.execBootDone faults s
  | .heartbeat => Sys2Proof.Machine.execHeartbeat s
  | .mgcCoreLost m => Sys2Proof.Machine.execMgcCoreLost m s
  | .mgcCoreRestart m => Sys2Proof.Machine.execMgcCoreRestart m s
  | .faultMapWrite ok => Sys2Proof.Machine.execFaultMapWrite ok s
  | .mapWriteRetry ok => Sys2Proof.Machine.execMapWriteRetry ok s
  | .laneTransfer u fab k => Sys2Proof.Machine.execLaneTransfer u fab k s
  | .joinMove u j => Sys2Proof.Machine.execJoinMove u j s
  | .routerHead net h => Sys2Proof.Machine.execRouterHead net h s
  | .tmmaStep u => Sys2Proof.Machine.execTmmaStep u s
  | .queueMoverEntry u out => Sys2Proof.Machine.execQueueMoverEntry u out s
  | .descriptorEntry u d => Sys2Proof.Machine.execDescriptorEntry u d s
  | .ringReply r => Sys2Proof.Machine.execRingReply r s

end Sys2Proof.Machine
end

