-- ==== Sys2Proof/Machine/Idle.lean ====
section
/-! DEFINITION. One base-clock period without a command: clocks and what counts with them (01 R27, 17 R556), the span
ring (13 R441), the end of unit resets (15 R508), and what the management complex does on its own in a boot or a firmware update (15
R493, 16 R534). Readings: log 1, DESIGN CHOICE; log 16, DEDUCED. -/

namespace Sys2Proof.Machine

open Sys2Proof

/-- Tags of the MSGs that core u cannot send or take in this cclk (17 R556): at its injection port, or at its router with inbox and ring
full. -/
def stalledTags (s : State) (u : Nat) (send : Bool) : List Nat :=
  (s.flights.filter (fun f => f.net == .req && f.pkt.op == opMsg &&
    (if send then f.loc == .inject && f.pkt.src == u
     else f.loc == .arrived u && (acceptMsg (getCore s u) { tag := f.pkt.tag, src := f.pkt.src, words := f.pkt.payload }).isNone))).map (fun f => f.pkt.tag % 4096)

/-- The TAGC_STALL counters of core u advance (17 R556). -/
def tagStalled (s : State) (u : Nat) (c : Core) : Core :=
  if c.tagc.all (fun g => !g.getLsbD 12) then c
  else
    let up := stalledTags s u true
    let down := stalledTags s u false
    { c with tagStall := (List.range 16).map (fun i =>
        let g := (c.tagc.getD i 0).toNat
        let x := c.tagStall.getD i {}
        if bitsOf g 12 12 = 1 && (if bitsOf g 13 13 = 1 then up else down).contains (bitsOf g 11 0) then incCnt x else x) }

/-- What counts cclk in the cores of a field whose clock has had an edge. -/
def stallTick (old s : State) : State :=
  { s with cores := s.cores.map (fun e =>
      (e.1, if (getField s (fieldOf e.1)).cclk != (getField old (fieldOf e.1)).cclk then tagStalled s e.1 e.2 else e.2)) }

/-- A step on an empty queue. -/
def idleStep (s : State) : State := bootIdle (fwEnd (resetsEnd (ringPeriod (scrubWatch (stallTick s (idle s))))))

end Sys2Proof.Machine
end

