-- ==== Sys2Proof/Safety.lean ====
section
/-! DEFINITION. The terms in which claims about the block are stated. -/

namespace Sys2Proof.Machine

open Sys2Proof

/-- A command goes on to a state of which P holds. -/
def Answers (o : Out) (P : State → Prop) : Prop := ∃ t, o = .next t ∧ P t

/-- What holds in every state: DRAM is listed in its canonical form, the interleave granule is legal (10 R335), and no tick
period is below 1,000 ns (02 R45). -/
def BlockInv (s : State) : Prop :=
  Memory.wf s.dram = true ∧ s.ilv ≠ 3 ∧ 1000 ≤ s.tick.period.toNat ∧ 1000 ≤ s.tick.cur.toNat

/-- The moves of an owner key slot (16 R531): 0 EMPTY, 1 ACTIVE, 2 REVOKED. -/
def KeySlotMove (a b : BitVec 2) : Prop := a = b ∨ (a = 0 ∧ b = 1) ∨ (a = 1 ∧ b = 2)

/-- The commands that write fuses: owner key slots and the SVN floor (16 R532, R533). -/
def keyCommand : Instr → Bool
  | .secEnrol _ => true
  | .secFwCommit _ => true
  | _ => false

/-- The commands that may change the tick generator: the tick, writes of its registers through any window, and what stops or
resets the wafer, a temperature that trips it among that. -/
def tickCommand : Instr → Bool
  | .waferTick => true
  | .tickPeriodWrite _ _ => true
  | .tickRunSet _ => true
  | .tickRunClear _ => true
  | .hostRead _ => true
  | .hostWrite _ => true
  | .rcRead _ _ _ => true
  | .registerWrite _ _ _ _ => true
  | .jtagDbgAddr _ => true
  | .jtagDbgData _ => true
  | .rstWafer _ => true
  | .resetInput => true
  | .powerUp => true
  | .brownout => true
  | .thermalTrip => true
  | .refresh _ => true
  | .mecTelemetry _ _ => true
  | .governorTick _ _ => true
  | .saveCommit => true
  | .aoLockout => true
  | _ => false

/-- The commands that may write DRAM: accesses that a MEC serves or carries out on the ring, fills and write-backs, commands that copy into a buffer
or the archive, the treatment journal, a repair that moves a unit with write-backs in its port,
and what takes a quadrant or the wafer down. -/
def dramCommand : Instr → Bool
  | .waferTick => true
  | .dread _ _ => true
  | .dwrite _ _ => true
  | .ringRequest _ _ => true
  | .rdata _ => true
  | .hostRead _ => true
  | .hostWrite _ => true
  | .polderLoad _ => true
  | .polderStage _ => true
  | .ctxOpen _ => true
  | .ctxRecord _ => true
  | .treatmentEntry => true
  | .sealRecord _ => true
  | .pwrDomain _ _ => true
  | .brnRead _ => true
  | .rstUnit _ => true
  | .rstCluster _ => true
  | .rstField _ => true
  | .rstWafer _ => true
  | .rprMapRead _ => true
  | .calRead _ => true
  | .secCertRead _ => true
  | .secKeyRead _ => true
  | .dbgSnapshot _ => true
  | .rcRead _ _ _ => true
  | .registerWrite _ _ _ _ => true
  | .jtagDbgAddr _ => true
  | .jtagDbgData _ => true
  | .regFault _ => true
  | .repairDone _ => true
  | .refresh _ => true
  | .mecTelemetry _ _ => true
  | .governorTick _ _ => true
  | .thermalTrip => true
  | .brownout => true
  | .saveCommit => true
  | .aoLockout => true
  | .powerUp => true
  | .resetInput => true
  | .stackTraining _ _ => true
  | .ringReply _ => true
  | _ => false

/-- Core u issues the word w of slot `slot`, of opcode `opc` (04 R142). -/
def Issues (s : State) (u opc slot : Nat) (w : W64) : Prop := isCc u = true ∧ issueSlot s u = some (slot, w) ∧ opcOf w = opc

/-- The core u after issuing the word w with an effect on the core alone. -/
def issued (s : State) (u slot : Nat) (w : W64) (f : Core → Core) : Out := .next (issueWith u slot w (onCore u f) s)

/-- The descriptor at the head of queue q (12 R428). -/
def headCmd (s : State) (q : Nat) : Cmd := descriptor (getQ s q) (getQ s q).sqHead.toNat

/-- Queue q takes a command of opcode `opc` and READY is set (12 R427, 15 R500). -/
def Taken (s : State) (q opc : Nat) : Prop :=
  q < 8 ∧ qReady (getQ s q) = true ∧ (headCmd s q).opc = BitVec.ofNat 8 opc ∧ s.boot.ready = true

/-- The next request of opcode `op` that unit u takes is p, well-formed; no router port answers in the unit's place (07 R255), and its
reply can be injected (07 R247). -/
def Serves (s : State) (u op : Nat) (p : Packet) : Prop :=
  nextReq s u op = some p ∧ portCode s u = none ∧ heldBackReq s u p = false ∧ lenOk p = true

/-- The state in which unit u has answered the request p of opcode `op`, served into s. -/
def answered (u op : Nat) (p : Packet) (good : State → State) (s : State) : State :=
  answer u p good none (orderRisk u p (dropReq u op s))

end Sys2Proof.Machine
end

