-- ==== Sys2Proof/WellFormed.lean ====
section
/-! DEFINITION. When a command is well formed: it names only units, fields, ports, queues and other objects that the
device has (00 R2 to R7, 01 R22, 10 R334, 12 R427, 13 R439, 14 R488). -/

namespace Sys2Proof

open Sys2Proof.Machine

/-- A frame arrives on a port, with as many payload words as WORDS can tell. -/
def frameOk (fr : LinkFrame) : Bool := decide (fr.port < 2) && decide (fr.payload.length < 128)

/-- Does a command name only objects that the device has. -/
def Instr.wf : Instr → Bool
  | .waferTick => true
  | .idleTick => true
  | .crossingRetime f d => decide (f < 64) && (crossingAt f d).isSome
  | .epochDrainDone => true
  | .epochLate => true
  | .batchListWrite p => decide (p < 256)
  | .overrun p => decide (p < 256)
  | .frameEndSignal u => isUnit u
  | .frameComplete p => decide (p < 256)
  | .dikewatch p => decide (p < 256)
  | .nop u => isCc u
  | .fend u => isCc u
  | .brk u => isCc u
  | .pset u => isCc u
  | .mfsr u => isCc u
  | .mtsr u => isCc u
  | .add u => isCc u
  | .sub u => isCc u
  | .mul u => isCc u
  | .and u => isCc u
  | .or u => isCc u
  | .xor u => isCc u
  | .shl u => isCc u
  | .shr u => isCc u
  | .sar u => isCc u
  | .min u => isCc u
  | .max u => isCc u
  | .minu u => isCc u
  | .maxu u => isCc u
  | .movh u => isCc u
  | .scmp u => isCc u
  | .lds u => isCc u
  | .sts u => isCc u
  | .ldv u => isCc u
  | .stv u => isCc u
  | .vadd u => isCc u
  | .vsub u => isCc u
  | .vmul u => isCc u
  | .vfma u => isCc u
  | .vmin u => isCc u
  | .vmax u => isCc u
  | .vcmp u => isCc u
  | .vsel u => isCc u
  | .vbcst u => isCc u
  | .vred u => isCc u
  | .vperm u => isCc u
  | .vcvt u => isCc u
  | .vcvtmx u => isCc u
  | .tmma u => isCc u
  | .tzero u => isCc u
  | .trd u => isCc u
  | .twr u => isCc u
  | .tout u => isCc u
  | .qmovin u => isCc u
  | .qmovout u => isCc u
  | .msend u => isCc u
  | .mput u => isCc u
  | .mget u => isCc u
  | .sync u => isCc u
  | .wclaim u => isCc u
  | .wdone u => isCc u
  | .faultArith u => isCc u
  | .faultSram u e => (isCc u && decide (e.addr < 0xC000)) || (isMu u && decide (e.addr < 4 * bankSize))
  | .logicFault u => isUnit u
  | .switchFault f prow => decide (f < 64) && decide (prow < 100)
  | .livenessProbe f => decide (f < 64)
  | .probeTimeout u => isUnit u
  | .repairDecision _ _ => true
  | .repairDone _ => true
  | .seedWrite c => decide (c < 8192)
  | .seedArrival u => isCc u || isSfu u
  | .sfuInputEntry u => isSfu u
  | .streamRepetition u d => isMu u && decide (d < 8)
  | .steeringGroup u e => isUnit u && decide (e < 4)
  | .combiningAdd u => isUnit u
  | .reconvStall u e side => isUnit u && decide (e < 5) && decide (side < 2)
  | .msg u => isUnit u
  | .ringToInbox u => isCc u
  | .write u => isFc u || isUnit u
  | .read u => isUnit u
  | .release h => isFc h.u || isUnit h.u
  | .wclaimRequest u => isMu u
  | .wdoneRequest u => isMu u
  | .syncAdd f => decide (f < 64)
  | .syncSub f => decide (f < 64)
  | .syncSet f => decide (f < 64)
  | .syncWaitGe f => decide (f < 64)
  | .syncWaitEq f => decide (f < 64)
  | .dbg u => (dbgKind u).isSome
  | .dread n _ => decide (n < 32)
  | .dwrite n _ => decide (n < 32)
  | .ringRequest n _ => decide (n < 32)
  | .umsg x => decide (x < 3)
  | .ack u => isEndpoint u
  | .rdata d => isEndpoint d.u
  | .wval u => isEndpoint u
  | .wsat u => isEndpoint u
  | .nack u => isEndpoint u
  | .mcAck u => isEndpoint u
  | .mcNack u => isEndpoint u
  | .mcDrop u => isUnit u
  | .holdIdle u _ => isFc u || isUnit u
  | .replyTimer u _ => isEndpoint u
  | .resendDelay u _ => isEndpoint u
  | .meshLinkDown _ u _ => isUnit u
  | .sendBlk u => isCc u
  | .recvBlk u => isCc u
  | .seIteration r => decide (r.engine < 512)
  | .seIterationDone e => decide (e < 512)
  | .stagingDone p => decide (p < 256)
  | .refresh n => decide (n < 32)
  | .calibrationDue n => decide (n < 32)
  | .calLate n => decide (n < 32)
  | .patrolScrub n _ => decide (n < 32)
  | .mecTelemetry n _ => decide (n < 32)
  | .hostRead fr => frameOk fr
  | .hostWrite fr => frameOk fr
  | .ackFrame port header body fec => frameOk ⟨port, header, body.payload, body.crc, fec⟩
  | .replayTimeout port => decide (port < 18)
  | .evt => true
  | .failover port header body fec => frameOk ⟨port, header, body.payload, body.crc, fec⟩
  | .failoverRepeat port => decide (port < 2)
  | .linkDown port => decide (port < 2)
  | .linkUp port => decide (port < 2)
  | .trainRetry port _ => decide (port < 18)
  | .spanEgress p => decide (p < 16)
  | .spanData p _ _ _ => decide (p < 16)
  | .spanAck p _ _ _ _ => decide (p < 16)
  | .reach p _ _ _ => decide (p < 16)
  | .spanDown p => decide (p < 16)
  | .spanUp p _ _ => decide (p < 16)
  | .relayTimeout p _ _ => decide (p < 16)
  | .polderLoad q => decide (q < 8)
  | .polderStart q => decide (q < 8)
  | .polderHalt q => decide (q < 8)
  | .polderResume q => decide (q < 8)
  | .polderReset q => decide (q < 8)
  | .polderRelease q => decide (q < 8)
  | .polderStage q => decide (q < 8)
  | .polderSwap q => decide (q < 8)
  | .routeLoad q => decide (q < 8)
  | .ctxOpen q => decide (q < 8)
  | .ctxSubmit q => decide (q < 8)
  | .ctxPark q => decide (q < 8)
  | .ctxUnpark q => decide (q < 8)
  | .ctxPrio q => decide (q < 8)
  | .ctxClose q => decide (q < 8)
  | .ctxRecord q => decide (q < 8)
  | .ctxFree q => decide (q < 8)
  | .treatmentEntry => true
  | .sealRecord c => decide (c < 8192)
  | .pwrDomain q _ => decide (q < 8)
  | .pwrCeil q => decide (q < 8)
  | .pwrHint q => decide (q < 8)
  | .pwrTrust q => decide (q < 8)
  | .brnRead q => decide (q < 8)
  | .brnClear q => decide (q < 8)
  | .rstUnit q => decide (q < 8)
  | .rstCluster q => decide (q < 8)
  | .rstField q => decide (q < 8)
  | .fieldResetDiscard f => decide (f < 64)
  | .rstWafer q => decide (q < 8)
  | .rprImage q => decide (q < 8)
  | .rprRestore q => decide (q < 8)
  | .rprFence q => decide (q < 8)
  | .rprClear q _ => decide (q < 8)
  | .rprMapRead q => decide (q < 8)
  | .calWrite q => decide (q < 8)
  | .calRead q => decide (q < 8)
  | .secCertRead q => decide (q < 8)
  | .secEnrol q => decide (q < 8)
  | .secFwUpdate q => decide (q < 8)
  | .secFwCommit q => decide (q < 8)
  | .secMeasure q => decide (q < 8)
  | .secJournal q => decide (q < 8)
  | .secKeyRead q => decide (q < 8)
  | .spanTable q => decide (q < 8)
  | .spanSluice q => decide (q < 8)
  | .dbgSnapshot q => decide (q < 8)
  | .sqTail _ q _ => decide (q < 8)
  | .cqHead _ q _ => decide (q < 8)
  | .mbxLockRead _ n => decide (n < 64)
  | .mbxLockWrite _ n _ => decide (n < 64)
  | .mbxSlotWrite _ n _ _ => decide (n < 64)
  | .mbxSend _ n _ => decide (n < 64)
  | .mbxEmpty n => decide (n < 64)
  | .tickPeriodWrite _ _ => true
  | .tickRunSet _ => true
  | .tickRunClear _ => true
  | .memCfgWrite _ _ => true
  | .memTlbInvCtx _ c => decide (c < 8192)
  | .memTlbInvAll _ => true
  | .nlCtrlEn _ port _ => decide (port < 2)
  | .nlCtrlRetrain _ port => decide (port < 2)
  | .nlModeWrite _ _ => true
  | .spanCfgWrite _ _ => true
  | .spCtrlRetrain _ p => decide (p < 16)
  | .pwrCapWrite _ _ => true
  | .secJnlHeadWrite _ _ => true
  | .tagcCfgWrite u i _ => isCc u && decide (i < 16)
  | .wcCtlReset u c => isMu u && decide (c < 64)
  | .winBaseWrite u b _ => isMu u && decide (b < 4)
  | .debugWindowAccess h _ _ _ _ => decide (h.port < 3)
  | .rcRead _ _ _ => true
  | .registerWrite _ _ _ _ => true
  | .jtagDbgAddr _ => true
  | .jtagDbgData _ => true
  | .smbusBlockRead cmd => decide (cmd < 256)
  | .requestDatagram cmd => decide (cmd < 256)
  | .governorTick temps _ => temps.all (fun r => decide (r.field < 64) && decide (r.sensor ≤ 16))
  | .regulatorReport d _ _ => decide (d ≤ 101)
  | .regulatorStale d => decide (d ≤ 101)
  | .regFault d => decide (d ≤ 100)
  | .drainDone f => decide (f < 64)
  | .fieldUp f => decide (f < 64)
  | .thermalRestart f => decide (f < 64)
  | .thermalTrip => true
  | .coolantWarn _ _ _ => true
  | .coolantClear => true
  | .inputLow _ => true
  | .brownout => true
  | .saveCommit => true
  | .inputOvervoltage => true
  | .aoLockout => true
  | .powerUp => true
  | .resetInput => true
  | .stackTraining n _ => decide (n < 32)
  | .fcStartTimeout f => decide (f < 64)
  | .bootDone _ => true
  | .heartbeat => true
  | .mgcCoreLost m => decide (m < 2)
  | .mgcCoreRestart m => decide (m < 2)
  | .faultMapWrite _ => true
  | .mapWriteRetry _ => true
  | .laneTransfer u fab k => isUnit u && decide (k < selCount fab)
  | .joinMove u j => isUnit u && decide (j < 4)
  | .routerHead _ h => isFc h.u || isUnit h.u
  | .tmmaStep u => isCc u
  | .queueMoverEntry u _ => isCc u
  | .descriptorEntry u d => isMu u && decide (d < 8)
  | .ringReply r => decide (r.mec < 32)

end Sys2Proof
end

