-- ==== Sys2Proof/Certificates/Slice0/Obligations.lean ====
section
/-! DEFINITION. The statements for the provers. -/

open Sys2Proof Sys2Proof.Machine

/-- For every command c, every rest of the queue and every state s, step of s with c at the front of its queue is exec of c on s with the rest of the queue. (INDEX, the command rows; assumption 1) -/
def Obligations.StepRunsFront : Prop :=
  ∀ (c : Instr) (cs : List Instr) (s : State), step { s with pending := c :: cs } = exec c { s with pending := cs }

/-- The model's choice (log 1, DESIGN CHOICE): on an empty queue a step goes on. Once the boot is done and while no firmware write is under way it leaves a state in which one more base-clock period has passed; beside the fields' clocks, the busy bit of a translation drop, the stall counters of the cores' traffic tags and SCRUB_LATE of a MEC, everything is as before, and in each field listed only the clock's remainder and cclk change. (assumption 1, the model's choice; 01 R27, R28) -/
def Obligations.EmptyQueueIdles : Prop :=
  ∀ s : State, s.pending = [] → ∃ t, step s = .next t ∧ (s.boot.ready = true → s.boot.fwWrite = none → t.now = s.now + 1 ∧
    { t with now := s.now, tlbBusy := s.tlbBusy, fields := s.fields, cores := s.cores, mecs := s.mecs } = s ∧
    t.fields.map (fun e => (e.1, { e.2 with acc := 0, cclk := 0 })) =
      s.fields.map (fun e => (e.1, { e.2 with acc := 0, cclk := 0 })) ∧
    t.cores.map (fun e => (e.1, { e.2 with tagStall := [] })) = s.cores.map (fun e => (e.1, { e.2 with tagStall := [] })) ∧
    ∃ late : Nat × Mec → Bool, t.mecs = s.mecs.map (fun e => (e.1, if late e then { e.2 with flags := setBit e.2.flags 5 } else e.2)))

/-- At reset DRAM is in its canonical form, the interleave granule is legal, and the tick period is at least 1,000 ns. (02 R45, 10 R334, R335) -/
def Obligations.ResetInv : Prop :=
  BlockInv State.reset

/-- For every state in which DRAM is listed in its canonical form, the interleave granule is not the reserved one and no tick period is below 1,000 ns, and every step from it that goes on, the same holds of the next state. (02 R45, 10 R334, R335) -/
def Obligations.StepKeepsInv : Prop :=
  ∀ s t : State, BlockInv s → step s = .next t → BlockInv t

/-- In every step that goes on, each of the four owner key slots stays as it is, or moves from EMPTY to ACTIVE or from ACTIVE to REVOKED, and SVN_MIN does not fall. (16 R531, R532, R535) -/
def Obligations.KeySlotsMove : Prop :=
  ∀ s t : State, step s = .next t →
    (∀ k, k < 4 → KeySlotMove (s.sec.slotState.getD k 0) (t.sec.slotState.getD k 0)) ∧
    s.sec.svnMin.toNat ≤ t.sec.svnMin.toNat

/-- For every step that goes on, the queue of the next state is the queue before it without its first command. (INDEX, the command rows; assumption 1) -/
def Obligations.StepTakesOne : Prop :=
  ∀ s t : State, step s = .next t → t.pending = s.pending.tail

/-- A command other than a wafer tick, a register write, a host read or write, a wafer reset, a power-up, a brownout, a thermal trip, a temperature that may trip it (a governor tick, a refresh, the telemetry of a stack), the end of a save or the loss of the always-on domain leaves the tick period, TICK_COUNT, TICK_TIME and RUN unchanged. (02 R45 to R47) -/
def Obligations.TickGeneratorFrame : Prop :=
  ∀ (i : Instr) (s t : State), tickCommand i = false → exec i s = .next t → t.tick = s.tick

/-- Every command but those that a MEC serves, a fill, a host access, the commands that copy into a buffer, the archive or the journal, a repair that moves a memory unit, and what takes a quadrant, a field or the wafer down leaves every byte of DRAM as it was. (10 R341, R347, R370) -/
def Obligations.DramFrame : Prop :=
  ∀ (i : Instr) (s t : State), dramCommand i = false → exec i s = .next t → ∀ a, rd8 t.dram a = rd8 s.dram a

/-- When core u issues a slot that holds one of them, exec of its command goes on: NOP does nothing of its own; FEND ends the issuing of the core and releases a held path; BRK traps with cause BREAK; PSET sets the predicates of MASK to VALUE; MFSR copies the special register it names to DST, which answers to the read; MTSR writes the special register. The predicate updates and dequeues of the word follow in each. (04 R142, R145, R148, R153, R154, R168) -/
def Obligations.CoreSequencerRuns : Prop :=
  ∀ (s : State) (u slot : Nat) (w : W64),
    (Issues s u 0x01 slot w → exec (.nop u) s = .next (issueWith u slot w (fun s => s) s)) ∧
    (Issues s u 0x02 slot w → exec (.fend u) s = .next (issueWith u slot w (fun s => releaseHeld u (onCore u (fun c => { c with fended := true }) s)) s)) ∧
    (Issues s u 0x03 slot w → exec (.brk u) s = .next (issueWith u slot w (fun s => coreTrap u slot 4 0 s) s)) ∧
    (Issues s u 0x04 slot w → exec (.pset u) s = .next (issueWith u slot w (onCore u (fun c => { c with pred := (c.pred &&& ~~~(BitVec.ofNat 8 (fld w 15 8))) ||| (BitVec.ofNat 8 (fld w 7 0) &&& BitVec.ofNat 8 (fld w 15 8)) })) s)) ∧
    (Issues s u 0x05 slot w → exec (.mfsr u) s = .next (issueWith u slot w (onCore u (fun c => setScalar (sprReadEffect c (fld w 7 0)) (fA w) (BitVec.ofNat 32 ((sprRead s u (fld w 7 0)).getD 0)))) s)) ∧
    (Issues s u 0x06 slot w → exec (.mtsr u) s = .next (issueWith u slot w (onCore u (fun c => sprWrite c (fld w 7 0) (scalarSrc c (fB w)))) s))

/-- When core u issues ADD, SUB, MUL, AND, OR, XOR, SHL, SHR, SAR, MIN, MAX, MINU, MAXU or MOVH, exec of its command goes on and DST takes the result of SA and SB: sum, difference and low product modulo 2^32, bitwise operations, shifts by SB modulo 32, minimum and maximum signed and unsigned, the immediate above the low half of SA. SCMP writes predicate PD with SA COND SB: EQ, NE, signed LT and GE, unsigned LT and GE. DST may be a register, an output queue, or a place that takes nothing. (04 R148, R149, R153) -/
def Obligations.CoreScalarRuns : Prop :=
  ∀ (s : State) (u slot : Nat) (w : W64),
    (Issues s u 0x08 slot w → exec (.add u) s = .next (issueWith u slot w (onCore u (fun c => setScalar c (fA w) (scalarSrc c (fB w) + srcB c w false))) s)) ∧
    (Issues s u 0x09 slot w → exec (.sub u) s = .next (issueWith u slot w (onCore u (fun c => setScalar c (fA w) (scalarSrc c (fB w) - srcB c w false))) s)) ∧
    (Issues s u 0x0A slot w → exec (.mul u) s = .next (issueWith u slot w (onCore u (fun c => setScalar c (fA w) (scalarSrc c (fB w) * srcB c w false))) s)) ∧
    (Issues s u 0x0B slot w → exec (.and u) s = .next (issueWith u slot w (onCore u (fun c => setScalar c (fA w) (scalarSrc c (fB w) &&& srcB c w true))) s)) ∧
    (Issues s u 0x0C slot w → exec (.or u) s = .next (issueWith u slot w (onCore u (fun c => setScalar c (fA w) (scalarSrc c (fB w) ||| srcB c w true))) s)) ∧
    (Issues s u 0x0D slot w → exec (.xor u) s = .next (issueWith u slot w (onCore u (fun c => setScalar c (fA w) (scalarSrc c (fB w) ^^^ srcB c w true))) s)) ∧
    (Issues s u 0x0E slot w → exec (.shl u) s = .next (issueWith u slot w (onCore u (fun c => setScalar c (fA w) (scalarSrc c (fB w) <<< ((srcB c w true).toNat % 32)))) s)) ∧
    (Issues s u 0x0F slot w → exec (.shr u) s = .next (issueWith u slot w (onCore u (fun c => setScalar c (fA w) (scalarSrc c (fB w) >>> ((srcB c w true).toNat % 32)))) s)) ∧
    (Issues s u 0x10 slot w → exec (.sar u) s = .next (issueWith u slot w (onCore u (fun c => setScalar c (fA w) ((scalarSrc c (fB w)).sshiftRight ((srcB c w true).toNat % 32)))) s)) ∧
    (Issues s u 0x11 slot w → exec (.min u) s = .next (issueWith u slot w (onCore u (fun c => setScalar c (fA w) (if (srcB c w false).slt (scalarSrc c (fB w)) then srcB c w false else scalarSrc c (fB w)))) s)) ∧
    (Issues s u 0x12 slot w → exec (.max u) s = .next (issueWith u slot w (onCore u (fun c => setScalar c (fA w) (if (scalarSrc c (fB w)).slt (srcB c w false) then srcB c w false else scalarSrc c (fB w)))) s)) ∧
    (Issues s u 0x13 slot w → exec (.minu u) s = .next (issueWith u slot w (onCore u (fun c => setScalar c (fA w) (if (srcB c w false).ult (scalarSrc c (fB w)) then srcB c w false else scalarSrc c (fB w)))) s)) ∧
    (Issues s u 0x14 slot w → exec (.maxu u) s = .next (issueWith u slot w (onCore u (fun c => setScalar c (fA w) (if (scalarSrc c (fB w)).ult (srcB c w false) then srcB c w false else scalarSrc c (fB w)))) s)) ∧
    (Issues s u 0x15 slot w → exec (.movh u) s = .next (issueWith u slot w (onCore u (fun c => setScalar c (fA w) ((srcB c w true <<< 16) ||| (scalarSrc c (fB w) &&& 0x0000FFFF)))) s)) ∧
    (Issues s u 0x16 slot w → exec (.scmp u) s = .next (issueWith u slot w (onCore u (fun c => setPred c (fld w 28 26)
      (let a := scalarSrc c (fB w)
       let b := srcB c w false
       let k := fld w 25 23
       if k = 0 then a == b else if k = 1 then a != b else if k = 2 then a.slt b else if k = 3 then !(a.slt b)
       else if k = 4 then a.ult b else !(a.ult b)))) s))

/-- When core u issues LDS, STS, LDV or STV and the access at s_b plus the sign-extended offset, modulo 2^32, draws no trap, exec goes on: a load writes DATA with the 4 or 64 bytes there, a store writes them from DATA. Where the access draws a trap (ALIGN, ADDR, and RING for a store), the core traps with that cause and address. (04 R141, R153) -/
def Obligations.CoreMemoryRuns : Prop :=
  ∀ (s : State) (u slot : Nat) (w : W64),
    let c := getCore s u
    let a := memAddr c w
    (Issues s u 0x18 slot w → accessTrap c a 4 4 false = none →
      exec (.lds u) s = .next (issueWith u slot w (onCore u (fun c => setScalar c (fA w) (BitVec.ofNat 32 (rdLe c.sram a 4)))) s)) ∧
    (Issues s u 0x19 slot w → accessTrap c a 4 4 true = none →
      exec (.sts u) s = .next (issueWith u slot w (onCore u (fun c =>
        { c with sram := wrLe c.sram a 4 (scalarSrc c (fA w)).toNat })) s)) ∧
    (Issues s u 0x1A slot w → accessTrap c a 64 64 false = none →
      exec (.ldv u) s = .next (issueWith u slot w (onCore u (fun c => setVector c (fA w) (bytes512 (rdN c.sram a 64)))) s)) ∧
    (Issues s u 0x1B slot w → accessTrap c a 64 64 true = none →
      exec (.stv u) s = .next (issueWith u slot w (onCore u (fun c =>
        { c with sram := wrLe c.sram a 64 (vectorSrc c (fA w)).toNat })) s)) ∧
    (∀ (cause addr : Nat),
      (Issues s u 0x18 slot w → accessTrap c a 4 4 false = some (cause, addr) →
        exec (.lds u) s = .next (issueWith u slot w (coreTrap u slot cause addr) s)) ∧
      (Issues s u 0x19 slot w → accessTrap c a 4 4 true = some (cause, addr) →
        exec (.sts u) s = .next (issueWith u slot w (coreTrap u slot cause addr) s)) ∧
      (Issues s u 0x1A slot w → accessTrap c a 64 64 false = some (cause, addr) →
        exec (.ldv u) s = .next (issueWith u slot w (coreTrap u slot cause addr) s)) ∧
      (Issues s u 0x1B slot w → accessTrap c a 64 64 true = some (cause, addr) →
        exec (.stv u) s = .next (issueWith u slot w (coreTrap u slot cause addr) s)))

/-- When core u issues VADD, VSUB, VMUL, VMIN, VMAX or VFMA, exec goes on: lane i of VD takes the FP32 operation on lanes i of its sources, and AFLAGS takes the flags of all lanes. VCMP writes scalar VD with bit i the comparison of lanes i; VSEL takes lane i of VA where bit i of scalar VC is 1 and else of VB; VBCST puts scalar VA in every lane; VRED writes scalar VD with the sum or maximum of the 16 lanes by the fixed tree; VPERM takes for lane i of VD the lane of VA that bits [3:0] of lane i of VB name. (03 R107, 04 R153) -/
def Obligations.CoreVectorRuns : Prop :=
  ∀ (s : State) (u slot : Nat) (w : W64),
    (Issues s u 0x20 slot w → exec (.vadd u) s = .next (issueWith u slot w (onCore u (fun c => let r := (List.range 16).map (fun i => fadd (lane (vectorSrc c (fB w)) i) (lane (vectorSrc c (fC w)) i))
        setVector (setAflags c (r.foldl (fun f x => f ||| x.2) 0)) (fA w) (ofLanes (r.map (·.1))))) s)) ∧
    (Issues s u 0x21 slot w → exec (.vsub u) s = .next (issueWith u slot w (onCore u (fun c => let r := (List.range 16).map (fun i => fsub (lane (vectorSrc c (fB w)) i) (lane (vectorSrc c (fC w)) i))
        setVector (setAflags c (r.foldl (fun f x => f ||| x.2) 0)) (fA w) (ofLanes (r.map (·.1))))) s)) ∧
    (Issues s u 0x22 slot w → exec (.vmul u) s = .next (issueWith u slot w (onCore u (fun c => let r := (List.range 16).map (fun i => fmul (lane (vectorSrc c (fB w)) i) (lane (vectorSrc c (fC w)) i))
        setVector (setAflags c (r.foldl (fun f x => f ||| x.2) 0)) (fA w) (ofLanes (r.map (·.1))))) s)) ∧
    (Issues s u 0x23 slot w → exec (.vfma u) s = .next (issueWith u slot w (onCore u (fun c => let r := (List.range 16).map (fun i =>
          ffma (lane (vectorSrc c (fB w)) i) (lane (vectorSrc c (fC w)) i) (lane (vectorSrc c (fD w)) i))
        setVector (setAflags c (r.foldl (fun f x => f ||| x.2) 0)) (fA w) (ofLanes (r.map (·.1))))) s)) ∧
    (Issues s u 0x24 slot w → exec (.vmin u) s = .next (issueWith u slot w (onCore u (fun c => let r := (List.range 16).map (fun i => fmin (lane (vectorSrc c (fB w)) i) (lane (vectorSrc c (fC w)) i))
        setVector (setAflags c (r.foldl (fun f x => f ||| x.2) 0)) (fA w) (ofLanes (r.map (·.1))))) s)) ∧
    (Issues s u 0x25 slot w → exec (.vmax u) s = .next (issueWith u slot w (onCore u (fun c => let r := (List.range 16).map (fun i => fmax (lane (vectorSrc c (fB w)) i) (lane (vectorSrc c (fC w)) i))
        setVector (setAflags c (r.foldl (fun f x => f ||| x.2) 0)) (fA w) (ofLanes (r.map (·.1))))) s)) ∧
    (Issues s u 0x26 slot w → exec (.vcmp u) s = .next (issueWith u slot w (onCore u (fun c => let r := (List.range 16).map (fun i => fcmp (fld w 4 0) (lane (vectorSrc c (fB w)) i) (lane (vectorSrc c (fC w)) i))
        setScalar (setAflags c (r.foldl (fun f x => f ||| x.2) 0)) (fA w) (BitVec.ofNat 32 (packBits 1 (r.map (fun x => b2n x.1)))))) s)) ∧
    (Issues s u 0x27 slot w → exec (.vsel u) s = .next (issueWith u slot w (onCore u (fun c => setVector c (fA w) (ofLanes ((List.range 16).map (fun i =>
        if (scalarSrc c (fD w)).getLsbD i then lane (vectorSrc c (fB w)) i else lane (vectorSrc c (fC w)) i))))) s)) ∧
    (Issues s u 0x28 slot w → exec (.vbcst u) s = .next (issueWith u slot w (onCore u (fun c => setVector c (fA w) (ofLanes (List.replicate 16 (scalarSrc c (fB w)))))) s)) ∧
    (Issues s u 0x29 slot w → exec (.vred u) s = .next (issueWith u slot w (onCore u (fun c => let r := treeReduce (if fld w 4 0 = 0 then fadd else fmax) 4 ((List.range 16).map (lane (vectorSrc c (fB w))))
        setScalar (setAflags c r.2) (fA w) r.1)) s)) ∧
    (Issues s u 0x2A slot w → exec (.vperm u) s = .next (issueWith u slot w (onCore u (fun c => setVector c (fA w) (ofLanes ((List.range 16).map (fun i =>
        lane (vectorSrc c (fB w)) ((lane (vectorSrc c (fC w)) i).toNat % 16)))))) s))

/-- The reduction of sixteen values takes lanes (2i, 2i + 1) first and then pairs of those results in ascending order: it is the joining of the reductions of the lower and the upper eight lanes, each the joining of its two fours, each of its two pairs. The flags of all fifteen operations are joined. (04 R155) -/
def Obligations.VredTree : Prop :=
  ∀ (f : W32 → W32 → W32 × Fl) (a b c d e g h i j k l m n o p q : W32),
    let join := fun (x y : W32 × Fl) => ((f x.1 y.1).1, x.2 ||| y.2 ||| (f x.1 y.1).2)
    let four := fun (x y z t : W32) => join (join (x, 0) (y, 0)) (join (z, 0) (t, 0))
    treeReduce f 4 [a, b, c, d, e, g, h, i, j, k, l, m, n, o, p, q] =
      join (join (four a b c d) (four e g h i)) (join (four j k l m) (four n o p q))

/-- When core u issues TMMA and its count and addresses draw no trap, exec goes on: with CLR set bank ACC is set to +0, and with a count other than 0 the TMMA of the word and its registers enters the datapath. TZERO sets bank ACC to +0. TRD: lane 8r + j of VD takes cell (2Q + r, j) of bank ACC, and TWR writes VA into the same quarter. TOUT writes the bank as four entries to its output queue (DK = 0), or its 256 bytes to local SRAM (DK = 1) where the access draws no trap. Where one is drawn, TMMA and TOUT trap. (04 R153, R158 to R160) -/
def Obligations.CoreTensorRuns : Prop :=
  ∀ (s : State) (u slot : Nat) (w : W64),
    let c := getCore s u
    (Issues s u 0x30 slot w → tmmaTrap (tmmaOf c w) = none → exec (.tmma u) s = .next (issueWith u slot w (fun s => setCore s u
      (let c := if fld w 26 26 = 1 then { c with acc := c.acc.set (fld w 28 27) (List.replicate 64 0) } else c
       if (tmmaOf c w).k = 0 then c else { c with tensor := c.tensor ++ [tmmaOf c w] })) s)) ∧
    (Issues s u 0x31 slot w → exec (.tzero u) s = .next (issueWith u slot w (onCore u (fun c =>
      { c with acc := c.acc.set (fld w 28 27) (List.replicate 64 0) })) s)) ∧
    (Issues s u 0x32 slot w → exec (.trd u) s = .next (issueWith u slot w (onCore u (fun c =>
      setVector c (fA w) (ofLanes (((c.acc.getD (fld w 22 21) []).drop (16 * fld w 20 19)).take 16)))) s)) ∧
    (Issues s u 0x33 slot w → exec (.twr u) s = .next (issueWith u slot w (onCore u (fun c =>
      let bank := c.acc.getD (fld w 22 21) []
      let bank' := bank.take (16 * fld w 20 19) ++ lanes (vectorSrc c (fA w)) ++ bank.drop (16 * fld w 20 19 + 16)
      { c with acc := c.acc.set (fld w 22 21) bank' })) s)) ∧
    (Issues s u 0x34 slot w → fld w 18 18 = 0 → exec (.tout u) s = .next (issueWith u slot w (fun s => setCore s u
      ((List.range 4).foldl (fun c' i => setVector c' (0x30 + fld w 17 13)
        (ofLanes (((c.acc.getD (fld w 22 21) []).drop (16 * i)).take 16))) c)) s)) ∧
    (Issues s u 0x34 slot w → fld w 18 18 = 1 → accessTrap c (c.s.getD (fld w 17 13) 0).toNat 256 64 true = none →
      exec (.tout u) s = .next (issueWith u slot w (fun s => setCore s u
        (let bs := (c.acc.getD (fld w 22 21) []).flatMap (fun x => toLe 4 x.toNat)
         { c with sram := wrN c.sram (c.s.getD (fld w 17 13) 0).toNat bs })) s)) ∧
    (∀ cause addr : Nat,
      (Issues s u 0x30 slot w → tmmaTrap (tmmaOf c w) = some (cause, addr) →
        exec (.tmma u) s = .next (issueWith u slot w (coreTrap u slot cause addr) s)) ∧
      (Issues s u 0x34 slot w → fld w 18 18 = 1 → accessTrap c (c.s.getD (fld w 17 13) 0).toNat 256 64 true = some (cause, addr) →
        exec (.tout u) s = .next (issueWith u slot w (coreTrap u slot cause addr) s)))

/-- Where the oldest TMMA of core u has its operand bytes (all of them in local SRAM, or as many as the step needs in its queue) and the engines of the core run, TMMA_STEP goes on: the step takes what it needs from the stream, writes each of the 64 cells of bank ACC with its accumulation, adds the flags of all cells to AFLAGS and counts; the core notes the bank it wrote; after its last step the TMMA leaves the datapath. A core whose datapath holds none, or whose operands are not there, stays as it is. (03 R97 to R105, 04 R136, R158) -/
def Obligations.TmmaStepRuns : Prop :=
  ∀ (s : State) (u : Nat) (t : Tmma) (ts : List Tmma), isCc u = true → (getCore s u).tensor = t :: ts →
    (enginesRun s u = true → stepReady (getCore s u) t = true →
      (let r := takePiece (getCore s u) t
       let cells := (List.range 64).map (fun n => stepCell r.1 r.2 (n / 8) (n % 8))
       let c := setAflags { r.1 with acc := r.1.acc.set r.2.acc (cells.map (·.1)) } (cells.foldl (fun f x => f ||| x.2) 0)
       let t' := { r.2 with done := r.2.done + 1 }
       exec (.tmmaStep u) s = .next (setCore s u { c with stepBank := some r.2.acc, tensor := if stepsLeft t' = 0 then ts else t' :: ts }))) ∧
    (stepReady (getCore s u) t = false → exec (.tmmaStep u) s = .next s)

/-- The accumulation of INT8 products adds them exactly to the accumulator read as INT32. A sum within the INT32 range is written as it is with no flag; one above 2,147,483,647 or below -2,147,483,648 saturates to that bound and sets IOV alone. (03 R105) -/
def Obligations.Int8Accumulate : Prop :=
  ∀ (acc : W32) (l : List Int),
    let t := acc.toInt + l.sum
    (-2147483648 ≤ t → t ≤ 2147483647 → (accumulateInt acc l).1.toInt = t ∧ (accumulateInt acc l).2 = 0) ∧
    (2147483647 < t → accumulateInt acc l = (0x7FFFFFFF, 0x40)) ∧
    (t < -2147483648 → accumulateInt acc l = (0x80000000, 0x40))

/-- A conversion to E4M3 saturates, whatever E5SAT holds and whatever the rounding. A value whose rounded magnitude exceeds 448, including an infinity, becomes 448 or -448, with the sign kept, and sets SAT. NaN becomes 0x7F, setting NV for a signalling NaN and only for one. (03 R110) -/
def Obligations.NarrowE4M3 : Prop :=
  ∀ (e5 : Bool) (r : Option Nat) (x : W32),
    (∀ (n : Bool) (m : Nat) (e : Int), rd32 x = .fin n m e →
      magGt (roundMag e4m3 m e r).n (roundMag e4m3 m e r).q 448 0 = true →
      (narrow e5 0 r x).1 = 128 * b2n n + 0x7E ∧ (narrow e5 0 r x).2.getLsbD 5 = true) ∧
    (∀ n : Bool, rd32 x = .inf n → (narrow e5 0 r x).1 = 128 * b2n n + 0x7E ∧ (narrow e5 0 r x).2.getLsbD 5 = true) ∧
    (∀ sig : Bool, rd32 x = .nan sig → (narrow e5 0 r x).1 = 0x7F ∧ (narrow e5 0 r x).2.getLsbD 0 = sig)

/-- Where E5SAT is clear, a value whose rounded magnitude exceeds 57,344 becomes infinity with its sign and sets OF. Where E5SAT is set, such a value, and an infinity, become 57,344 or -57,344 and set SAT. NaN becomes 0x7E. (03 R111) -/
def Obligations.NarrowE5M2 : Prop :=
  ∀ (r : Option Nat) (x : W32),
    (∀ (n : Bool) (m : Nat) (e : Int), rd32 x = .fin n m e →
      magGt (roundMag e5m2 m e r).n (roundMag e5m2 m e r).q 57344 0 = true →
      (narrow false 1 r x).1 = 128 * b2n n + 0x7C ∧ (narrow false 1 r x).2.getLsbD 2 = true ∧
      (narrow true 1 r x).1 = 128 * b2n n + 0x7B ∧ (narrow true 1 r x).2.getLsbD 5 = true) ∧
    (∀ n : Bool, rd32 x = .inf n → (narrow false 1 r x).1 = 128 * b2n n + 0x7C ∧
      (narrow true 1 r x).1 = 128 * b2n n + 0x7B ∧ (narrow true 1 r x).2.getLsbD 5 = true) ∧
    (∀ sig e5 : Bool, rd32 x = .nan sig → (narrow e5 1 r x).1 = 0x7E)

/-- When core u issues VCVT rounding to nearest, exec goes on: from FP32 each of the 16 lanes is narrowed to the format TO, from INT32 to INT8 each lane is saturated, else each element is widened to FP32 under the scale of SB; VD takes the packed results, its unused bits zero, and AFLAGS the flags of all. VCVTMX rounding to nearest writes the block elements of the 32 lanes of VA and VA + 1 packed to VD and the scale byte to SD. Under stochastic rounding the conversion draws its random words; while the seed of SR_CTX is still to arrive it is held. (03 R109 to R113, 04 R156) -/
def Obligations.CoreConvertRuns : Prop :=
  ∀ (s : State) (u slot : Nat) (w : W64),
    (Issues s u 0x2B slot w → fld w 8 8 = 0 → fld w 16 13 = 15 → exec (.vcvt u) s = .next (issueWith u slot w (onCore u (fun c =>
      let r := (List.range 16).map (fun i => narrow c.e5sat (fld w 12 9) none (BitVec.ofNat 32 (bitsOf (vectorSrc c (fB w)).toNat (32 * i + 31) (32 * i))))
      setVector (setAflags c (r.foldr (fun x f => x.2 ||| f) 0 ||| 0)) (fA w)
        (BitVec.ofNat 512 (packBits (codeBits (fld w 12 9)) (r.map (·.1)))))) s)) ∧
    (Issues s u 0x2B slot w → fld w 16 13 ≠ 15 → fld w 12 9 = 9 → exec (.vcvt u) s = .next (issueWith u slot w (onCore u (fun c =>
      let b := codeBits (fld w 16 13)
      let r := (List.range 16).map (fun i => int32to8 (BitVec.ofNat 32 (bitsOf (vectorSrc c (fB w)).toNat (b * i + b - 1) (b * i))))
      setVector (setAflags c (r.foldr (fun x f => x.2 ||| f) 0 ||| 0)) (fA w)
        (BitVec.ofNat 512 (packBits 8 (r.map (·.1)))))) s)) ∧
    (Issues s u 0x2B slot w → fld w 16 13 ≠ 15 → fld w 12 9 ≠ 9 → exec (.vcvt u) s = .next (issueWith u slot w (onCore u (fun c =>
      let b := codeBits (fld w 16 13)
      let r := (List.range 16).map (fun i => widen c.ftz8 (fld w 16 13)
        (bitsOf (vectorSrc c (fB w)).toNat (b * i + b - 1) (b * i)) ((scalarSrc c (fld w 7 2)).toNat % 256))
      setVector (setAflags c (r.foldr (fun x f => x.2 ||| f) 0 ||| 0)) (fA w)
        (BitVec.ofNat 512 (packBits (codeBits (fld w 12 9)) (r.map (fun x => x.1.toNat)))))) s)) ∧
    (Issues s u 0x2B slot w → fld w 8 8 = 1 → fld w 16 13 = 15 → (getCore s u).srSet = true → (getCore s u).srValid = false →
      exec (.vcvt u) s = .next (issueWith u slot w (fun s => setCore s u { getCore s u with
        conv := some { word := w, src := [vectorSrc (getCore s u) (fB w)], scale := (scalarSrc (getCore s u) (fld w 7 2)).toNat % 256 } }) s)) ∧
    (Issues s u 0x2B slot w → fld w 8 8 = 1 → fld w 16 13 = 15 → ((getCore s u).srSet = true → (getCore s u).srValid = true) →
      exec (.vcvt u) s = .next (issueWith u slot w (fun s => setCore s u
        (vcvtWith u w (vectorSrc (getCore s u) (fB w)) ((scalarSrc (getCore s u) (fld w 7 2)).toNat % 256) (getCore s u))) s)) ∧
    (Issues s u 0x2C slot w → fld w 6 6 = 0 → exec (.vcvtmx u) s = .next (issueWith u slot w (onCore u (fun c =>
      let r := toMx (fld w 10 7) [] (lanes (vectorSrc c (fB w)) ++ lanes (vectorSrc c (fB w + 1)))
      setScalar (setVector (setAflags c (r.2.2 ||| 0)) (fA w) (BitVec.ofNat 512 (packBits (codeBits (fld w 10 7)) r.1))) (fC w)
        (BitVec.ofNat 32 r.2.1))) s)) ∧
    (Issues s u 0x2C slot w → fld w 6 6 = 1 → (getCore s u).srSet = true → (getCore s u).srValid = false →
      exec (.vcvtmx u) s = .next (issueWith u slot w (fun s => setCore s u { getCore s u with
        conv := some { word := w, src := [vectorSrc (getCore s u) (fB w), vectorSrc (getCore s u) (fB w + 1)], scale := 0 } }) s)) ∧
    (Issues s u 0x2C slot w → fld w 6 6 = 1 → ((getCore s u).srSet = true → (getCore s u).srValid = true) →
      exec (.vcvtmx u) s = .next (issueWith u slot w (fun s => setCore s u
        (vcvtmxWith u w [vectorSrc (getCore s u) (fB w), vectorSrc (getCore s u) (fB w + 1)] (getCore s u))) s))

/-- SEED_ARRIVAL at a core that has written SR_CTX and awaits its seed goes on: the core takes the seed of that context from the seed table of its field, VALID is set, and a conversion held for it is done with the operands it read at issue. At an SFU that fetches a seed, SVALID is set with the seed of its context. (03 R113, R116) -/
def Obligations.SeedArrives : Prop :=
  ∀ (s : State) (u : Nat),
    (isCc u = true → (getCore s u).srSet = true → (getCore s u).srValid = false →
      exec (.seedArrival u) s = .next (setCore s u
        (convResume u { getCore s u with srValid := true, seed := mget 0 (getField s (fieldOf u)).seeds (getCore s u).srCtx }))) ∧
    (isSfu u = true → isCc u = false → (getSfu s u).sfetch = true →
      exec (.seedArrival u) s = .next (setSfu s u { getSfu s u with
        svalid := true, sfetch := false, seed := mget 0 (getField s (fieldOf u)).seeds (getSfu s u).sctx }))

/-- When core u issues QMOVIN or QMOVOUT and count and address draw no trap, exec goes on with the mover set to its queue, address and count; where one is drawn, the core traps. While the core is live, QUEUE_MOVER_ENTRY goes on: the inbound mover takes 64 bytes of its queue in arrival order to its address, the outbound mover sends the 64 bytes at its address as an entry; the address and the count move on by 64, and the mover is done when its last entry has moved. With too few bytes in the queue, or four places of it taken or held for results still to come, it waits. (04 R136, R161) -/
def Obligations.MoversRun : Prop :=
  ∀ (s : State) (u slot : Nat) (w : W64),
    let c := getCore s u
    let m := moverOf c w
    (Issues s u 0x36 slot w → moverTrap c m.addr m.left true = none →
      exec (.qmovin u) s = .next (issueWith u slot w (fun s => setCore s u { c with inMover := some m }) s)) ∧
    (Issues s u 0x37 slot w → moverTrap c m.addr m.left false = none →
      exec (.qmovout u) s = .next (issueWith u slot w (fun s => setCore s u { c with outMover := some m }) s)) ∧
    (∀ cause addr : Nat,
      (Issues s u 0x36 slot w → moverTrap c m.addr m.left true = some (cause, addr) →
        exec (.qmovin u) s = .next (issueWith u slot w (coreTrap u slot cause addr) s)) ∧
      (Issues s u 0x37 slot w → moverTrap c m.addr m.left false = some (cause, addr) →
        exec (.qmovout u) s = .next (issueWith u slot w (coreTrap u slot cause addr) s))) ∧
    (∀ k : Mover, isCc u = true → enginesRun s u = true →
      let next := if k.left ≤ 64 then none else some { k with addr := k.addr + 64, left := k.left - 64 }
      (c.inMover = some k → 64 ≤ streamAvail (qAt c.iq k.q) →
        let r := streamTake 64 64 (qAt c.iq k.q)
        exec (.queueMoverEntry u false) s = .next (setCore s u
          { setAflags { c with iq := lset c.iq k.q r.2.1, sram := wrN c.sram k.addr r.1 } (entFlags r.2.2) with inMover := next })) ∧
      (c.inMover = some k → streamAvail (qAt c.iq k.q) < 64 → exec (.queueMoverEntry u false) s = .next s) ∧
      (c.outMover = some k → (qAt c.oq k.q).ents.length + heldPlaces s u k.q < 4 → exec (.queueMoverEntry u true) s = .next (setCore s u
        { setVector c (0x30 + k.q) (bytes512 (rdN c.sram k.addr 64)) with outMover := next })) ∧
      (c.outMover = some k → 4 ≤ (qAt c.oq k.q).ents.length + heldPlaces s u k.q → exec (.queueMoverEntry u true) s = .next s))

/-- When core u issues MSEND, SYNC, WCLAIM or WDONE, or MPUT or MGET whose count and local address draw no trap, exec goes on with the packet of the instruction sent: destination, opcode, tag, length, word address, context and payload from the word and its operands, and for all but MSEND an outstanding request that will complete it. A unicast MPUT with H = 0 or to another destination than the held path first releases that path. MPUT and MGET that draw a trap trap and send nothing. (04 R162 to R164, 07 R252, R253, R275) -/
def Obligations.CoreMeshRuns : Prop :=
  ∀ (s : State) (u slot : Nat) (w : W64),
    let c := getCore s u
    let dst := (c.s.getD (fld w 28 24) 0).toNat
    let a := (c.s.getD (fld w 18 14) 0).toNat
    let n := (c.s.getD (fld w 13 9) 0).toNat
    let daddr := (c.s.getD (fld w 23 19) 0).toNat % 2 ^ 20
    let pd := fun (pw p : Nat) => if pw = 1 then some p else none
    (Issues s u 0x38 slot w → exec (.msend u) s = .next (issueWith u slot w (requestOnly u
      { src := u, dest := dst % 2 ^ 20, op := opMsg, tag := fld w 23 12, len := fld w 5 4, ctx := c.srCtx,
        payload := bytesWords (fld w 5 4 + 1) (toLe 64 (vectorSrc c (fld w 11 6)).toNat) }) s)) ∧
    (Issues s u 0x39 slot w → bitsOf dst 31 31 = 0 → meshTrap c a n 256 false = none →
      exec (.mput u) s = .next (issueWith u slot w (fun s => request u
        { src := u, dest := dst % 2 ^ 20, op := opWrite, len := n / 8 - 1, hold := decide (fld w 8 8 = 1), daddr := daddr, ctx := c.srCtx,
          payload := bytesWords (n / 8) (rdN c.sram a n) } (.put (pd (fld w 4 4) (fld w 7 5)))
        (holdFor u (dst % 2 ^ 20) (decide (fld w 8 8 = 1)) s)) s)) ∧
    (Issues s u 0x39 slot w → bitsOf dst 31 31 = 1 → meshTrap c a n 248 false = none →
      let g := groupOfUnit s u (bitsOf dst 25 20)
      exec (.mput u) s = .next (issueWith u slot w (fun s => request u
        { src := u, dest := unitAt (bitsOf g.toNat 9 0) (bitsOf g.toNat 19 10), op := opWrite, len := n / 8, mcast := true,
          daddr := daddr, ctx := c.srCtx, arg := bitsOf dst 25 20, payload := extentWord g :: bytesWords (n / 8) (rdN c.sram a n) }
        (.mput (List.range (groupRows g)) [] [] none (pd (fld w 4 4) (fld w 7 5))) (holdFor u 0 false s)) s)) ∧
    (Issues s u 0x3A slot w → meshTrap c a n 256 true = none →
      exec (.mget u) s = .next (issueWith u slot w (request u
        { src := u, dest := dst % 2 ^ 20, op := opRead, len := n / 8 - 1, daddr := daddr, ctx := c.srCtx, arg := a / 8 }
        (.get a (pd (fld w 4 4) (fld w 7 5)))) s)) ∧
    (Issues s u 0x3B slot w → exec (.sync u) s = .next (issueWith u slot w (request u
      (syncPacket u ((scalarSrc c (fld w 25 20)).toNat % 2 ^ 16) (scalarSrc c (fld w 19 14)).toNat (fld w 28 26) c.srCtx)
      (.sync (decide (fld w 28 26 ≥ 3)) (pd (fld w 10 10) (fld w 13 11)))) s)) ∧
    (Issues s u 0x3C slot w → exec (.wclaim u) s = .next (issueWith u slot w (request u
      { src := u, dest := (scalarSrc c (fB w)).toNat % 2 ^ 20, op := opWclaim, ctx := c.srCtx, payload := [BitVec.ofNat 64 (fC w)] }
      (.claim (fA w) (pd (fld w 7 7) (fld w 10 8)))) s)) ∧
    (Issues s u 0x3D slot w → exec (.wdone u) s = .next (issueWith u slot w (request u
      { src := u, dest := (scalarSrc c (fB w)).toNat % 2 ^ 20, op := opWdone, ctx := c.srCtx,
        payload := [BitVec.ofNat 64 (fC w + 2 ^ 32 * (scalarSrc c (fld w 5 0)).toNat)] }
      (.done (pd (fld w 7 7) (fld w 10 8)))) s)) ∧
    (∀ cause addr : Nat,
      (Issues s u 0x39 slot w → meshTrap c a n (if bitsOf dst 31 31 = 1 then 248 else 256) false = some (cause, addr) →
        exec (.mput u) s = .next (issueWith u slot w (coreTrap u slot cause addr) s)) ∧
      (Issues s u 0x3A slot w → meshTrap c a n 256 true = some (cause, addr) →
        exec (.mget u) s = .next (issueWith u slot w (coreTrap u slot cause addr) s)))

/-- The slot that issues is a slot of the core that is ready while no lower-numbered slot is; and a core that may issue has a slot that issues if any of its slots is ready. A core that has executed FEND or holds a trap issues nothing. (04 R142) -/
def Obligations.LowestReadySlotIssues : Prop :=
  ∀ (s : State) (u : Nat),
    (∀ (n : Nat) (w : W64), issueSlot s u = some (n, w) → (getCore s u).cfg.slots[n]? = some w ∧ slotReady s u w = true ∧
      ∀ (m : Nat) (x : W64), m < n → (getCore s u).cfg.slots[m]? = some x → slotReady s u x = false) ∧
    (coreLive s u = true → (∃ (m : Nat) (x : W64), (getCore s u).cfg.slots[m]? = some x ∧ slotReady s u x = true) → ∃ n w, issueSlot s u = some (n, w)) ∧
    ((getCore s u).fended = true ∨ (getCore s u).trapCause ≠ 0 → issueSlot s u = none)

/-- For every command in which core u issues an instruction, does a TMMA step or moves a queue entry, and every state it goes on to: every other core and every other mesh interface is as before; DRAM, fields, polders, contexts, sync objects, memory units, SFUs, switches, routers, and every register of the module beside the event log are as before. (04 R142, R148) -/
def Obligations.CoreFrame : Prop :=
  ∀ (s t : State) (u : Nat) (i : Instr),
    i ∈ [.nop u, .fend u, .brk u, .pset u, .mfsr u, .mtsr u, .add u, .sub u, .mul u, .and u, .or u, .xor u, .shl u,
      .shr u, .sar u, .min u, .max u, .minu u, .maxu u, .movh u, .scmp u, .lds u, .sts u, .ldv u, .stv u, .vadd u,
      .vsub u, .vmul u, .vfma u, .vmin u, .vmax u, .vcmp u, .vsel u, .vbcst u, .vred u, .vperm u, .vcvt u, .vcvtmx
      u, .tmma u, .tzero u, .trd u, .twr u, .tout u, .qmovin u, .qmovout u, .msend u, .mput u, .mget u, .sync u,
      .wclaim u, .wdone u, .tmmaStep u,
      .queueMoverEntry u false, .queueMoverEntry u true] →
    exec i s = .next t →
    (∀ v, v ≠ u → getCore t v = getCore s v ∧ getMif t v = getMif s v) ∧
    { t.host with log := s.host.log, nextEvt := s.host.nextEvt, evtLost := s.host.evtLost } = s.host ∧
    { t with cores := s.cores, mifs := s.mifs, flights := s.flights, host := s.host } = s

/-- When core u issues a scalar instruction with a result, every scalar register but DST keeps its value; vector registers, accumulators, local SRAM, special registers, trap and spill ring registers and engines are as before. Predicates change by the updates of the word alone; an input queue loses its head where DQ names it, and then alone AFLAGS may gain the flags that came with it; the inbox loses its head where DQ names it; an output queue gains an entry only where DST names it. (04 R148, R153) -/
def Obligations.CoreScalarFrame : Prop :=
  ∀ (s t : State) (u slot op : Nat) (w : W64) (i : Instr),
    (op, i) ∈ [(0x08, .add u), (0x09, .sub u), (0x0A, .mul u), (0x0B, .and u), (0x0C, .or u), (0x0D, .xor u), (0x0E, .shl u),
      (0x0F, .shr u), (0x10, .sar u), (0x11, .min u), (0x12, .max u), (0x13, .minu u), (0x14, .maxu u), (0x15, .movh
      u)] →
    Issues s u op slot w → exec i s = .next t →
    let c := getCore s u
    let k := getCore t u
    (∀ n, n ≠ fA w → k.s.getD n 0 = c.s.getD n 0) ∧
    k.pred = (predUpdates w c).pred ∧
    (∀ q, q < 4 → fld w (29 + q) (29 + q) = 0 → k.iq.getD q {} = c.iq.getD q {}) ∧
    (∀ q, q < 4 → fA w ≠ 0x30 + q → k.oq.getD q {} = c.oq.getD q {}) ∧
    (fld w 32 29 = 0 → k.aflags = c.aflags) ∧
    (fld w 33 33 = 0 → k.inbox = c.inbox) ∧
    { c with s := k.s, pred := k.pred, iq := k.iq, oq := k.oq, aflags := k.aflags, afCnt := k.afCnt, inbox := k.inbox,
             trcSent := k.trcSent, trcDrops := k.trcDrops, trcSeq := k.trcSeq, trcDropped := k.trcDropped } = k

/-- When core u issues LDS or LDV, every byte of its local SRAM reads as before, trap or no trap. When it issues STS or STV, every byte outside the 4 or 64 bytes from s_b + offset reads as before, and none changes where the store traps. Scalar and vector registers keep their values: all of them for a store, all but DATA for a load. (04 R141, R153) -/
def Obligations.CoreMemoryFrame : Prop :=
  ∀ (s t : State) (u slot op n : Nat) (w : W64) (i : Instr),
    (op, n, i) ∈ [(0x18, 4, .lds u), (0x19, 4, .sts u), (0x1A, 64, .ldv u), (0x1B, 64, .stv u)] →
    Issues s u op slot w → exec i s = .next t →
    let c := getCore s u
    let k := getCore t u
    (op = 0x18 ∨ op = 0x1A → ∀ a, rd8 k.sram a = rd8 c.sram a) ∧
    (op = 0x19 ∨ op = 0x1B → k.s = c.s ∧ k.v = c.v ∧
      ∀ a, a < memAddr c w ∨ memAddr c w + n ≤ a → rd8 k.sram a = rd8 c.sram a) ∧
    (accessTrap c (memAddr c w) n n (op == 0x19 || op == 0x1B) ≠ none → k.sram = c.sram ∧ k.s = c.s ∧ k.v = c.v) ∧
    (op = 0x18 → k.v = c.v ∧ ∀ j, j ≠ fA w → k.s.getD j 0 = c.s.getD j 0) ∧
    (op = 0x1A → k.s = c.s ∧ ∀ j, j ≠ fA w → k.v.getD j 0 = c.v.getD j 0)

/-- When core u issues BRK, exec goes on to a state in which TRAP holds cause BREAK and the slot, TRAP_ADDR is 0, every engine of the core is empty and no request of its program is outstanding, the core is fenced no more than it was, and it issues nothing more. Where the event log has room, CORE_TRAP with the unit, the cause and the slot is logged. (04 R153, R165 to R167, 17 R560) -/
def Obligations.CoreTrapEntry : Prop :=
  ∀ (s : State) (u slot : Nat) (w : W64), Issues s u 0x03 slot w →
    ∃ t, exec (.brk u) s = .next t ∧
      (let k := getCore t u
       k.trapCause = 4 ∧ k.trapSlot = BitVec.ofNat 8 slot ∧ k.trapAddr = 0 ∧ k.tensor = [] ∧ k.inMover = none ∧ k.outMover = none ∧
       k.conv = none ∧ k.fenced = (getCore s u).fenced) ∧
      coreOut (getMif t u) = 0 ∧ issueSlot t u = none ∧
      (s.host.log.length < 4096 → ∃ e, t.host.log[s.host.log.length]? = some e ∧ e.code = 0x35 ∧ e.unit = some (BitVec.ofNat 20 u) ∧
        e.arg = BitVec.ofNat 64 (4 + 2 ^ 8 * slot))

/-- While any polder is RUNNING, a write to TICK_PERIOD, and a write that clears TICK_CTRL.RUN, completes with status STATE and has no effect. (02 R47) -/
def Obligations.TickPeriodWhileRunning : Prop :=
  ∀ (s : State) (h : Req) (v : W32) (p : Nat), (∃ x, (p, x) ∈ s.polders ∧ x.state = 2) →
    exec (.tickPeriodWrite h v) s = .next (complete h 1 [] s) ∧
    (s.tick.run = true → exec (.tickRunClear h) s = .next (complete h 1 [] s))

/-- While no polder is RUNNING a write of TICK_PERIOD completes with OK: the period reads back as the value written, or as 1,000 where it is below that, and waits for the next wafer tick. A write that sets RUN completes with OK whatever runs, once the boot is done (before READY it answers BUSY: log 43, DEDUCED, the model's reading), and one that clears it completes with OK while no polder is RUNNING. (02 R45 to R49) -/
def Obligations.TickRegisters : Prop :=
  ∀ (s : State) (h : Req) (v : W32),
    (anyRunning s = false → ∃ t, exec (.tickPeriodWrite h v) s = .next (complete h 0 [] t) ∧
      { t with tick := s.tick } = s ∧ { t.tick with period := s.tick.period, pendingP := s.tick.pendingP } = s.tick ∧
      t.tick.pendingP = true ∧ regWord t 0x10000 % 2 ^ 32 = max (v.toNat % 2 ^ 26) 1000) ∧
    (s.boot.ready = true → exec (.tickRunSet h) s = .next (complete h 0 [] { s with tick := { s.tick with run := true } })) ∧
    (s.boot.ready = false → exec (.tickRunSet h) s = .next (complete h 3 [] s)) ∧
    (anyRunning s = false → exec (.tickRunClear h) s = .next (complete h 0 [] { s with tick := { s.tick with run := false } }))

/-- While RUN is 1, WAFER_TICK goes on to a state in which TICK_COUNT is one more, a period that was waiting is the one in force and none waits, and RUN and TICK_PERIOD are as before; while RUN is 0 it changes nothing. IDLE_TICK always goes on, and leaves TICK_COUNT, TICK_TIME, the periods and RUN as they are. (02 R45 to R48) -/
def Obligations.WaferTickCounts : Prop :=
  ∀ s : State,
    (s.tick.run = true → ∃ t, exec .waferTick s = .next t ∧ t.tick.count = s.tick.count + 1 ∧ t.tick.pendingP = false ∧
      t.tick.cur = (if s.tick.pendingP then s.tick.period else s.tick.cur) ∧ t.tick.run = true ∧ t.tick.period = s.tick.period) ∧
    (s.tick.run = false → exec .waferTick s = .next s) ∧
    (∃ t, exec .idleTick s = .next t ∧ t.tick = s.tick)

/-- The contexts selected for a frame of a polder are READY contexts bound to it, no more than its largest batch, and none comes before another that has a smaller PRIO, or the same and an earlier tick of becoming READY, or both the same and a smaller number. (02 R84) -/
def Obligations.BatchOrder : Prop :=
  ∀ (s : State) (p : Nat),
    (selectBatch s p).length ≤ (getPolder s p).maxBatch.toNat ∧
    (∀ c ∈ selectBatch s p, ∃ x, (c, x) ∈ s.ctxs ∧ x.state = 2 ∧ x.polder.toNat = p) ∧
    (selectBatch s p).Pairwise (fun a b =>
      let x := getCtx s a
      let y := getCtx s b
      x.prio.toNat < y.prio.toNat ∨
        (x.prio = y.prio ∧ (x.readyTick < y.readyTick ∨ (x.readyTick = y.readyTick ∧ a ≤ b))))

/-- At a unit of a running frame that has not signalled, is not fenced and stands on a present row, FRAME_END_SIGNAL goes on with the unit ended: a core once FEND has issued, its output queues are empty and nothing it requested is outstanding; an SFU once every descriptor has its entries and its output queues are empty; an MU once its descriptors are done, nothing it owes is outstanding and no writable window holds a dirty line, and while one does it first writes its dirty lines back. (02 R52, 04 R154, 05 R182, R195, R200) -/
def Obligations.FrameEndSignals : Prop :=
  ∀ (s : State) (u : Nat), isUnit u = true → unitRuns s u = true → unitEnded s u = false → unitFenced s u = false → rowAbsent s u = false →
    (isCc u = true → coreEnds s u = true →
      exec (.frameEndSignal u) s = .next (trace u 3 0 [] (setCore s u { getCore s u with ended := true }))) ∧
    (isMu u = true → isCc u = false → muEnds s u = true → (muWr (getMu s u) && muDirty (getMu s u)) = false →
      exec (.frameEndSignal u) s = .next (setMu s u { getMu s u with ended := true, flush := false })) ∧
    (isMu u = true → isCc u = false → muEnds s u = true → muWr (getMu s u) = true → muDirty (getMu s u) = true →
      exec (.frameEndSignal u) s = .next (modMu (flushBanks u (fun b => bankMode (getMu s u) b == 2 && winWr (getMu s u) b) s) u
        (fun m => { m with flush := true }))) ∧
    (isMu u = false → isCc u = false → sfuEnds (getSfu s u) = true →
      exec (.frameEndSignal u) s = .next (setSfu s u { getSfu s u with ended := true }))

/-- Where every unit of a RUNNING polder has signalled, every mesh write has its reply and the budget holds, FRAME_COMPLETE goes on: the polder has no frame, PST_LAST takes the cycle count, the next frame may start at the deadline or the next tick, whichever is later; each context of the batch has one frame more run and one fewer left, its position advanced by ADV and saturating, and is PARKED where a park was pending, OPEN where no frame is left, else READY; every other context is as before. Where a POLDER_HALT was taken the polder is HALTED, with cause 1, or with the first abrupt cause where one fell due in the mclk of the POLDER_HALT. (02 R53, R58, R73, R80) -/
def Obligations.FrameCompletes : Prop :=
  ∀ (s : State) (p : Nat) (f : Frame), p < 256 → (getPolder s p).frame = some f → (getPolder s p).state = 2 →
    overBudget s p = false → frameDone s p = true →
    ∃ t, exec (.frameComplete p) s = .next t ∧ (getPolder t p).frame = none ∧
      (getPolder t p).last = BitVec.ofNat 32 (min (frameCycles s f) 0xFFFFFFFF) ∧
      (getPolder t p).nextTick = max f.deadline (s.tick.count.toNat + 1) ∧
      ((getPolder s p).halting = true → (getPolder t p).state = 3 ∧
        ((getPolder s p).abrupt = [] ∨ (getPolder s p).hostAt ≠ none → (getPolder t p).cause = 1) ∧
        (∀ c l, (getPolder s p).abrupt = c :: l → (getPolder s p).hostAt = none → (getPolder t p).cause = c)) ∧
      ((getPolder s p).halting = false → (getPolder t p).state = 2) ∧
      (∀ c, c ∉ batchCtxs f → getCtx t c = getCtx s c) ∧
      ((batchCtxs f).Nodup → ∀ c ∈ batchCtxs f,
        let x := getCtx s c
        let y := getCtx t c
        y.frames = x.frames + 1 ∧ y.left = x.left - 1 ∧ y.pos.toNat = min (x.pos.toNat + x.adv.toNat) 0xFFFFFFFF ∧
          y.state = (if x.parkPend then 4 else if x.left = 1 then 1 else 2))

/-- Where a field has run more cclk of the frame in progress than the budget and no BUDGET cause is recorded, OVERRUN goes on with OVR_BUDGET set and the cause recorded in the frame, and PST_FAILED advances exactly where no cause was recorded before. Where the dikewatch of a halted frame has fired, and the record that it keeps, if any, is one of that frame, DIKEWATCH goes on: PST takes that record, or else one of the present state; it is valid with a cause from 1 to 5 and TIMEOUT among its causes, DIKEWATCH is set in PST_FLAGS, DW_COUNT advances, and the frame is lost with each context of its batch PARKED. (02 R55, R57, 08 R307 to R309) -/
def Obligations.OverrunAndDikewatch : Prop :=
  ∀ (s : State) (p : Nat) (f : Frame), p < 256 →
    ((getPolder s p).frame = some f → (getPolder s p).budget.toNat < frameCycles s f → f.causes.getLsbD 0 = false →
      ∃ t, exec (.overrun p) s = .next t ∧ (getPolder t p).flags = (getPolder s p).flags ||| 1 ∧
        (getPolder t p).frame = some { f with causes := f.causes ||| 1 } ∧
        (getPolder t p).failed = (if f.causes = 0 then incCnt (getPolder s p).failed else (getPolder s p).failed)) ∧
    ((getPolder s p).await = some f → f.dikewatched = true →
      (f.dwRec = none ∨ ∃ s' f', f'.num = f.num ∧ f.dwRec = some (dwRecord s' p f')) →
      ∃ t, exec (.dikewatch p) s = .next t ∧ (getPolder t p).await = none ∧ (getPolder t p).dw = f.dwRec.getD (dwRecord s p f) ∧ (getPolder t p).dw.valid = true ∧
        1 ≤ (getPolder t p).dw.cause.toNat ∧ (getPolder t p).dw.cause.toNat ≤ 5 ∧ (getPolder t p).dw.causes.getLsbD 4 = true ∧
        (getPolder t p).dw.frame = f.num ∧ (getPolder t p).flags.getLsbD 2 = true ∧
        (getPolder t p).dwCount = incCnt (getPolder s p).dwCount ∧ ∀ c ∈ batchCtxs f, (getCtx t c).state = 4)

/-- While a frame has a batch list to come and none of it is outstanding, BATCH_LIST_WRITE goes on with one WRITE request of the management complex for each 256-byte block that the list reaches: frame number, count, and for each context its number, frames left and position. That the low 3 bits of the list's offset count for nothing is the model's choice (log 48, DESIGN CHOICE). (02 R82, R87) -/
def Obligations.BatchListWritten : Prop :=
  ∀ (s : State) (p : Nat) (f : Frame) (c : PolderCfg), p < 256 → (getPolder s p).frame = some f → (getPolder s p).cfg = some c →
    f.listed = false → (getMif s mgcId).outst.any (fun o => o.use == .mgcList p f.num.toNat) = false →
    let bs := toLe 8 f.num.toNat ++ toLe 2 f.batch.length ++ zeros 6 ++
      f.batch.flatMap (fun e => toLe 8 (e.ctx + 2 ^ 16 * e.left.toNat + 2 ^ 32 * e.pos.toNat))
    exec (.batchListWrite p) s = .next ((blockParts (bs.length / 8 + 1) (c.batchOff / 8 * 8) (bytesWords (bs.length / 8) bs)).foldl (fun s q =>
      request mgcId { src := mgcId, dest := c.batchMu, op := opWrite, len := q.2.length - 1, daddr := q.1 / 8, payload := q.2 }
        (.mgcList p f.num.toNat) s) s)

/-- EPOCH_DRAIN_DONE goes on in every state: with the drain complete where an epoch drains, its 64 us have not passed and no router holds a packet of VC1 to VC3, and with nothing changed in every other; EPOCH_LATE goes on in every state: with the drain expired where an epoch drains and is not complete, and with nothing changed in every other. What a tick does for the epoch: an armed change starts to drain; a drain that is complete or has expired flips EPOCH, counts the change, frees every held output and path, and is LATE exactly where its 64 us had passed, which logs EPOCH_LATE where the log has room. (07 R267, R268) -/
def Obligations.RouteEpochSteps : Prop :=
  ∀ s : State,
    (s.epoch.draining = true → s.epoch.expired = false → routersHold s = false →
      exec .epochDrainDone s = .next { s with epoch := { s.epoch with drained := true } }) ∧
    (s.epoch.draining = false ∨ s.epoch.expired = true ∨ routersHold s = true → exec .epochDrainDone s = .next s) ∧
    (s.epoch.draining = true → s.epoch.drained = false →
      exec .epochLate s = .next { s with epoch := { s.epoch with expired := true } }) ∧
    (s.epoch.draining = false ∨ s.epoch.drained = true → exec .epochLate s = .next s) ∧
    (s.epoch.draining = false → s.epoch.armed = true →
      epochTick s = { s with epoch := { s.epoch with draining := true, drained := false, expired := false } }) ∧
    (s.epoch.draining = true → s.epoch.drained = false → s.epoch.expired = false → epochTick s = s) ∧
    (s.epoch.draining = true → (s.epoch.drained = true ∨ s.epoch.expired = true) →
      let t := epochTick s
      t.epoch.epoch = !s.epoch.epoch ∧ t.epoch.draining = false ∧ t.epoch.armed = false ∧ t.epoch.changes = s.epoch.changes + 1 ∧
      t.epoch.late = s.epoch.expired ∧ (∀ u, (getRouter t u).heldOut = [] ∧ (getMif t u).held = none) ∧
      (s.epoch.expired = true → s.host.log.length < 4096 →
        ∃ e, t.host.log[s.host.log.length]? = some e ∧ e.code = 0x24))

/-- ROUTER_HEAD goes on with the first head of the router that can move, the turns advanced and the corrected errors of its link counted, or with no head moved where none can; then a multicast row whose targets have all answered is answered. RELEASE goes on with the RELEASE packet moved and the corrected errors of its link counted, or in place while it cannot. A packet that leaves router u to its neighbour v is answered at v where the dike port refuses it and v has room for the reply, waits where v has none, and is discarded where it gets no reply; a packet that is not refused stands at v as soon as the input buffer, the output and the crossing are free. A dike port refuses no reply, no packet to a unit of another polder and none that is already inside; it answers TARGET_RESET while its polder is RESETTING, lets fixed endpoints and units of its polder pass, and answers DIKE_DENY to a unit of a polder outside the admitted set. (07 R257 to R259, R271, R242, 02 R66, R67) -/
def Obligations.RouterMovesHeads : Prop :=
  ∀ (s : State) (net : Net) (u : Nat), isUnit u = true →
    (∀ (ce : Nat) m s', moveHead net u (fun p => p.op != opRelease) s = some (m, s') →
      exec (.routerHead net ⟨u, ce⟩) s = .next (mcSettle (linkError u m ce (nextTurn net u m s')))) ∧
    (∀ ce : Nat, moveHead net u (fun p => p.op != opRelease) s = none → exec (.routerHead net ⟨u, ce⟩) s = .next (mcSettle s)) ∧
    (∀ (ce : Nat) f, s.flights.find? (fun f => f.net == .req && f.pkt.op == opRelease && routerOf s f == some u) = some f →
      (∀ s', releaseHop u f s = some s' → exec (.release ⟨u, ce⟩) s = .next (linkError u (outputOf s u f, 3, inputOf f) ce s')) ∧
      (releaseHop u f s = none → exec (.release ⟨u, ce⟩) s = .next s)) ∧
    (∀ (m : Nat × Nat × Nat) (ce : Nat) (t : State) (v : Nat), linkEnd u m = some v →
      ((getRouter (linkError u m ce t) v).linkCe).toNat = min ((getRouter t v).linkCe.toNat + ce) 0xFFFF) ∧
    (∀ (d : Dir) (v : Nat) (f : Flight) (p : Packet), neighbour u d = some v →
      (∀ code, dikeCode s f.net u v p = some code →
        (p.op = opRelease ∨ p.killed = true → leaveBy u d f p s = some (dropFlight f s)) ∧
        (p.op ≠ opRelease → p.killed = false → answerRoom s v p.vc = true →
          leaveBy u d f p s = some (routerReply v (replyTo p v opNack 0 0 code []) (dropFlight f s))) ∧
        (p.op ≠ opRelease → p.killed = false → answerRoom s v p.vc = false → leaveBy u d f p s = none)) ∧
      (dikeCode s f.net u v p = none → placeFree s f.net (.router v (.side (dirOpp d))) p.vc (flitsOf p) = true →
        heldFree s f.net u (.side d) p = true → crossingOpen s u v (dirBit d) = true → forwards s (fieldOf v) = true →
        leaveBy u d f p s = some (holdPass u (.side d) p (place f.net (.router v (.side (dirOpp d))) p (dropFlight f s))))) ∧
    (∀ (v q : Nat) (p : Packet), ownerOf s v = some q →
      dikeCode s .rpl u v p = none ∧
      (ownerOf s p.dest ≠ some q ∨ ownerOf s u = some q → dikeCode s .req u v p = none) ∧
      (ownerOf s p.dest = some q → ownerOf s u ≠ some q →
        ((getPolder s q).state = 4 → dikeCode s .req u v p = some nkReset) ∧
        ((getPolder s q).state ≠ 4 → isFixed p.src = true ∨ (ownerOf s p.src = some q ∧ (getPolder s q).cfg ≠ none) → dikeCode s .req u v p = none) ∧
        (∀ o c, (getPolder s q).state ≠ 4 → isFixed p.src = false → ownerOf s p.src = some o → o ≠ q → (getPolder s q).cfg = some c →
          dikeCode s .req u v p = if c.admitted.getLsbD o then none else some nkDike)))

/-- Where ROUTER_HEAD moves a head for an output of the router, that head is a packet of the named net at this router that asks for this output, on the channel and from the input that it answers; and where a head of VC0 that asks for this output can move, the head moved is one of VC0. (07 R258) -/
def Obligations.Vc0GoesFirst : Prop :=
  ∀ (s s' : State) (net : Net) (u o vc i : Nat), moveHead net u (fun p => p.op != opRelease) s = some ((o, vc, i), s') →
    (∃ f ∈ s.flights, f.net = net ∧ f.pkt.vc = vc ∧ outputOf s u f = o ∧ inputOf f = i ∧ routerOf s f = some u ∧ tryHead u f s = some s') ∧
    ((∃ f ∈ s.flights, f.net = net ∧ f.pkt.op ≠ opRelease ∧ f.pkt.vc = 0 ∧ outputOf s u f = o ∧ routerOf s f = some u ∧ inputOf f < 11 ∧
      tryHead u f s ≠ none) → vc = 0)

/-- HOLD_IDLE goes on with the held output freed and HOLD_IDLE set. MESH_LINK_DOWN goes on, after the end of the packets that the failure cuts, one in each VC at most, with the link down at both ends, LINK_FAIL set, an output held on it freed, and new route tables due. MC_DROP goes on with the oldest waiting replica taken out, RT_MC_DROPS advanced, MC_DROP set, and an MC_NACK owed for each row it would have covered, of which one leaves where its router has room for it. SEND_BLK and RECV_BLK go on with the bit set of a core whose message waits at its port, or whose inbox and ring have no room for a message. (07 R271, R277, R279, R290) -/
def Obligations.HeldPathsLinksAndWaits : Prop :=
  ∀ (s : State) (u : Nat), isUnit u = true →
    (∀ (d : Port) (o : Nat), (d, o) ∈ (getRouter s u).heldOut → exec (.holdIdle u d) s = .next (setRouter s u
        (let r := getRouter s u
         { r with heldOut := r.heldOut.filter (fun h => h.1 != d), flags := r.flags ||| 0x10 }))) ∧
    (∀ (net : Net) (d : Dir) (cut : BitVec 4), linkDown s net u d = false →
      let t := forEach [0, 1, 2, 3] (fun vc t => if cut.getLsbD vc then cutHead net u d vc t else t) s
      let r := linkGone net u d t
      exec (.meshLinkDown net u ⟨d, cut⟩) s = .next (armDown r) ∧
      linkDown r net u d = true ∧ (getRouter r u).flags.getLsbD 0 = true ∧
      (net = .req → ∀ h ∈ (getRouter r u).heldOut, h.1 ≠ .side d) ∧
      (∀ v, neighbour u d = some v → linkDown r net v (dirOpp d) = true ∧ (getRouter r v).flags.getLsbD 0 = true)) ∧
    (∀ f, s.flights.find? (fun f => match f.loc with | .replica v _ => v == u | _ => false) = some f →
      exec (.mcDrop u) s = .next (mcSettle (dropRows u f.pkt (if f.loc = .replica u .s then span (unitY u + 1) (mcY1 f.pkt) else [unitY u])
        (if f.loc = .replica u .s then 0 else unitX u + 1)
        (modRouter (dropFlight f s) u (fun r => { r with mcDrops := incCnt r.mcDrops, flags := r.flags ||| 8 }))))) ∧
    (isCc u = true → s.flights.any (fun f => f.loc == .inject && f.pkt.src == u && f.pkt.op == opMsg) = true →
      exec (.sendBlk u) s = .next (setMif s u { getMif s u with sendBlk := true })) ∧
    (∀ p, isCc u = true → nextReq s u opMsg = some p →
      acceptMsg (getCore s u) { tag := p.tag, src := p.src, words := p.payload } = none →
      exec (.recvBlk u) s = .next (setMif s u { getMif s u with recvBlk := true }))

/-- LANE_TRANSFER goes on with what the sink moves where its polder is live, its field up and the switches of its row whole: an output lane puts the head of its source in the skid buffer of the neighbour where that lane is named, open and not full and no sync slot is on; a CTL or SCL queue takes the head as an entry while it holds fewer than eight; a VEC queue adds it to the entry that is arriving; the source gives it up once every sink that names it has it. JOIN_MOVE moves both heads at once where both sides hold one and both outputs are free. COMBINING_ADD emits the four FP32 sums of the heads of lane 0 where one lane is in use, with the flags of both, and records NV and OF. STEERING_GROUP in a select with groups of one moves the head of the input that the token names and drops the token. CROSSING_RETIME raises ready again. (06 R217 to R238, 01 R29 to R31) -/
def Obligations.FabricMoves : Prop :=
  ∀ (s : State) (u : Nat), isUnit u = true →
    (∀ (fab : Fab) (k v : Nat) (x : Xfer), selLive s u fab k = true → k < (if fab = .ctl then 16 else 8) →
      let d := k / laneWays fab
      let i := laneWays fab * oppN d + k % laneWays fab
      let code := sourceOf (getSw s u).word fab k
      srcHead s u fab code = some x → neighbour u (dirOf d) = some v → notTaken (getSw s u) fab code k = true →
      laneActive s u v fab k i = true → (namers (getSw s v).word fab (1 + i)).isEmpty = false → crossingOpen s u v d = true →
      switchWorks s v = true → (skid (getSw s v) fab i).length < 4 → (fab ≠ .ctl → syncSlot s u d = false) →
      exec (.laneTransfer u fab k) s = .next (modSw (srcTake u fab code k s) v (skidPut fab i x))) ∧
    (∀ (q : Nat) (x : Xfer), q < 4 → unitFenced s u = false →
      (selLive s u .vec (8 + 2 * q) = true → srcHead s u .vec (sourceOf (getSw s u).word .vec (8 + 2 * q)) = some x →
        notTaken (getSw s u) .vec (sourceOf (getSw s u).word .vec (8 + 2 * q)) (8 + 2 * q) = true →
        iqRoom (twoIn (getSw s u).word q) (qAt (unitIqs s u) q) 0 = true →
        exec (.laneTransfer u .vec (8 + 2 * q)) s = .next (modIq u q (iqTake (twoIn (getSw s u).word q) 0 x)
          (srcTake u .vec (sourceOf (getSw s u).word .vec (8 + 2 * q)) (8 + 2 * q) s))) ∧
      (selLive s u .scl (8 + q) = true → srcHead s u .scl (sourceOf (getSw s u).word .scl (8 + q)) = some x →
        notTaken (getSw s u) .scl (sourceOf (getSw s u).word .scl (8 + q)) (8 + q) = true → (qAt (unitIqs s u) q).ents.length < 8 →
        exec (.laneTransfer u .scl (8 + q)) s = .next (modIq u q (fun t => { t with ents := t.ents ++ [{ bits := x.bits.zeroExtend 512 }] })
          (srcTake u .scl (sourceOf (getSw s u).word .scl (8 + q)) (8 + q) s))) ∧
      (selLive s u .ctl (16 + q) = true → srcHead s u .ctl (sourceOf (getSw s u).word .ctl (16 + q)) = some x →
        notTaken (getSw s u) .ctl (sourceOf (getSw s u).word .ctl (16 + q)) (16 + q) = true → (qAt (unitIqs s u) q).ents.length < 8 →
        exec (.laneTransfer u .ctl (16 + q)) s = .next (modIq u q (fun t => { t with ents := t.ents ++ [{ bits := x.bits.zeroExtend 512 }] })
          (srcTake u .ctl (sourceOf (getSw s u).word .ctl (16 + q)) (16 + q) s)))) ∧
    (elemLive s u = true →
      (∀ (j : Nat) (a b : Xfer) (as bs : List Xfer), j < 4 → elemOn (getSw s u).word j = true →
        (getSw s u).joins.getD j {} = { f0 := a :: as, f1 := b :: bs } → (getSw s u).joins.length = 4 →
        ∃ t, exec (.joinMove u j) s = .next t ∧ (getSw t u).joins.getD j {} = { f0 := as, f1 := bs, o0 := some a, o1 := some b } ∧
          { t with switches := s.switches } = s) ∧
      (∀ (a b : Xfer) (as bs : List Xfer), elemOn (getSw s u).word 4 = true →
        (selCode (getSw s u).word .vec 25 = 0 ∨ selCode (getSw s u).word .vec 27 = 0) → (getSw s u).ca0 = { f0 := a :: as, f1 := b :: bs } →
        let r := (List.range 4).map (fun i => fadd (a.bits.extractLsb' (32 * i) 32) (b.bits.extractLsb' (32 * i) 32))
        let sum : Xfer := { bits := BitVec.ofNat 128 (packBits 32 (r.map (fun x => x.1.toNat))), flags := a.flags ||| b.flags }
        let w := { getSw s u with ca0 := { f0 := as, f1 := bs, o0 := some sum } }
        exec (.combiningAdd u) s = .next (setSw s u (adderFlags (r.foldl (fun f x => f ||| x.2) 0) w))) ∧
      (∀ (e : Nat) (v : Nat) (x : Xfer) (ts : List (BitVec 4)), e < 4 → v ≤ 1 → (getSw s u).steer.length = 4 →
        steerMode (getSw s u).word e = 1 → steerG (getSw s u).word e = 1 → hasFollower (getSw s u).word e = false →
        (e % 2 = 1 → steerGang (getSw s u).word e = false) →
        ((getSw s u).steer.getD e {}).tokq = BitVec.ofNat 4 v :: ts → ((getSw s u).steer.getD e {}).moved = 0 →
        ((getSw s u).steer.getD e {}).out0 = none → steerHead s u e v = some x →
        exec (.steeringGroup u e) s = .next (groupEnd u e (modSteer u e (fun y => { y with out0 := some x, moved := y.moved + 1 }) (steerTake u e v s))))) ∧
    (∀ (f k : Nat) (d : Dir) (m : Crossing), f < 64 → crossingAt f d = some k → mget? s.crossings k = some (m, true) →
      exec (.crossingRetime f d) s = .next (putCrossing k m false s)) ∧
    (∀ (e side p : Nat) (f : Frame), e < 5 → side < 2 → ownerOf s u = some p → (getPolder s p).state = 2 →
      (getPolder s p).frame = some f → elemOn (getSw s u).word e = true → sideStalled (getSw s u) e side = true →
      ∃ t, exec (.reconvStall u e side) s = .next t ∧ (getSw t u).flags = (getSw s u).flags ||| 8 ∧ (getSw t u).recValid = true ∧
        ((getSw s u).recValid = false → (getSw t u).recElem = BitVec.ofNat 3 e ∧ (getSw t u).recSide = (side == 1)))

/-- SFU_INPUT_ENTRY at a running unit takes one entry for the lowest ready descriptor; for a function of one lane without ROWOP the head of IN is removed, OUT takes the 16 results with their flags, which SFLAGS collects, and COUNT advances by one. A stream repetition of an idle MU descriptor with repetitions left starts where it has no gate or its gate queue holds a token, which it takes. DESCRIPTOR_ENTRY moves 64 bytes of a SCRATCH bank at its ADDR + PITCH x repetition + offset: DIR 0 from the bank to the output queue with fewer than four entries, DIR 1 from the input queue to the bank; the repetition ends with its last entry. (05 R172 to R182, R190, R191) -/
def Obligations.SfuAndMuRun : Prop :=
  (∀ (s : State) (u i : Nat) (d : SfuDesc) (p : SdProg), isSfu u = true → unitRuns s u = true →
    (getSfu s u).fenced = false →
    (numbered (getSfu s u)).find? (fun e => descOpen (getSfu s u) e.2.1 e.2.2 && needSeed (getSfu s u) e.2.1 e.2.2) = none →
    (numbered (getSfu s u)).find? (fun e => descOpen (getSfu s u) e.2.1 e.2.2 && !needSeed (getSfu s u) e.2.1 e.2.2) = some (i, d, p) →
    exec (.sfuInputEntry u) s = .next (setSfu s u (sfuTake u (frameLoOf s u) i d p (getSfu s u))) ∧
    (d.func < 16 → d.rowop = 0 → p.row = 0 →
      let c := getSfu s u
      let r := (List.range 16).map (fun k => laneFn d c.cfg.table (rowValue c d) (lane (qHead c.siq d.inQ) k))
      let fl := (r.foldl (fun (f : Fl) (x : W32 × Fl) => f ||| x.2) 0).truncate 4
      exec (.sfuInputEntry u) s = .next (setSfu s u { c with
        siq := lmod c.siq d.inQ (fun q => (qPop q).1),
        soq := lmod c.soq d.outQ (fun q => { q with ents := q.ents ++ [{ bits := ofLanes (r.map (·.1)), flags := fl }] }),
        sflags := c.sflags ||| fl.zeroExtend 5,
        prog := c.prog.set i { p with count := p.count + 1, sval := rowValue c d } }))) ∧
  (∀ (s : State) (u d : Nat) (c : MuSd), isMu u = true → d < 8 → unitRuns s u = true →
    (getMu s u).fenced = false → (getMu s u).cfg.sds[d]? = some c →
    let m := getMu s u
    let p := m.prog.getD d {}
    (p.running = false → p.left ≠ 0 →
      (c.gate = 0 → exec (.streamRepetition u d) s = .next (setMu s u { m with prog := m.prog.set d { p with running := true, moved := 0 } })) ∧
      (c.gate ≠ 0 → (qAt m.miq (c.gate - 1)).ents ≠ [] → exec (.streamRepetition u d) s = .next (setMu s u { m with
        miq := lmod m.miq (c.gate - 1) (fun q => (qPop q).1), prog := m.prog.set d { p with running := true, moved := 0 } }))) ∧
    (p.running = true → bankMode m c.bank = 1 →
      let a := 0x30000 * c.bank + (c.addr + p.rep * c.pitch + p.moved)
      let p' := if p.moved + 64 < c.len then { p with moved := p.moved + 64 } else { left := p.left - 1, running := false, rep := p.rep + 1, moved := 0 }
      (c.dir = false → (qAt m.moq c.q).ents.length < 4 → exec (.descriptorEntry u d) s = .next (setMu s u { m with
        moq := lmod m.moq c.q (fun q => { q with ents := q.ents ++ [{ bits := BitVec.ofNat 512 (leNat (rdN m.mem a 64)) }] }),
        prog := m.prog.set d p' })) ∧
      (c.dir = true → (qAt m.miq c.q).ents ≠ [] → exec (.descriptorEntry u d) s = .next (setMu s u { m with
        miq := lmod m.miq c.q (fun q => (qPop q).1), mem := wrN m.mem a (toLe 64 (qHead m.miq c.q).toNat),
        prog := m.prog.set d p' }))))

/-- The next WRITE at a core within local SRAM and clear of the spill ring is stored and acknowledged (a copy of a multicast answers its row); a READ is answered with RDATA of the words at its landing address. A memory unit serves SCRATCH banks the same way; a FIFO port takes entries while it has room and gives them up oldest first; a READ of its registers answers every word and clears MU_ECC; a write of WIN_BASE flushes the bank first. A field controller stores and acknowledges a WRITE of the management complex within its SRAM. (04 R141, 05 R187 to R189, R197, R214, 07 R251, R274) -/
def Obligations.UnitsServeAccesses : Prop :=
  ∀ (s : State) (u : Nat) (p : Packet),
    let a := 8 * p.daddr
    let ws := if p.mcast then p.payload.drop 1 else p.payload
    let n := 8 * ws.length
    let m := 8 * (p.len + 1)
    (isUnit u = true → isMu u = false → Serves s u opWrite p → a + n ≤ sramSize → inRing (getCore s u) a n = false →
      exec (.write u) s = .next (answered u opWrite p (reply p u opAck 0 0 0 [])
        (modCore s u (fun c => { c with sram := wrN c.sram a (wordsBytes ws) })))) ∧
    (isUnit u = true → isMu u = false → Serves s u opRead p → a + m ≤ sramSize →
      exec (.read u) s = .next (answered u opRead p
        (reply p u opRdata p.len p.arg 0 (bytesWords (p.len + 1) (rdN (getCore s u).sram a m))) s)) ∧
    (isMu u = true → Serves s u opWrite p → a + n ≤ 0xC0000 → (∀ b, a / 0x30000 ≤ b → b ≤ (a + n - 1) / 0x30000 → bankMode (getMu s u) b = 1) →
      exec (.write u) s = .next (answered u opWrite p (reply p u opAck 0 0 0 [])
        (modMu s u (fun c => { c with mem := wrN c.mem a (wordsBytes ws) })))) ∧
    (isMu u = true → Serves s u opRead p → a + m ≤ 0xC0000 → (∀ b, a / 0x30000 ≤ b → b ≤ (a + m - 1) / 0x30000 → bankMode (getMu s u) b = 1) →
      exec (.read u) s = .next (answered u opRead p
        (reply p u opRdata p.len p.arg 0 (bytesWords (p.len + 1) (rdN (getMu s u).mem a m))) s)) ∧
    (∀ b k, isMu u = true → b < 4 → bankMode (getMu s u) b = 3 → 0 < k → k ≤ 4 → 0x600000 + 0x10000 * b ≤ a →
      (Serves s u opWrite p → n = 64 * k → a + n ≤ 0x610000 + 0x10000 * b → k ≤ ((getMu s u).fifo.getD b {}).free →
        exec (.write u) s = .next (answered u opWrite p (reply p u opAck 0 0 0 [])
          (modMu s u (fifoPushN b k (wordsBytes ws))))) ∧
      (Serves s u opRead p → m = 64 * k → a + m ≤ 0x610000 + 0x10000 * b → k ≤ ((getMu s u).fifo.getD b {}).held →
        exec (.read u) s = .next (answered u opRead p
          (reply p u opRdata p.len p.arg 0 (bytesWords (p.len + 1) (fifoPopN b k (getMu s u)).1))
          (setMu s u (fifoPopN b k (getMu s u)).2)))) ∧
    (∀ f, f < 64 → nextReq s (fcId f) opWrite = some p → heldBackReq s (fcId f) p = false → p.src = mgcId → lenOk p = true → a + 8 * p.payload.length ≤ 0x40000 →
      exec (.write (fcId f)) s = .next (reply p (fcId f) opAck 0 0 0 [] (dropReq (fcId f) opWrite
        (modField s f (fun x => { x with fcSram := wrN x.fcSram a (wordsBytes p.payload) })))))

/-- The next MSG at a core whose inbox has an entry free and whose ring is empty is appended to the inbox, matching tag counters advance and a trace record is formed; else it goes to the spill ring where that takes it, else it waits. RING_TO_INBOX moves the oldest record of the ring to a free inbox entry. A WCLAIM at its home answers the counter's next value, the end value once none is left, and a claim repeated with its SEQ answers the value it had; a WDONE counts. A reset of a counter, a write of a window base with nothing to write back, and a tag counter's configuration take effect. (04 R138 to R140, 05 R206, R207, R213, R214, 07 R287 to R289, 17 R555) -/
def Obligations.UnitsServeMessages : Prop :=
  ∀ (s : State) (u : Nat) (p : Packet),
    (isUnit u = true → isMu u = false → Serves s u opMsg p →
      let c := getCore s u
      let m : Msg := { tag := p.tag, src := p.src, words := p.payload }
      let into := fun c' => modMif (setCore s u (tagCount false p.tag c')) u (fun x => { x with recvBlk := false })
      (c.ringUsed = 0 → c.inbox.length < 16 → exec (.msg u) s =
        .next (orderRisk u p (dropReq u opMsg (trace u 2 0 (inboxWords m) (into { c with inbox := c.inbox ++ [m] }))))) ∧
      (∀ c', c.ringUsed ≠ 0 ∨ c.inbox.length = 16 → ringPlace c m = some c' → exec (.msg u) s = .next (orderRisk u p (dropReq u opMsg (into c')))) ∧
      (c.ringUsed ≠ 0 ∨ c.inbox.length = 16 → ringPlace c m = none → exec (.msg u) s = .next s)) ∧
    (isCc u = true → (getCore s u).ringUsed > 0 → (getCore s u).inbox.length < 16 → (getCore s u).fenced = false →
      let c := ringToInbox (getCore s u)
      c.inbox.length = (getCore s u).inbox.length + 1 ∧ exec (.ringToInbox u) s =
        .next (trace u 2 0 (inboxWords (c.inbox.getLastD { tag := 0, src := 0, words := [] })) (setCore s u c))) ∧
    (isMu u = true → Serves s u opWclaim p →
      let m := getMu s u
      let c := bitsOf (p.payload.headD 0).toNat 5 0
      wcUsable m c = true →
      (∀ r, m.replay.find? (fun r => r.c == c && r.src == p.src) = some r → r.seq = p.seq → exec (.wclaimRequest u) s =
        .next (answered u opWclaim p (reply p u opWval 0 0 0 [r.val.zeroExtend 64]) (setMu s u { m with wcReplays := incCnt m.wcReplays }))) ∧
      (m.replay.find? (fun r => r.c == c && r.src == p.src) = none → m.replay.length < 16384 →
        let v := claimValue (getWc m c)
        exec (.wclaimRequest u) s = .next (answered u opWclaim p (reply p u opWval 0 0 0 [BitVec.ofNat 64 v.1]) (setMu s u { m with
          wc := mput m.wc c v.2, replay := m.replay ++ [{ c := c, src := p.src, seq := p.seq, val := BitVec.ofNat 32 v.1 }] })) ∧
        ((getWc m c).mode = 1 → v.1 = if (getWc m c).pos < (getWc m c).limit then (getWc m c).pos else 0xFFFFFFFF))) ∧
    (isMu u = true → Serves s u opWdone p →
      let m := getMu s u
      let w := (p.payload.headD 0).toNat
      let c := bitsOf w 5 0
      let t := bitsOf w 63 32
      let put := fun x => Host.Outcome.next (answered u opWdone p (reply p u opAck 0 0 0 []) (setMu s u { m with wc := mput m.wc c x }))
      wcUsable m c = true →
      ((getWc m c).mode = 1 → exec (.wdoneRequest u) s = put { getWc m c with doneCnt := min ((getWc m c).doneCnt + 1) 0xFFFFFFFF }) ∧
      ((getWc m c).mode ≠ 1 → t < (getWc m c).limit → exec (.wdoneRequest u) s = put { getWc m c with done := insertNat t (getWc m c).done })) ∧
    (isMu u = true → ∀ c, c < 64 → exec (.wcCtlReset u c) s = .next (modMu s u (wcResetAt c))) ∧
    (isMu u = true → ∀ (b : Nat) (v : W64), b < 4 → winWaits (getMu s u) b = false → exec (.winBaseWrite u b v) s = .next (winWrite u b v none s)) ∧
    (isCc u = true → ∀ (i : Nat) (v : W64), i < 16 → exec (.tagcCfgWrite u i v) s = .next (modCore s u (fun c => { c with
      tagc := c.tagc.set i (v.truncate 14), tagMsgs := c.tagMsgs.set i {}, tagStall := c.tagStall.set i {} })))

/-- A field controller whose next SYNC packet is admitted and names an allocated object goes on: ADD leaves the sum, or 2^32 - 1 where the sum is larger, with OVF set; SUB the difference, or 0 where it is negative, with UNF set; SET the value. The last signaller is recorded, FCS_OPS advances by one, the waiters of that object that the new value satisfies leave the queue and no others, every other object is as it was, and beside the field, the objects, the packets, the event log and the mesh interfaces nothing changes. (08 R294 to R298) -/
def Obligations.SyncSignalsCount : Prop :=
  ∀ (s : State) (f sop : Nat) (p : Packet), f < 64 → nextReq s (fcId f) opSync = some p →
    bitsOf (p.payload.headD 0).toNat 44 42 = sop → sop < 3 →
    let w := (p.payload.headD 0).toNat
    let o := 1024 * f + bitsOf w 41 32
    let v := w % 2 ^ 32
    let x := getObj s o
    syncCode s o sop p = none → ∃ t,
      exec (if sop = 0 then .syncAdd f else if sop = 1 then .syncSub f else .syncSet f) s = .next t ∧
      (getObj t o).value.toNat = (if sop = 0 then min (x.value.toNat + v) 0xFFFFFFFF else if sop = 1 then x.value.toNat - v else v) ∧
      (getObj t o).ovf = (x.ovf || (sop == 0 && decide (x.value.toNat + v > 0xFFFFFFFF))) ∧
      (getObj t o).unf = (x.unf || (sop == 1 && decide (v > x.value.toNat))) ∧
      (getObj t o).lastSrc = BitVec.ofNat 20 p.src ∧ (getObj t o).lastSop.toNat = sop ∧ (getObj t o).lastValid = true ∧
      (getField t f).waiters = (getField s f).waiters.filter (fun y => !(y.obj == o && waitHolds y (getObj t o).value)) ∧
      (getField t f).fcsOps = incCnt (getField s f).fcsOps ∧
      (∀ o', o' ≠ o → getObj t o' = getObj s o') ∧
      (∀ g, g ≠ f → getField t g = getField s g) ∧
      { t with objs := s.objs, fields := s.fields, flights := s.flights, host := s.host, mifs := s.mifs } = s

/-- A field controller that takes a WAIT_GE or a WAIT_EQ which is admitted goes on: where the object's value satisfies it the ACK and WSAT are sent; else, while fewer than 4,096 waiters are queued in the field, it joins the end of the queue, FCS_HWM follows the depth and the ACK is sent; else the packet is dropped with no reply and counted. (08 R298 to R301) -/
def Obligations.SyncWaits : Prop :=
  ∀ (s : State) (f : Nat) (eq : Bool) (p : Packet), f < 64 → nextReq s (fcId f) opSync = some p →
    let w := (p.payload.headD 0).toNat
    let o := 1024 * f + bitsOf w 41 32
    let y : Waiter := { obj := o, src := p.src, seq := p.seq, ctx := p.ctx, eq := eq, val := BitVec.ofNat 32 w }
    let u := modField (orderRisk (fcId f) p (dropReq (fcId f) opSync s)) f (fun x => { x with fcsOps := incCnt x.fcsOps })
    let c : Instr := if eq then .syncWaitEq f else .syncWaitGe f
    let q := (getField s f).waiters
    bitsOf w 44 42 = (if eq then 4 else 3) → syncCode u o (if eq then 4 else 3) p = none →
    (waitHolds y (getObj u o).value = true →
      exec c s = .next (inject (waiterReply f opWsat 0 y) (reply p (fcId f) opAck 0 0 0 [] u))) ∧
    (waitHolds y (getObj u o).value = false → q.length < 4096 →
      exec c s = .next (reply p (fcId f) opAck 0 0 0 [] (modField u f (fun x =>
        { x with waiters := q ++ [y], fcsHwm := BitVec.ofNat 13 (max x.fcsHwm.toNat (q.length + 1)) })))) ∧
    (waitHolds y (getObj u o).value = false → q.length = 4096 →
      ∃ t, exec c s = .next t ∧ t.flights = u.flights ∧ (getField t f).waiters = q ∧ (getField t f).fcsDrop = incCnt (getField u f).fcsDrop)

/-- At a core, the oldest ACK completes an MPUT, a WDONE or a signal, RDATA an MGET with its words in local SRAM, WVAL a WCLAIM with its value in SD, WSAT a wait: the request is forgotten and its predicate set. The ACK of a wait leaves it outstanding. A reply with no such request counts as stale. A NACK is counted and recorded; TARGET_RESET delays a request that is no SYNC while resends are left, any other code ends the request and sets the flag. The delay and the reply timer resend with DTR = 1 while resends are left; an expired timer ends the request else. MC_ACK of the last row completes a multicast; MC_NACK of a row with others to come keeps the refused targets for resending. (07 R253, R254, R278, R282, R283) -/
def Obligations.RepliesComplete : Prop :=
  ∀ (s s1 : State) (u op : Nat) (p : Packet) (o : Outst) (ecc : Ecc), isCc u = true → arrivedWith s u op = some (p, s1) →
    let s2 := orderRisk u p s1
    let s3 := noteNack u p s2
    (findOut s2 u p.seq = none →
      (∀ c ∈ [(Instr.ack u, opAck), (.rdata ⟨u, ecc⟩, opRdata), (.wval u, opWval), (.wsat u, opWsat), (.mcAck u, opMcAck), (.mcNack u, opMcNack)],
        c.2 = op → exec c.1 s = .next (staleReply u s2))) ∧
    (findOut s2 u p.seq = some o →
      (∀ pd, op = opAck → (o.use = .put pd ∨ o.use = .done pd ∨ o.use = .sync false pd) →
        exec (.ack u) s = .next (donePred u pd (dropOut u p.seq s2))) ∧
      (∀ pd, op = opAck → o.use = .sync true pd → exec (.ack u) s = .next (modOut u p.seq (fun o => { o with acked := true }) s2)) ∧
      (∀ addr pd, op = opRdata → o.use = .get addr pd → exec (.rdata ⟨u, ecc⟩) s =
        .next (donePred u pd (modCore (dropOut u p.seq s2) u (fun c => { c with sram := wrN c.sram addr (wordsBytes p.payload) })))) ∧
      (∀ sd pd, op = opWval → o.use = .claim sd pd → exec (.wval u) s =
        .next (donePred u pd (modCore (dropOut u p.seq s2) u (fun c => setScalar c sd ((p.payload.headD 0).truncate 32))))) ∧
      (∀ pd, op = opWsat → o.use = .sync true pd → exec (.wsat u) s = .next (donePred u pd (dropOut u p.seq s2))) ∧
      (∀ pd, op = opMcAck → o.use = .mput [p.arg] [] [] none pd → exec (.mcAck u) s =
        .next (donePred u pd (dropOut u p.seq (modOut u p.seq (fun o => { o with use := .mput [] [] [] none pd }) s2)))) ∧
      (∀ rows rs sent fail pd, op = opMcNack → o.use = .mput rows rs sent fail pd → rows.contains p.arg = true →
        (rows.filter (fun r => r != p.arg)).isEmpty = false → exec (.mcNack u) s = .next (modOut u p.seq (fun o =>
          { o with use := .mput (rows.filter (fun r => r != p.arg)) (rs ++ mcNackTargets o p) sent fail pd }) s2))) ∧
    (op = opNack → p.vc = 1 → exec (.nack u) s = .next (meshFlag u 5 s3)) ∧
    (op = opNack → p.vc ≠ 1 → findOut s3 u p.seq = some o →
      (p.arg = nkReset → o.pkt.op ≠ opSync → o.resends < bitsOf (getMif s3 u).cfg.toNat 27 24 →
        exec (.nack u) s = .next (modOut u p.seq (fun o => { o with delayed := true, lastNack := nkReset, lastResp := p.src }) s3)) ∧
      (∀ pd, p.arg ≠ nkReset → (o.use = .put pd ∨ (∃ a, o.use = .get a pd) ∨ o.use = .done pd ∨ ∃ w, o.use = .sync w pd) →
        exec (.nack u) s = .next (dropOut u p.seq (meshFlag u 0 s3)))) ∧
    (∀ q, findOut s u q = some o →
      (o.delayed = true → exec (.resendDelay u q) s = .next (resend u o s)) ∧
      (timerRuns s u o = true → o.pkt.op ≠ opSync → o.resends < bitsOf (getMif s u).cfg.toNat 27 24 →
        exec (.replyTimer u q) s = .next (resend u o s)) ∧
      (∀ pd, timerRuns s u o = true → o.use = .put pd → o.pkt.op ≠ opSync → o.resends ≥ bitsOf (getMif s u).cfg.toNat 27 24 → o.lastNack = 0 →
        exec (.replyTimer u q) s = .next (dropOut u q (modMif s u (fun m => { m with flags := setBit m.flags 1, timeouts := incCnt m.timeouts })))))

/-- A MEC that performs an access which its source may make, on a trained stack, with no failing granule among those it reads and no error in its data slot, answers a DREAD with RDATA of the words at the address and leaves DRAM as it is, or stores the words of a DWRITE at the address and sends ACK; MEC_RD and MEC_WR advance by the granules read and written, and beside DRAM, the failing granules and the MEC nothing changes. DREAD and DWRITE, once the reply can be injected and the tracker has room, perform an access with a physical address at that address; with a cached translation at the translated one, over the ring where another stack holds it. RING_REQUEST performs a forwarded access, or sends back the entry a walk reads; RING_REPLY continues the walk with it, a request's or an engine's; an entry that gives a frame is cached unless translations were dropped meanwhile. (10 R341 to R352) -/
def Obligations.DramServes : Prop :=
  ∀ (s : State) (n : Nat) (ecc : Checks) (p : Packet), n < 32 →
    (∀ a, let w := p.payload.headD 0
      let write := p.op == opDwrite
      let len := 8 * awWords w
      let reads := if write then partGranules a len else granules a len
      mayAccess s p a len write (awPaged w) = true → stackOn s (stackOf s a) = true → failing s reads ecc.data = [] → ecc.data ≠ .slotBad →
      ∃ t : State, serveDram n p a ecc.data s = (if write then reply p (mecId n) opAck 0 0 0 [] t
          else reply p (mecId n) opRdata (awWords w - 1) (awLand w) 0 (bytesWords (awWords w) (rdN s.dram a len)) t) ∧
        t.dram = (if write then wrN s.dram a (wordsBytes (p.payload.drop 1)) else s.dram) ∧
        (getMec t n).rd = addCnt (getMec s n).rd reads.length ∧
        { t with dram := s.dram, badGranules := s.badGranules, mecs := s.mecs } = s) ∧
    (∀ op, (op = opDread ∨ op = opDwrite) → nextReq s (mecId n) op = some p → replyWaits s (mecId n) = false → trkFree s n (reqEntries p) = true →
      dramForm p = none →
      let s1 := orderRisk (mecId n) p (dropReq (mecId n) op s)
      let w := p.payload.headD 0
      let c : Instr := if op = opDread then .dread n ecc else .dwrite n ecc
      (awPaged w = false → exec c s = .next (serveDram n p (8 * awAddr w) ecc.data s1)) ∧
      (∀ e pa, ecc.walk ≠ .cacheBad → ecc.walk ≠ .mirrorBad → awPaged w = true → 8 * awAddr w / 65536 < (mirrorOf s1 n p.ctx).2 →
        tlbFind s1 n p.ctx (8 * awAddr w / 65536) = some e → pteCheck e (8 * awAddr w) (p.op == opDwrite) = .ok pa →
        let s2 := modMec s1 n (fun m => { m with hits := incCnt m.hits })
        (stackOf s pa = n → exec c s = .next (serveDram n p pa ecc.data s2)) ∧
        (stackOf s pa ≠ n → targetOff s (mecId (stackOf s pa)) = false →
          exec c s = .next { s2 with ring := s2.ring ++ [{ dest := stackOf s pa, reply := false, pkt := p, pa := pa, origin := n }] }))) ∧
    (∀ m l, takeRing n false s.ring = some (m, l) → targetOff s (mecId n) = false →
      trkFree s n (if m.walk then 1 else reqEntries m.pkt) = true →
      (m.walk = false → exec (.ringRequest n ecc) s = .next (serveDram n m.pkt m.pa ecc.data { s with ring := l })) ∧
      (m.walk = true → populated m.pa = true → stackOn s (stackOf s m.pa) = true → failing s [m.pa / 64] ecc.walk = [] →
        let back : RingMsg := { m with dest := m.origin, reply := true, ok := true, pte := BitVec.ofNat 64 (rdLe s.dram m.pa 8) }
        ∃ t : State, exec (.ringRequest n ecc) s = .next { t with ring := l ++ [back] } ∧
          { t with mecs := s.mecs, ring := s.ring } = s)) ∧
    (∀ m l, takeRing n true s.ring = some (m, l) →
      (m.eng = none → exec (.ringReply ⟨n, ecc.data⟩) s = .next (walked n m.pkt (if m.ok then some m.pte else none) (!m.nocache) ecc.data { s with ring := l })) ∧
      (∀ e, m.eng = some e → exec (.ringReply ⟨n, ecc.data⟩) s = .next (seWalked e m { s with ring := l }))) ∧
    (∀ (m : RingMsg) (e c va : Nat), let x := getSe s e
      x.walk = some (c, va) → m.pkt.ctx = c → awAddr (m.pkt.payload.headD 0) / 8192 = va / 65536 → m.ok = true →
      let t := modSe s e (fun x => { x with walk := none })
      let st := match seDesc x with | some d => d.store | none => false
      ((∃ f, sePage m.pte va st = .ok f) → m.nocache = false →
        seWalked e m s = seGot e c (va / 65536) m.pte (tlbPut (e / 16) c (va / 65536) m.pte t)) ∧
      ((∃ f, sePage m.pte va st = .error f) ∨ m.nocache = true → seWalked e m s = seGot e c (va / 65536) m.pte t)) ∧
    (∀ e pa, let va := 8 * awAddr (p.payload.headD 0)
      pteCheck e va (p.op == opDwrite) = .ok pa → stackOf s pa = n →
      walked n p (some e) true ecc.data s = serveDram n p pa ecc.data (tlbPut n p.ctx (va / 65536) e s) ∧
      walked n p (some e) false ecc.data s = serveDram n p pa ecc.data s)

/-- While every polder is VACANT a write of a legal granule code to MEM_CFG completes with OK and sets it, and each stack holds what it held at the same offsets. MEM_TLB_INV drops the cached translations of one context, or of all, in every MEC, with what engines keep of them, keeps what walks under way bring from being cached, and completes with OK. On a trained stack a refresh is counted and reads the temperature, which the spec gives no value, a pass of calibration falls due, a late pass is run at once with CAL_LATE and its event, a clean granule of the patrol scrub advances the position, and a temperature reading is shown with its maximum and makes a pass due where it has moved 5 degrees; scrub and reading go after the requests that wait, a scrub that has fallen behind apart; a reading at which no trip is due trips nothing. (10 R335, R351, R365 to R369, R373) -/
def Obligations.DramMaintenance : Prop :=
  ∀ (s : State) (h : Req) (n : Nat), n < 32 →
    (∀ v : W32, s.polders.all (fun e => e.2.state == 0) = true → v.toNat % 4 ≠ 3 →
      ∃ t : State, exec (.memCfgWrite h v) s = .next (complete h 0 [] t) ∧ t.ilv = BitVec.ofNat 2 v.toNat ∧
        { t with ilv := s.ilv, dram := s.dram, badGranules := s.badGranules } = s ∧
        (BlockInv s → ∀ k o, k < 32 → rd8 t.dram (stackAddr t k o) = rd8 s.dram (stackAddr s k o))) ∧
    (∀ c, c < 8192 → ∃ t : State, exec (.memTlbInvCtx h c) s = .next (complete h 0 [] t) ∧
      { t with mecs := s.mecs, ses := s.ses, ring := s.ring, tlbBusy := s.tlbBusy } = s ∧
      (∀ k, (getMec t k).tlb = (getMec s k).tlb.filter (fun x => x.1 != c)) ∧ (∀ e, (getSe t e).got = (getSe s e).got.filter (fun x => x.1 != c)) ∧
      t.ring = s.ring.map (fun m => if m.walk && m.pkt.ctx == c then { m with nocache := true } else m)) ∧
    (∃ t : State, exec (.memTlbInvAll h) s = .next (complete h 0 [] t) ∧
      { t with mecs := s.mecs, ses := s.ses, ring := s.ring, tlbBusy := s.tlbBusy } = s ∧
      (∀ k, (getMec t k).tlb = []) ∧ (∀ e, (getSe t e).got = []) ∧ t.ring = s.ring.map (fun m => if m.walk then { m with nocache := true } else m)) ∧
    (stackOn s n = true →
      (let t := refreshed n s
       (tripDue t = false → exec (.refresh n) s = .next t) ∧ (getMec t n).refreshes = (getMec s n).refreshes + 1 ∧
       (getMec t n).tempNow = BitVec.ofNat 8 (Config.freeValue s.free).toNat ∧ { t with mecs := s.mecs, free := s.free } = s) ∧
      exec (.calibrationDue n) s = .next (modMec s n (fun m => { m with calLeft := if m.calLeft = 0 then 32 else m.calLeft })) ∧
      (∀ b od, b < 256 → foreground s n = false → (getMec s n).calLeft = 0 →
        let t := modMec s n (fun m => { m with
          tempNow := BitVec.ofNat 8 b, tempMax := BitVec.ofNat 8 (max m.tempMax.toNat b), odEcc := BitVec.ofNat 64 od,
          calLeft := if b ≥ m.tempCal.toNat + 5 ∨ m.tempCal.toNat ≥ b + 5 then 32 else 0 })
        tripDue t = false → exec (.mecTelemetry n ⟨b, od⟩) s = .next t) ∧
      (let m := getMec s n
       foreground s n = false ∨ scrubBehind s m = true → scrubBehind s (scrubNext m) = false → (∀ g ∈ scrubReads s n (4096 * m.scrubPos.toNat), s.badGranules.contains g = false) →
       exec (.patrolScrub n .clean) s = .next (modMec s n scrubNext))) ∧
    ((getMec s n).calLeft ≠ 0 → exec (.calLate n) s = .next (raise 0x52 none none none n (modMec s n (fun m =>
      { m with calLeft := 0, calTick := s.tick.count, tempCal := m.tempNow, flags := setBit m.flags 4 }))))

/-- SE_ITERATION at a running engine goes on: a descriptor that selects contexts sends the wait on the batch object first, WAIT_EQ with the number of the polder's frame, or its frame counter where none is in progress; a gated iteration sends WAIT_GE on its gate; else the iteration is begun and its rows move, each as one READ or WRITE at the unit while PFDEPTH, the tracker entries and the 4,095 requests of a MEC leave room. A move whose words are the last advances to the next iteration, or past the last one to the next descriptor. SE_ITERATION_DONE takes the first iteration begun that has nothing outstanding off the list and signals DONE with ADD 1 where the descriptor asks for it. (10 R353 to R360) -/
def Obligations.EnginesRun : Prop :=
  ∀ (s : State) (e : Nat) (ecc : Checks) (d : SeDesc), e < 512 →
    let x := getSe s e
    let n := e / 16
    (x.running = true → x.halted = false → x.walk = none → targetOff s (mecId n) = false → seDesc x = some d →
      (d.ctxsel = true → x.batchOk = false → x.batchSent = false → seRoom s e = true → ∀ c, (getPolder s x.owner.toNat).cfg = some c → c.maxBatch ≠ 0 →
        exec (.seIteration ⟨e, ecc⟩) s =
          .next (modSe (request (mecId n) (syncPacket (mecId n) c.batchSync (seFrameNo s x) 4 0) (.seSync e false true) s) e
            (fun x => { x with batchSent := true }))) ∧
      (d.ctxsel = false ∨ (x.batchOk = true ∧ x.listN = some x.list.length ∧ x.list ≠ []) → x.gateOk = false →
        ∀ v, seGate d x.iter = some v → x.gateSent = false → seRoom s e = true → exec (.seIteration ⟨e, ecc⟩) s =
          .next (modSe (request (mecId n) (syncPacket (mecId n) d.gateObj v 3 0) (.seSync e true false) s) e
            (fun x => { x with gateSent := true }))) ∧
      (d.ctxsel = false ∨ (x.batchOk = true ∧ x.listN = some x.list.length ∧ x.list ≠ []) → x.gateOk = true ∨ seGate d x.iter = none →
        x.openIts.contains (seKey x.desc x.iter) = false → exec (.seIteration ⟨e, ecc⟩) s =
          .next (seMove e 4096 ecc (modSe s e (fun x => { x with openIts := x.openIts ++ [seKey x.desc x.iter] })))) ∧
      (∀ k pas ecc' s', let cp := seCtx x d x.iter
        let ch := seChunkFit d cp.2 x.iter x.pfdepth x.row x.off
        let addrs := ch.1.filterMap id
        d.store = false → seTrans s e + granCount (addrs.map Int.toNat) ≤ x.pfdepth → trkFree s n (granCount (addrs.map Int.toNat)) = true →
        seRoom s e = true → seResolve e x.owner.toNat d cp.1 addrs ecc.walk s = (.ok pas, ecc', s') → ch.2.1 ≥ d.rows * d.planes →
        let w := seReadWords e (if d.paged then some cp.1 else none) d pas ecc.data (modSe s' e (fun x => { x with got := [] }))
        let ws := seFill ch.1 w.1
        seMove e (k + 1) ecc s = modSe (trackHwm n 0 (request (mecId n)
          { src := mecId n, dest := d.unit, op := opWrite, len := ws.length - 1, daddr := seUnitAddr d x.iter x.row x.off / 8, ctx := cp.1, payload := ws }
          (.seWrite e (seKey x.desc x.iter) (granCount pas)) w.2)) e (seAdvance (seCount x d)))) ∧
    (∀ f, (getPolder s x.owner.toNat).frame = some f → seFrameNo s x = f.num.toNat % 2 ^ 32) ∧
    ((getPolder s x.owner.toNat).frame = none → seFrameNo s x = (getPolder s x.owner.toNat).frames.toNat % 2 ^ 32) ∧
    (∀ k, x.openIts.find? (fun k => !((x.running && decide (x.desc < x.cfg.length)) && k == seKey x.desc x.iter) && !seBusy s e k) = some k →
      x.cfg[k / 65536]? = some d → (d.doneEn = true → seRoom s e = true) →
      let t := modSe s e (fun x => { x with openIts := x.openIts.filter (fun j => j != k) })
      exec (.seIterationDone e) s = .next (seSettle e (if d.doneEn then
        request (mecId n) (syncPacket (mecId n) d.doneObj 1 0 0) (.seSync e false false) t else t)))

/-- EVT sends up to 16 logged events in one frame while the peer gives credit; UMSG passes a message on, or keeps it while 256 others wait. A frame that arrives is whole where its codewords are corrected, WORDS gives its length and its CRC-32 is right; one that is not, or is of a type the host does not send, is discarded and counted in NL_CRC. ACK_FRAME frees the frames below ACKSEQ; a NAK or an expired timer replays the rest, the sixteenth time in a row taking the link down. a sequenced frame that finds 2,048 unacknowledged, or no credit for an EVT or UMSG, waits behind those that do. LINK_DOWN with the other port up starts failover with event 0x13, and what the port held waits for the peer's FAILOVER; with no other port up what it held is lost and accesses go on unanswered; FAILOVER sends what the peer lacks as new frames; LINK_UP starts both sequence numbers at zero and keeps what waits for a FAILOVER; TRAIN_RETRY shows the lanes; NL_CTRL and NL_MODE complete with OK and have their effect. (12 R405 to R410, R420 to R426) -/
def Obligations.LinkRuns : Prop :=
  ∀ (s : State) (h : Req) (p : Nat), p < 2 →
    let x := getPort s p
    (eventPort s = some p → s.host.log ≠ [] → hasCredit s p = true →
      exec .evt s = .next (sendFrame p (.evt (s.host.log.take 16)) { s with host := { s.host with log := s.host.log.drop 16 } })) ∧
    (∀ (d : Nat) (q : Packet), d < 3 → nextReq s (if d = 2 then mgcId else naId d) opMsg = some q →
      let s' := dropReq (if d = 2 then mgcId else naId d) opMsg s
      let m : Umsg := { dest := d, tag := q.tag, src := q.src, ctx := q.ctx, words := q.payload }
      eventPort s = some p →
      (s.host.hold = [] → hasCredit s p = true → exec (.umsg d) s = .next (sendFrame p (.umsg m) s')) ∧
      (s.host.hold ≠ [] ∨ hasCredit s p = false → s.host.hold.length < 256 →
        exec (.umsg d) s = .next { s' with host := { s'.host with hold := s.host.hold ++ [m] } })) ∧
    (x.st = 2 → ∀ fr : LinkFrame, fr.port = p →
      let s0 := noteFec fr s
      let x := getPort s0 p
      let tx := x.tx.filter (fun e => !seqBelow e.1 (frSeq fr))
      let s1 := setPort s0 p (pumpTx x.txWait
        { x with tx := tx, ecredit := frCredit fr, replayRun := if tx.length < x.tx.length then 0 else x.replayRun, txWait := [] })
      (frGood fr = true → frType fr = 0 → frBit44 fr = 0 → exec (.ackFrame fr.port fr.header fr.body fr.fec) s = .next (drainHold s1.host.hold.length s1)) ∧
      (frGood fr = true → frType fr = 0 → frBit44 fr = 1 →
        exec (.ackFrame fr.port fr.header fr.body fr.fec) s = .next (drainHold (replay p s1).host.hold.length (replay p s1))) ∧
      (frGood fr = false ∨ frType fr ∉ [0, 1, 5] →
        exec (.ackFrame fr.port fr.header fr.body fr.fec) s = .next (setPort s0 p { x with crc := incCnt x.crc }) ∧
        exec (.failover fr.port fr.header fr.body fr.fec) s = .next (setPort s0 p { x with crc := incCnt x.crc }))) ∧
    (∀ fr : LinkFrame, frGood fr = true ↔ fr.fec ≠ .uncorrectable ∧ fr.payload.length = frWords fr ∧
      fr.crc = crc32 (toLe 16 fr.header.toNat ++ wordsBytes fr.payload)) ∧
    (x.st = 2 → x.tx ≠ [] →
      let t := setPort s p { x with replays := addCnt x.replays x.tx.length, flags := x.flags ||| 2, replayRun := x.replayRun + 1 }
      exec (.replayTimeout p) s = if x.replayRun < 15 then .next t else .next (linkTrain p (linkGoesDown p t))) ∧
    (∀ f : TxFrame, let y := getPort (sendFrame p f s) p
      y.tx.map (·.2) ++ y.txWait = x.tx.map (·.2) ++ x.txWait ++ [f] ∧ (x.tx.length ≤ 2048 → y.tx.length ≤ 2048) ∧
      (x.tx.length < 2048 → x.txWait = [] → creditFrame f = false ∨ hasCredit s p = true → y.tx = x.tx ++ [(x.txNext, f)] ∧ y.txNext = x.txNext + 1)) ∧
    (x.st = 2 → (getPort s (1 - p)).st = 2 → ∃ t, exec (.linkDown p) s = .next t ∧
      (getPort t p).st = (if domOn s 100 && x.en then 1 else 0) ∧ (getPort t p).tx = [] ∧ (getPort t p).oldTx = x.tx ∧
      (getPort t p).oldWait = x.oldWait ++ x.oldTx.map (·.2) ++ x.txWait ∧ (getPort t p).oldRx = x.rxNext ∧ (getPort t p).downs = incCnt x.downs ∧
      (getPort t (1 - p)).failSent = some (p, x.rxNext, false) ∧ (getPort t (1 - p)).failDone = false) ∧
    (x.st = 2 → (getPort s (1 - p)).st ≠ 2 → exec (.linkDown p) s =
      .next (linkTrain p (loseAccesses (lostFrames (1 - p) (lostFrames p (setPort s p (portDown x))))))) ∧
    (x.st = 1 → domOn s 100 = true → x.en = true → ∃ t, exec (.linkUp p) s = .next t ∧ (getPort t p).st = 2 ∧
      (getPort t p).lanes = 0xFF ∧ (getPort t p).txNext = 0 ∧ (getPort t p).rxNext = 0 ∧ (getPort t p).tx = [] ∧ (getPort t p).oldTx = x.oldTx ∧ (getPort t p).oldRx = x.oldRx) ∧
    (x.st = 1 → ∀ lanes, exec (.trainRetry p lanes) s = .next (setPort s p { x with lanes := BitVec.ofNat 8 lanes })) ∧
    (∀ fr : LinkFrame, fr.port = p → x.st = 2 → frGood fr = true → frType fr = 5 →
      let f := frBit44 fr
      let y := getPort s f
      let rest := y.oldWait ++ (y.oldTx.filter (fun e => !seqBelow e.1 (frSeq fr))).map (·.2)
      (f ≠ p → ∃ t, exec (.failover fr.port fr.header fr.body fr.fec) s = .next t ∧ (getPort t f).oldTx = [] ∧ (getPort t f).oldWait = [] ∧
        (getPort t p).failDone = true ∧ (getPort t p).tx.map (·.2) ++ (getPort t p).txWait = x.tx.map (·.2) ++ x.txWait ++ rest ∧
        (getPort t p).failSent = (if frConfirm fr then x.failSent else some (f, y.oldRx, true))) ∧
      (f = p → exec (.failover fr.port fr.header fr.body fr.fec) s = .next (noteFec fr s))) ∧
    (∀ f r b, x.st = 2 → x.failDone = false → x.failSent = some (f, r, b) →
      exec (.failoverRepeat p) s = .next (setPort s p { x with failSent := some (f, r, false) })) ∧
    (∀ en, exec (.nlCtrlEn h p en) s = .next (complete h 0 [] (nlEn p en s))) ∧
    (x.st = 1 → domOn s 100 = true → (getPort (nlEn p false s) p).st = 0 ∧ (getPort (nlEn p false s) p).en = false) ∧
    (x.st = 0 → domOn s 100 = true → (getPort (nlEn p true s) p).st = 1 ∧ (getPort (nlEn p true s) p).en = true) ∧
    exec (.nlCtrlRetrain h p) s = .next (complete h 0 [] (linkTrain p (linkGoesDown p s))) ∧
    (∀ v : W32, exec (.nlModeWrite h v) s = .next (complete h 0 [] (chooseActive { s with host := { s.host with mode := v.getLsbD 0, pref := v.getLsbD 1 } })))

/-- SPAN_EGRESS refuses a request its window does not admit with a NACK, and relays any other under a SEQ of its own: WRITE and READ with a relay entry, MSG with none. A frame that is not whole, has a reserved type or a payload that is no whole packets is counted and means nothing else; what a packet is packed to is read back as it. SPAN_DATA routes the packets of the frame that is expected and owes an ACK of it, with the buffer words of those that do not wait, and of a duplicate; an expired timer sends what is not acknowledged again, the sixteenth time in a row taking the link down; SPAN_ACK frees frames, returns credit up to 512 words and lets waiting packets go. SPAN_UP starts both sequence numbers at zero with full credit; TRAIN_RETRY shows the lanes; SPAN_DOWN takes the link down and lets it train; REACH falls back the entries it names, and goes on with one hop more for those no longer reached while it has come fewer than 15; RELAY_TIMEOUT gives the entry up and counts it. SPAN_TABLE installs 64 legal entries that can be read and mark the own wafer as local; SPAN_SLUICE sets the mode; SPAN_CFG and SP_CTRL take effect. (13 R441 to R456) -/
def Obligations.SpanRuns : Prop :=
  ∀ (s : State) (p : Nat) (h : Req), p < 16 →
    let x := getSpan s p
    (∀ f : Flight, s.flights.find? (fun f => f.loc == .arrived (spId p) && f.net == .req) = some f →
      let k := f.pkt
      let w := (mget (0 : W64) x.win (bitsOf k.daddr 19 14)).toNat
      let out := fun (q : Nat) => ({ k with dest := bitsOf w 29 10, daddr := bitsOf w 49 30 + k.daddr % 16384, hold := false, src := spId p, seq := q } : Packet)
      let sp := fun (q : Nat) => ({ dwafer := bitsOf w 9 4, swafer := s.span.waferId.toNat, hops := 0, reply := false, pkt := out q } : SpanPkt)
      replyWaits s (spId p) = false →
      (∀ c, egressCode x k = some c → exec (.spanEgress p) s =
        .next (nack k (spId p) c (badOpVia s (spId p) k.op c (dropReq (spId p) k.op s)))) ∧
      (egressCode x k = none → k.op = opMsg → exec (.spanEgress p) s = .next (spanRoute p (sp k.seq) (dropReq (spId p) k.op s))) ∧
      (∀ q x', egressCode x k = none → k.op ≠ opMsg → egressEntry k x = some (q, x') →
        exec (.spanEgress p) s = .next (spanRoute p (sp q) (dropReq (spId p) k.op (setSpan s p x'))) ∧
        x'.egress.find? (fun r => r.seq == q) = some { seq := q, src := k.src, rseq := k.seq, land := k.arg, vc := k.vc })) ∧
    (x.st = 2 → ∀ (fr : SpanIn) (hops : Nat) (m : W64),
      let i := Instr.spanData p fr.header ⟨fr.payload, fr.crc⟩ fr.fec
      (spanWhole fr = true ↔ fr.fec ≠ .uncorrectable ∧ fr.payload.length = bitsOf fr.header.toNat 10 4 ∧
        fr.crc = crc32 (toLe 16 fr.header.toNat ++ wordsBytes fr.payload)) ∧
      (spanWhole fr = false ∨ 2 < spBits fr 3 0 → ∀ i ∈ [i, .reach p fr hops m, .spanAck p fr.header fr.payload fr.crc fr.fec],
        exec i s = .next (setSpan s p { x with crc := incCnt x.crc })) ∧
      (spanWhole fr = true → spBits fr 3 0 = 1 → spanUnpack fr.payload.length fr.payload = none →
        exec i s = .next (setSpan s p { x with crc := incCnt x.crc })) ∧
      (∀ pkts, spanWhole fr = true → spBits fr 3 0 = 1 → spanUnpack fr.payload.length fr.payload = some pkts → spSeq fr = x.rxNext →
        exec i s = .next (spanTake p pkts (setSpan s p { x with
          rxNext := x.rxNext + 1, nakSent := false, ackSent := some (x.rxNext + 1, false), ackCredit := (0, 0) }))) ∧
      (∀ pkts, spanWhole fr = true → spBits fr 3 0 = 1 → spanUnpack fr.payload.length fr.payload = some pkts → seqBelow (spSeq fr) x.rxNext = true →
        exec i s = .next (setSpan s p { x with ackSent := some (x.rxNext, false), ackCredit := (0, 0) })) ∧
      (spanWhole fr = true → spBits fr 3 0 = 0 → spBits fr 44 44 = 0 → exec (.spanAck p fr.header fr.payload fr.crc fr.fec) s =
        let tx := x.tx.filter (fun e => !seqBelow e.1 (spSeq fr))
        .next (setSpan s p (spanDrain (x.outq.length + 1) (reachDrain
          { x with tx := tx, creditReq := min 512 (x.creditReq + spBits fr 54 45), creditRpl := min 512 (x.creditRpl + spBits fr 64 55),
                   replayRun := if tx.length < x.tx.length then 0 else x.replayRun }))))) ∧
    (∀ pkts, let t := forEach pkts (fun k s => spanRoute p k s) s
      let y := getSpan t p
      spanTake p pkts s = modSpan t p (fun z => if z.st != 2 then z else { z with
        ackCredit := (classWords false pkts + classWords false x.hold - classWords false y.hold, classWords true pkts) })) ∧
    (∀ k : SpanPkt, k.dwafer < 64 → k.swafer < 64 → k.hops < 16 → k.pkt.dest < 2 ^ 20 → k.pkt.op < 32 → k.pkt.tag < 4096 → k.pkt.len < 32 →
      k.pkt.daddr < 2 ^ 20 → k.pkt.src < 2 ^ 20 → k.pkt.seq < 4096 → k.pkt.ctx < 8192 → k.pkt.arg < 2 ^ 17 → k.pkt.vc = vcOf k.pkt.op k.pkt.hold →
      k.pkt.payload.length = (if [opMsg, opWrite, opRdata].contains k.pkt.op then k.pkt.len + 1 else 0) →
      spanUnpack (spanPack k).length (spanPack k) = some [k]) ∧
    (x.st = 2 → x.tx ≠ [] →
      let t := setSpan s p { x with replays := addCnt x.replays x.tx.length, flags := x.flags ||| 2, replayRun := x.replayRun + 1 }
      exec (.replayTimeout (p + 2)) s = if x.replayRun < 15 then .next t else .next (spanTrain p (spanLinkDown p t))) ∧
    (x.st = 1 → ∀ peer, peer < 64 → peer ≠ s.span.waferId.toNat → exec (.spanUp p peer true) s = .next (raise 0x61 none none none p (setSpan s p
      { x with st := 2, peer := BitVec.ofNat 6 peer, peerV := true, clash := false, lanes := 0xFFFF, txNext := 0, rxNext := 0,
               tx := [], reachQ := [], replayRun := 0, creditReq := 512, creditRpl := 512, nakSent := false, ackSent := none }))) ∧
    (x.st = 1 → ∀ lanes, exec (.trainRetry (p + 2) lanes) s = .next (setSpan s p { x with lanes := BitVec.ofNat 16 lanes })) ∧
    (x.st = 2 → exec (.spanDown p) s = .next (spanTrain p (spanLinkDown p s)) ∧ (getSpan (spanLinkDown p s) p).st = 0 ∧
      (∀ w, w < 64 → (s.span.table.getD w {}).pri.toNat = p → ((spanLinkDown p s).span.table.getD w {}).fell = true)) ∧
    (x.st = 2 → ∀ (fr : SpanIn) (hops : Nat) (m : W64), spanWhole fr = true → spBits fr 3 0 = 2 → spSeq fr = x.rxNext →
      let named := fun w => (s.span.table.getD w {}).pri.toNat == p && m.getLsbD w
      let t := fallBack named (setSpan s p { x with
        rxNext := x.rxNext + 1, nakSent := false, ackSent := some (x.rxNext + 1, false), ackCredit := (0, 0) })
      let gone := waferMap (fun w => named w && unreachable t w)
      (15 ≤ hops ∨ gone = 0 → exec (.reach p fr hops m) s = .next t) ∧
      (hops < 15 → gone ≠ 0 → exec (.reach p fr hops m) s = .next (sendReach p (hops + 1) gone t))) ∧
    (∀ q, x.egress.any (fun r => r.seq == q) = true → exec (.relayTimeout p true q) s =
      .next (setSpan s p { x with egress := x.egress.filter (fun r => r.seq != q), stale := incCnt x.stale })) ∧
    (∀ q o, findOut s (spId p) q = some o → exec (.relayTimeout p false q) s =
      .next (spanUnhold p (modSpan (dropOut (spId p) q s) p (fun x => { x with stale := incCnt x.stale })))) ∧
    (∀ q, Taken s q 0x80 →
      let a := bitsOf (headCmd s q).a1.toNat 40 0
      let es := spanTableAt s a
      let own := es.getD s.span.waferId.toNat 0
      a % 64 = 0 → dramRange a 128 = true → rangeOff s a 128 = false → badIn s a 128 = none → es.all spanEntOk = true → own % 32 = 16 → bitsOf own 9 5 = 16 →
      exec (.spanTable q) s = .next (finish q 0 0 (modSpanCfg (takeCmd q s) (fun y => { y with
        installs := satInc y.installs, table := es.map (fun e => { pri := BitVec.ofNat 5 e, alt := BitVec.ofNat 5 (e / 32), fell := false }) })))) ∧
    (∀ q, Taken s q 0x81 → s.span.en = true → exec (.spanSluice q) s =
      .next (finish q 0 0 (modSpanCfg (takeCmd q s) (fun y => { y with sluice := (headCmd s q).a0.getLsbD 0 })))) ∧
    (∀ v : W32, s.span.en = false ∨ BitVec.ofNat 6 v.toNat = s.span.waferId →
      let t := { s with span := { s.span with waferId := BitVec.ofNat 6 v.toNat, en := v.getLsbD 6 } }
      exec (.spanCfgWrite h v) s = .next (complete h 0 [] (if v.getLsbD 6 then forEach (List.range 16) spanTrain t else forEach (List.range 16) spanLinkDown t))) ∧
    (domOn s (96 + p / 4) = true → exec (.spCtrlRetrain h p) s = .next (complete h 0 [] (spanTrain p (spanLinkDown p s))))

/-- A command taken from a queue goes on and completes with OK: POLDER_START of a LOADED polder whose budget fits, with the ticks on, makes it RUNNING with its first frame due at the next wafer tick; POLDER_HALT of a RUNNING one between frames makes it HALTED with HALT_CAUSE 1, and within a frame is left to wait for the frame's end; POLDER_RESUME makes a HALTED one RUNNING; POLDER_RESET of a LOADED or HALTED one makes it RESETTING; POLDER_RELEASE without contexts leaves it VACANT where no dirty line waits, and else lets the lines be written back. A tick that finds no write-back to come completes a reset, which leaves the polder LOADED with its units reloaded, and a release (that it is this tick is the model's choice, log 48, DESIGN CHOICE); while lines are dirty they are written back. POLDER_START in another state, with the ticks off or with a budget that does not fit completes with STATE and is logged, the last with reason BUDGET. (02 R71 to R73) -/
def Obligations.PolderCommandsRun : Prop :=
  ∀ (s : State) (q : Nat),
    let p := bitsOf (headCmd s q).a0.toNat 7 0
    let x := getPolder s p
    let t := takeCmd q s
    (Taken s q 0x02 → x.state = 1 → x.releasing = false → s.tick.run = true → ∀ c, x.cfg = some c → budgetFits c (nextPeriod s) = true →
      exec (.polderStart q) s = .next (finish q 0 0 (setPolder t p { x with state := 2, cause := 0, halting := false, abrupt := [], nextTick := s.tick.count.toNat + 1 }))) ∧
    (Taken s q 0x02 → x.state = 1 → x.releasing = false → s.tick.run = true → ∀ c, x.cfg = some c → budgetFits c (nextPeriod s) = false →
      exec (.polderStart q) s = .next (refuseState q (headCmd s q) true t)) ∧
    (Taken s q 0x02 → x.state ≠ 1 ∨ s.tick.run = false → exec (.polderStart q) s = .next (refuseState q (headCmd s q) false t)) ∧
    (∀ (c : Cmd) (b : Bool), refuseState q c b t = finish q 1 0 { t with host := { t.host with
      refused := t.host.refused ++ [{ opc := c.opc, a0 := c.a0, budget := b, tick := s.tick.count }] } }) ∧
    (Taken s q 0x03 → x.state = 2 → x.halting = false → x.abrupt = [] →
      (∀ f, x.frame = some f → exec (.polderHalt q) s = .next (setPolder t p { x with halting := true })) ∧
      (x.frame = none → ∃ u, exec (.polderHalt q) s = .next (finishWhere (isPolderCmd 0x03 p) 0 u) ∧
        getPolder u p = { x with state := 3, cause := 1, halting := false, abrupt := [], hostAt := some (mclk t) } ∧
        { u with polders := t.polders, fields := t.fields } = t)) ∧
    (Taken s q 0x04 → x.state = 3 → x.releasing = false → s.tick.run = true → x.dead = false → x.evacUnits = false → polderDown t p = false →
      exec (.polderResume q) s = .next (finish q 0 0 (runs p (dropOwn p (dikewatchDone p t))))) ∧
    (Taken s q 0x05 → x.state = 1 ∨ x.state = 3 → x.releasing = false → x.dead = false →
      ∃ u, exec (.polderReset q) s = .next u ∧ (getPolder u p).state = 4 ∧ (getPolder u p).cause = 0 ∧ (getPolder u p).cfg = x.cfg ∧
        (getPolder u p).await = none) ∧
    (Taken s q 0x06 → x.state = 1 ∨ x.state = 3 → x.releasing = false → ctxsOf s p [1, 2, 3, 4, 5] = [] →
      (polderDirty t p = false → ∃ u, exec (.polderRelease q) s = .next (finishWhere (isPolderCmd 0x06 p) 0 u) ∧
        (getPolder u p).state = 0 ∧ (getPolder u p).cfg = none ∧
        (getPolder u p).slotValid = 0 ∧ (getPolder u p).active = 7 ∧ (getPolder u p).cfgActive = 0) ∧
      (polderDirty t p = true → ∃ u, exec (.polderRelease q) s = .next u ∧ (getPolder u p).releasing = true ∧ (getPolder u p).state = x.state)) ∧
    (∀ k, k < 256 → (getPolder s k).state = 4 ∨ (getPolder s k).releasing = true →
      (polderDirty s k = true → resetTick k s = flushPolder k s) ∧
      (polderDirty s k = false → (getPolder s k).state = 4 → ∃ u, resetTick k s = finishWhere (isPolderCmd 0x05 k) 0 u ∧
        (getPolder u k).state = 1 ∧ (getPolder u k).evacUnits = false) ∧
      (polderDirty s k = false → (getPolder s k).state ≠ 4 → ∃ u, resetTick k s = finishWhere (isPolderCmd 0x06 k) 0 u ∧
        (getPolder u k).state = 0 ∧ (getPolder u k).cfg = none))

/-- Where the status table admits the command and every check passes, POLDER_LOAD goes on to staging: the configuration as decoded from the staged bytes is the polder's next one, and LD_STAT shows phase 2; POLDER_STAGE fills the slot of its argument and completes with OK; either is refused with code 17 at a memory unit whose store fails as it is written (which one, and whether any, is a free choice, log 36, DESIGN CHOICE); POLDER_SWAP makes the slot's configuration the next one; ROUTE_LOAD of tables without a cycle leaves them built for the next epoch, and of tables that make one is refused with code 15. A header or a signature of POLDER_LOAD that fails completes the command with INTEG, its code and its place. The end of staging is noted in the memory units, lets the activation follow, and LD_STAT shows phase 3. (11 R392 to R401) -/
def Obligations.ConfigCommandsRun : Prop :=
  ∀ (s : State) (q : Nat),
    let p := bitsOf (headCmd s q).a0.toNat 7 0
    let i := bitsOf (headCmd s q).a0.toNat 9 8
    let t := takeCmd q s
    let b := stagedByte t
    let x := getPolder t p
    let phase := fun (n : BitVec 2) (u : State) => { u with conf := { u.conf with phase := n } }
    (Taken s q 0x01 → confStatus t (x.state == 0) (rectFields (stagedRects b)) = none →
      let u := confBegin q 0 p 0 t
      (firstRefusal (verifyChecks t 1 b) = none → firstRefusal (polderChecks (remapWhole (stagedRects b) u) p false b) = none →
        let c := polderOf b (polderLayout p b)
        let k := storeUe c (remapWhole (stagedRects b) (phase 1 u))
        (∀ m, k = some m → exec (.polderLoad q) s = .next (storeRefused q p m (3 * bankSize) (freeUsed (phase 1 u)))) ∧
        (k = none → ∃ v, exec (.polderLoad q) s = .next v ∧ (getPolder v p).staging = some c ∧
          (getPolder v p).staged = false ∧ v.conf.phase = 2 ∧ v.conf.busy = true ∧ v.conf.digest = bsDigest b)) ∧
      (∀ code y, firstRefusal (verifyChecks t 1 b) = some (code, y) → exec (.polderLoad q) s = .next (refuse q (some p) code y u))) ∧
    (Taken s q 0x07 → confStatus t (mayStage x) (rectFields (rectsOf x)) = none →
      let u := confBegin q 1 p 0 t
      firstRefusal (verifyChecks t 1 b) = none → firstRefusal (polderChecks u p true b) = none →
        let c := polderOf b (polderLayout p b)
        let k := storeUe c (phase 1 u)
        (∀ m a, k = some m → x.cfg = some a → exec (.polderStage q) s =
          .next (storeRefused q p m (bankSize * (configBank a m).getD 3 + slotBytes * i) (slotInvalid p i (freeUsed (phase 1 u))))) ∧
        (k = none → ∃ v, exec (.polderStage q) s = .next (confEnd q 0 v) ∧ (getPolder v p).slotValid = setBit x.slotValid i ∧
          mget? (getPolder v p).slotCfg i = some c ∧ (getPolder v p).state = x.state)) ∧
    (Taken s q 0x08 → confStatus t (maySwap x i) (rectFields (rectsOf x)) = none → ∀ c, mget? x.slotCfg i = some c →
      x.state ≠ 2 ∨ budgetFits c (nextPeriod t) = true →
      exec (.polderSwap q) s = .next (setPolder (confBegin q 2 p 2 t) p
        { x with staging := some c, staged := false, swapPend := true, swapSlot := BitVec.ofNat 2 i, swapHeld := x.await.isSome })) ∧
    (Taken s q 0x09 → confStatus t (!t.epoch.armed) [] = none →
      let u := confBegin q 3 0 0 t
      let k := routeBankOf b (routeLayout b) (bankOf u u.epoch.epoch)
      firstRefusal (verifyChecks t 2 b ++ routeChecks b) = none →
      exec (.routeLoad q) s = .next (if bankSound (phase 1 u) (bankNow (phase 1 u) k) then routeStage q b (phase 1 u) else routeRefuse q (phase 1 u))) ∧
    (∀ p c, p < 256 → (getPolder s p).staging = some c → (getPolder s p).staged = false →
      let u := noteStaged c (if (getPolder s p).swapPend then (getPolder s p).swapSlot else 0) s
      exec (.stagingDone p) s = .next (phase 3 (setPolder u p { getPolder s p with staged := true })))

/-- A command taken from a queue goes on and completes with OK where the context's state admits it: CTX_OPEN of a FREE context on a polder that is LOADED, RUNNING or HALTED makes it OPEN with its settings and zero counts; CTX_SUBMIT makes an OPEN one READY; CTX_PARK parks an OPEN or READY one, and marks a RUNNING one; CTX_UNPARK makes a PARKED one READY or OPEN; CTX_PRIO sets the priority; CTX_CLOSE makes it CLOSING; CTX_RECORD copies the record of a SEALED one; CTX_FREE frees it with its mirrors and seeds. SEED_WRITE writes the seed of a context just opened. TREATMENT_ENTRY applies the next entry of the queue to its context alone; SEAL closes a CLOSING context of which no entry waits, and its record is signed. (02 R79, 03 R114, R115, 12 R431, 16 R538 to R544) -/
def Obligations.ContextsRun : Prop :=
  ∀ (s : State) (q : Nat),
    let n := bitsOf (headCmd s q).a0.toNat 12 0
    let c := headCmd s q
    let x := getCtx s n
    let t := takeCmd q s
    let y0 : Ctx := { state := 1, polder := BitVec.ofNat 8 (bitsOf c.a0.toNat 23 16), prio := BitVec.ofNat 4 (bitsOf c.a0.toNat 27 24), tag := c.a3 }
    let done := fun (y : Ctx) => Host.Outcome.next (finish q 0 0 (setCtx t n y))
    (Taken s q 0x10 → x.state = 0 →
      let p := bitsOf c.a0.toNat 23 16
      let a := bitsOf c.a1.toNat 40 0
      let k := bitsOf c.a2.toNat 14 0
      (getPolder s p).state = 1 ∨ (getPolder s p).state = 2 ∨ (getPolder s p).state = 3 → (getPolder s p).releasing = false → k ≤ 16384 → a % 4096 = 0 → dramRange a (8 * k) = true →
      ∃ u, exec (.ctxOpen q) s = .next (finish q 0 0 u) ∧ (getCtx u n).state = 1 ∧ (getCtx u n).polder.toNat = p ∧
        (getCtx u n).prio.toNat = bitsOf c.a0.toNat 27 24 ∧ (getCtx u n).tag = c.a3 ∧ (getCtx u n).ptPages.toNat = k ∧
        (getCtx u n).frames = 0 ∧ (getCtx u n).left = 0 ∧ (getCtx u n).pos = 0 ∧ (getCtx u n).shRec.dOpen = (getCtx u n).digest ∧
        (getCtx u n).digest = chain 0 (entryBytes 1 s.tick.count (openBody n y0 (getPolder s p)))) ∧
    (Taken s q 0x11 → x.state = 1 → x.seedDue = false → bitsOf c.a1.toNat 15 0 ≠ 0 → exec (.ctxSubmit q) s = done
      { x with state := 2, left := BitVec.ofNat 16 c.a1.toNat, adv := BitVec.ofNat 12 (bitsOf c.a1.toNat 27 16), readyTick := s.tick.count.toNat }) ∧
    (Taken s q 0x12 → (x.state = 1 ∨ x.state = 2 → exec (.ctxPark q) s = done { x with state := 4 }) ∧
      (x.state = 3 → exec (.ctxPark q) s = done { x with parkPend := true })) ∧
    (Taken s q 0x13 → x.state = 4 → exec (.ctxUnpark q) s =
      done (if x.left = 0 then { x with state := 1 } else { x with state := 2, readyTick := s.tick.count.toNat })) ∧
    (Taken s q 0x14 → x.state = 1 ∨ x.state = 2 ∨ x.state = 4 → exec (.ctxPrio q) s = done { x with prio := c.a1.truncate 4 }) ∧
    (Taken s q 0x15 → x.state = 1 ∨ x.state = 2 ∨ x.state = 4 → sealsPending s < 128 →
      exec (.ctxClose q) s = done { x with state := 5, left := 0, shRec := { x.shRec with reason := 0 } }) ∧
    (Taken s q 0x16 → x.state = 6 → bufferStatus t (bitsOf c.a1.toNat 40 0) (bitsOf c.a2.toNat 31 0) x.record.length = none →
      exec (.ctxRecord q) s = .next (finish q 0 x.record.length (copyBytes (bitsOf c.a1.toNat 40 0) x.record t))) ∧
    (Taken s q 0x17 → x.state = 6 → ∃ u, exec (.ctxFree q) s = .next (finish q 0 0 u) ∧
      (∀ k, getCtx u k = if k = n then {} else getCtx s k) ∧ mget 0 u.seeds n = 0 ∧ mget? (getMec u 0).mirror n = none) ∧
    (∀ k, k < 8192 → (getCtx s k).seedDue = true → ∃ u, exec (.seedWrite k) s = .next u ∧ (getCtx u k).seedDue = false ∧
      mget 0 u.seeds k = openSeed (getCtx s k) ∧ ∀ f x, (f, x) ∈ u.fields → x.up = true → mget 0 x.seeds k = openSeed (getCtx s k)) ∧
    (∀ ev rest k body more, s.sec.queue = ev :: rest → ev.ctxs = (k, body) :: more → ∃ u, exec .treatmentEntry s = .next u ∧
      u.sec.queue = (if more = [] then rest else { ev with ctxs := more } :: rest) ∧
      (getCtx u k).digest = chain (getCtx s k).digest (entryBytes ev.typ ev.tick body) ∧ (getCtx u k).state = (getCtx s k).state ∧
      ∀ j, j ≠ k → getCtx u j = getCtx s j) ∧
    (∀ k, k < 8192 → (getCtx s k).state = 5 → entryWaits s k = false → ∃ u, exec (.sealRecord k) s = .next u ∧ (getCtx u k).state = 6 ∧
      (getCtx u k).digest = chain (getCtx s k).digest (entryBytes 10 s.tick.count (closeBody (getCtx s k))) ∧
      (getCtx u k).record.length ≥ 640)

/-- PWR_DOMAIN of a domain that does not change completes with OK where it is already as asked; on (the M-cores agreeing, or one running alone) it starts a field, whose regulator ramps to its set point, or a stack, and switches a quadrant or the ports on; off, where the domain may go off, it makes a field drain from the next tick, and switches a stack or a quadrant off at once. PWR_CEIL sets the ceiling of its field alone; PWR_HINT of a polder that is not VACANT puts the hint in place of one for the same polder and field; PWR_TRUST clears SUSPECT and starts the counts again; BRN_READ copies a part of the newest committed save; BRN_CLEAR erases both saves; a write of PWR_CAP of 80 to 360 (units of 50 W) is taken. (14 R459, R460, R466, R485, R486) -/
def Obligations.PowerCommandsRun : Prop :=
  ∀ (s : State) (q : Nat),
    let c := headCmd s q
    let t := takeCmd q s
    let d := bitsOf c.a0.toNat 22 16
    let f := bitsOf c.a0.toNat 13 8
    let p := bitsOf c.a0.toNat 7 0
    let on := c.a1.getLsbD 0
    let agree := fun (differs : Bool) => differs = false ∨ s.boot.single = true
    (Taken s q 0x20 → d ≤ 100 → domChanging s d = false →
      (∀ df, on = true → (getDom s d).st = 1 → exec (.pwrDomain q df) s = .next (finish q 0 0 t)) ∧
      (∀ df, on = false → (getDom s d).st = 0 → exec (.pwrDomain q df) s = .next (finish q 0 0 t)) ∧
      (∀ df, on = true → (getDom s d).st = 0 → agree df → ∃ u, exec (.pwrDomain q df) s = .next (finish q 0 0 u) ∧
        (getDom u d).st = (if d < 96 then 3 else 1) ∧ (d < 64 → (getField u d).starting = true ∧ (getField u d).setPoint = stepSupply s d 3)) ∧
      (∀ df, on = false → (getDom s d).st = 1 → d ≠ 100 → mayOff s d = true → agree df → ∃ u,
        exec (.pwrDomain q df) s = .next (finish q 0 0 u) ∧
        (d < 64 → (getField u d).change = some { target := 4, why := .command, wait := 0 }) ∧ (64 ≤ d → (getDom u d).st = 0) ∧
        (64 ≤ d → d < 96 → u.stackBits = clrBit s.stackBits (d - 64)))) ∧
    (Taken s q 0x21 → bitsOf c.a1.toNat 2 0 ≤ 4 → ∃ u, exec (.pwrCeil q) s = .next (finish q 0 0 u) ∧
      (getField u f).ceil = bitsOf c.a1.toNat 2 0 ∧ ∀ g, g ≠ f → getField u g = getField s g) ∧
    (Taken s q 0x22 → (getPolder s p).state = 1 ∨ (getPolder s p).state = 2 ∨ (getPolder s p).state = 3 → s.tick.count.toNat < c.a2.toNat →
      bitsOf c.a3.toNat 15 0 ≠ 0 → polderIn s p f = true →
      let h : Hint := { p := p, f := f, hint := bitsOf c.a1.toNat 7 0, start := c.a2.toNat, left := bitsOf c.a3.toNat 15 0 }
      exec (.pwrHint q) s = .next (finish q 0 0 (modPower t (fun w =>
        { w with hints := w.hints.filter (fun x => !(x.p == p && x.f == f)) ++ [h] })))) ∧
    (Taken s q 0x23 → d ≤ 100 → ∃ u, exec (.pwrTrust q) s = .next (finish q 0 0 u) ∧ getDom u d = { getDom s d with suspect := false } ∧
      (d < 64 → getField u d = { getField s d with breachN := 0, clearN := 0, suspectN := 0 })) ∧
    (Taken s q 0x24 → s.power.brnSaved = true → ∀ b x, newestSave s.power = some (b, x) →
      let part := savePart s.sec.dik x (bitsOf c.a0.toNat 2 0)
      let a := bitsOf c.a1.toNat 40 0
      bufferStatus t a (bitsOf c.a2.toNat 31 0) part.length = none →
      exec (.brnRead q) s = .next (finish q 0 part.length (copyBytes a part t))) ∧
    (Taken s q 0x25 → (∀ e ∈ s.ctxs, e.2.state ≠ 5 ∨ e.2.shRec.reason ≠ 1) → ∃ u, exec (.brnClear q) s = .next (finish q 0 0 u) ∧
      u.power.save0 = none ∧ u.power.save1 = none ∧ u.power.brnSaved = false ∧ u.power.brnIncomplete = false ∧ u.power.brnCause = 0) ∧
    (∀ h v, 80 ≤ bitsOf v.toNat 8 0 → bitsOf v.toNat 8 0 ≤ 360 → exec (.pwrCapWrite h v) s =
      .next (complete h 0 [] { s with power := { s.power with cap := v.truncate 9 } }))

/-- A governor tick samples: PWR_GOV.GTICKS advances and the input registers take a sample and PIN the average of those of the tick; a reading at its trip temperature trips the module. A regulator's report enters its voltage, current and power into DOM_STAT and DOM_MEAS; one that stays away marks the domain STALE; a regulator fault marks it REG_FAULT, switches it off, and leaves a field that is up dark, to go to S4 at the next tick. A draining field writes its dirty lines back and, once none is left, is down and its domain off; a field that has started is up at S3, one in reset is up at its step; a field cooled after a thermal evacuation starts again. A coolant reading out of limit and a low input raise their warnings once. A brownout or a thermal trip halts, sheds every field and stack, writes an uncommitted save and lowers PWR_GOOD; the commit completes it; an overvoltage opens the input; at the lockout AO is dark and flash and fuses keep what they hold. (14 R461, R464, R465, R468, R471, R475 to R484, 15 R509, 18 R565, R567, R571) -/
def Obligations.PowerEventsRun : Prop :=
  ∀ (s : State),
    (∀ temps differs, (∀ r ∈ temps, r.field < 64 ∧ r.sensor ≤ 16) → s.power.govDue = true → s.power.shed = false →
      let u := governorTick temps differs s
      (tripDue u = false → exec (.governorTick temps differs) s = .next u) ∧
      (tripDue u = true → mayShed u = true → exec (.governorTick temps differs) s = .next (brownout 2 u)) ∧
      u.power.govDue = false ∧ u.power.gticks = s.power.gticks + 1 ∧ u.power.vin = Config.inputVoltage s.power.inSeen ∧
      u.power.iin = (if s.power.inputOpen then 0 else Config.inputCurrent s.power.inSeen) ∧
      u.power.pin.toNat = min ((s.power.inSum + u.power.vin.toNat * u.power.iin.toNat / 10000) / (s.power.inN + 1)) 65535) ∧
    (∀ d mv da, d ≤ 101 → Answers (exec (.regulatorReport d mv da) s) (fun u => (getDom u d).volt = BitVec.ofNat 16 mv ∧
        (getDom u d).curr = BitVec.ofNat 16 da ∧ (getDom u d).pnow.toNat = min (mv * da * 4 / 10000) 65535 ∧ (getDom u d).stale = false ∧
        (getDom u d).ppeak.toNat = max (getDom s d).ppeak.toNat (getDom u d).pnow.toNat)) ∧
    (∀ d, d ≤ 101 → (getDom s d).stale = false → Answers (exec (.regulatorStale d) s) (fun u =>
        getDom u d = { getDom s d with stale := true } ∧ u.power.flags = setBit s.power.flags 1)) ∧
    (∀ d, d ≤ 100 → (getDom s d).regFault = false → Answers (exec (.regFault d) s) (fun u => (getDom u d).regFault = true ∧
        (getDom u d).st = 0 ∧ u.power.flags.getLsbD 8 = true ∧
        (d < 64 → (getField s d).up = true → (getField u d).change = some { target := 4, why := .regulator, wait := 0 } ∧ (getField u d).dark = true))) ∧
    (∀ f, f < 64 → (getField s f).draining = true →
      let left := (fieldMus s f).any (fun u => muDirty (getMu s u) || wbackOut s u)
      (left = true → exec (.drainDone f) s = .next (forEach (fieldMus s f) flushUnit s)) ∧
      (left = false → Answers (exec (.drainDone f) s) (fun u => (getField u f).up = false ∧
        (getField u f).draining = false ∧ ((getField s f).why ≠ .ceil → (getDom u f).st = 0 ∧ (getField u f).step = 4)))) ∧
    (∀ f, f < 64 →
      ((getField s f).starting = true → (getField s f).resetPhase ≠ 2 → Answers (exec (.fieldUp f) s) (fun u => (getField u f).up = true ∧
        (getField u f).step = 3 ∧ (getField u f).starting = false ∧ (getDom u f).st = 1 ∧ (getField u f).supply = stepSupply s f 3)) ∧
      ((getField s f).resetPhase = 2 → Answers (exec (.fieldUp f) s) (fun u => (getField u f).up = true ∧
        (getField u f).resetPhase = 0 ∧ (getField u f).step = (getField s f).step))) ∧
    (∀ f, f < 64 → (getField s f).why = .thermal → (getField s f).up = false → (getField s f).starting = false → (getField s f).ceil ≠ 4 →
      (getField s f).baseTemp.toNat < s.power.tCool.toNat → s.boot.ready = true → Answers (exec (.thermalRestart f) s) (fun u =>
        (getField u f).starting = true ∧ (getDom u f).st = 3)) ∧
    (mayShed s = true → ∀ trip : Bool, Answers (exec (if trip then .thermalTrip else .brownout) s) (fun u => u.power.shed = true ∧
        u.power.pwrGood = false ∧ u.power.alert = true ∧ u.power.tripped = (s.power.tripped || trip) ∧ u.tick.run = false ∧
        u.tick.count = s.tick.count + 1 ∧ u.boot.ready = false ∧ (∀ e ∈ u.fields, e.2.up = false) ∧
        ∃ b x, openSave u.power = some (b, x) ∧ x.cause = (if trip then 2 else 1) ∧ x.tick = u.tick.count)) ∧
    (∀ inlet outlet flow, let out := decide (320 < inlet) || decide (flow < 240)
      Answers (exec (.coolantWarn inlet outlet flow) s) (fun u => u.power.inlet = BitVec.ofNat 12 inlet ∧ u.power.outlet = BitVec.ofNat 12 outlet ∧
        u.power.flow = BitVec.ofNat 12 flow ∧ u.power.coolWarn = (s.power.coolWarn || out) ∧
        u.power.flags = if out && !s.power.coolWarn then setBit s.power.flags 6 else s.power.flags)) ∧
    exec .coolantClear s = .next { s with power := { s.power with coolWarn := false } } ∧
    (∀ mv, mv < 40200 → s.power.inLow = false → s.power.ao = true → Answers (exec (.inputLow mv) s) (fun u => u.power.inLow = true ∧
        u.power.flags = setBit s.power.flags 7)) ∧
    (s.power.shed = true → (openSave s.power).isSome = true → Answers (exec .saveCommit s) (fun u => openSave u.power = none ∧
        u.power.save0 = s.power.save0.map (fun x => { x with committed := true }) ∧
        u.power.save1 = s.power.save1.map (fun x => { x with committed := true }))) ∧
    (s.power.ao = true → exec .inputOvervoltage s = .next { s with power := { s.power with inputOpen := true, pwrGood := false } }) ∧
    (s.power.ao = true → mayShed s = false → Answers (exec .aoLockout s) (fun u => u.power.ao = false ∧ u.power.save0 = s.power.save0 ∧
        u.power.save1 = s.power.save1 ∧ u.boot.fmapA = s.boot.fmapA ∧ u.boot.fmapB = s.boot.fmapB ∧ u.boot.userCalA = s.boot.userCalA ∧ u.boot.userCalB = s.boot.userCalB ∧
        u.boot.imgA = s.boot.imgA ∧ u.boot.imgB = s.boot.imgB ∧ u.sec.secret = s.sec.secret ∧ u.sec.slotState = s.sec.slotState ∧
        u.sec.slotKey = s.sec.slotKey ∧ u.sec.svnMin = s.sec.svnMin ∧ u.sec.nonce = s.sec.nonce ∧ u.dram = []))

/-- RST_UNIT returns its unit, and RST_CLUSTER every unit of the cluster that is not fenced, to the state at activation of its active configuration; of a memory unit that lost a line to a refused write-back DRAM_ERR stays. Their routers answer TARGET_RESET until the reset is over, and the command completes then. RST_FIELD takes its field down and keeps it for its restoration; the discard follows. RST_WAFER and the reset input leave TICK_COUNT 0, every polder VACANT, every sync object unallocated, the archive empty and the queues at 0, and boot from the network step on; a power-up boots from AO, and the boot's steps follow on steps without a command. A stack's training, a field controller that does not start, and the end of the boot have the effects of the boot table. A heartbeat, a lost and a restarted M-core, a write of the fault map and its retry change the registers they name; a write of the fault map leaves the newest valid copy as it is. CAL_WRITE of a good table keeps it in flash beside the newest one before; CAL_READ copies a table. (15 R489, R492 to R500, R503, R505, R508 to R511, R523) -/
def Obligations.ResetsAndBootRun : Prop :=
  ∀ (s : State) (q : Nat),
    let c := headCmd s q
    let t := takeCmd q s
    let u := bitsOf c.a0.toNat 19 0
    let f := bitsOf c.a0.toNat 29 24
    let back := fun (w : State) (v : Nat) =>
      (∀ k m, activeCfg s v = (.cc k, m) → getCore w v = coreActivate k m (getCore s v)) ∧
      (∀ k m, activeCfg s v = (.mu k, m) → ∃ lost, getMu w v =
          (if lost then { muActivate k (getMu s v) with flags := setBit (muActivate k (getMu s v)).flags 2, lost := true } else muActivate k (getMu s v)) ∧
        (lost = true → (getMu s v).lost = true ∨ muDirty (getMu s v) = true ∨ ∃ x ∈ s.flights, x.loc = .inject ∧ x.pkt.src = v)) ∧
      (∀ k m, activeCfg s v = (.sfu k, m) → getSfu w v = sfuActivate k (getSfu s v))
    let booting := fun (w : State) => w.boot.ready = false ∧ (w.boot.phase = 2 ∨ w.boot.phase = 7)
    let cleared := fun (w : State) => w.tick.count = 0 ∧ (∀ p, (getPolder w p).state = 0) ∧ w.objs = [] ∧ w.conf.archive = [] ∧
      w.conf.archUsed = 0 ∧ ∀ k, (getQ w k).sqHead = 0 ∧ (getQ w k).sqTail = 0
    let a := bitsOf c.a1.toNat 40 0
    let n := bitsOf c.a2.toNat 31 0
    (Taken s q 0x40 → resettable s u = true → fieldDown s (fieldOf u) = false →
      Answers (exec (.rstUnit q) s) (fun w => back w u ∧ w.boot.unitResets = s.boot.unitResets ++ [([u], q)])) ∧
    (Taken s q 0x41 → isUnit u = true → fieldDown s (fieldOf u) = false →
      (∀ v ∈ span (clusterOf u) (clusterOf u + 11), unitFenced s v = false → resettable s v = true) →
      Answers (exec (.rstCluster q) s) (fun w => (∀ v ∈ span (clusterOf u) (clusterOf u + 11), unitFenced s v = false → back w v) ∧
        w.boot.unitResets = s.boot.unitResets ++ [((span (clusterOf u) (clusterOf u + 11)).filter (fun v => !unitFenced s v), q)])) ∧
    (∀ us, (us, q) ∈ s.boot.unitResets → u ∈ us → rowAbsent s u = false → portCode s u = some nkReset) ∧
    (∀ us, s.boot.unitResets = [(us, q)] → resetsEnd s = finish q 0 0 (modBoot s (fun b => { b with unitResets := [] }))) ∧
    (Taken s q 0x42 → fieldDown s f = false → (∀ p ∈ poldersIn s 2, polderIn s p f = false ∧ transitIn s p f = false) →
      Answers (exec (.rstField q) s) (fun w => (getField w f).up = false ∧ (getField w f).saved = true ∧ (getField w f).resetPhase = 1)) ∧
    (∀ f, f < 64 → (getField s f).resetPhase = 1 → Answers (exec (.fieldResetDiscard f) s) (fun w => (getField w f).resetPhase = 2 ∧
        (∀ x ∈ w.flights, flightField x ≠ some f) ∧ getMbx w f = {})) ∧
    (Taken s q 0x43 → Answers (exec (.rstWafer q) s) (fun w => booting w ∧ cleared w)) ∧
    (s.power.ao = true → 2 ≤ s.boot.phase.toNat → (s.power.shed = true → openSave s.power = none) → Answers (exec .resetInput s) (fun w =>
        booting w ∧ w.power.resetHeld = false ∧ (s.boot.phase ≠ 7 → cleared w ∧ w.power.shed = false ∧ w.power.pwrGood = true))) ∧
    (s.power.ao = false ∨ (s.power.shed = true ∧ s.power.tripped = false ∧ openSave s.power = none) ∨
        (s.power.shed = false ∧ (s.power.inputOpen = true ∨ s.boot.phase = 0)) →
      Answers (exec .powerUp s) (fun w => w.power.ao = true ∧ w.power.inputOpen = false ∧
        (if Config.shallotGood then w.boot.phase = 1 ∧ w.sec.dik = dikOf s.sec.secret ∧ w.sec.keyRegs = dikOf s.sec.secret
         else w.boot.phase = 7 ∧ w.boot.err = 1 ∧ w.power.alert = true) ∧ (s.power.ao = false → w.dbg.ir = 2))) ∧
    (s.power.ao = true → s.power.shed = false → s.boot.ready = false →
      let w := bootIdle s
      (s.boot.phase = 1 → booting w ∧ (chooseImage s = none → w.boot.phase = 7 ∧ w.boot.err = 2) ∧
        (∀ isB, chooseImage s = some isB → w.boot.runB = isB ∧ w.boot.mc0 = Config.mcoreGood 0 ∧ w.boot.mc1 = Config.mcoreGood 1 ∧
          (w.boot.mc0 = false → w.boot.mc1 = false → w.boot.phase = 7 ∧ w.boot.err = 4) ∧
          (w.boot.phase = 2 → w.power.pwrGood = true ∧ ∀ g, g < 64 → Config.fieldGood g = true →
            (getField w g).up = true ∧ (getField w g).step = 3 ∧ (getField w g).held = true ∧ (getDom w g).st = 1))) ∧
      (s.boot.phase = 2 → (w.boot.phase = 3 ∨ w.boot.phase = 4) ∧ domOn w 100 = true ∧ (∀ k, k < 4 → domOn w (96 + k) = true) ∧
        ∀ n, n < 32 → s.boot.fmap.stackBits.getLsbD n = false → (getDom w (64 + n)).st = 3 ∧ w.stackBits.getLsbD n = false) ∧
      (s.boot.phase = 4 → wavesDone s = false → w.boot.wave = s.boot.wave + 1 ∧ w.boot.phase = 4 ∧
        ∀ g, s.boot.wave * waveSize s ≤ g → g < (s.boot.wave + 1) * waveSize s → (getField w g).held = false ∧
          ∀ u, isUnit u = true → fieldOf u = g → (getCore w u).sram = [] ∧ (getMu w u).mem = []) ∧
      (s.boot.phase = 3 ∨ (s.boot.phase = 4 ∧ wavesDone s = true) → w = s)) ∧
    (∀ n ok, n < 32 → (getDom s (64 + n)).st = 3 → domOn s (96 + n / 8) = true → Answers (exec (.stackTraining n ok) s) (fun w =>
        if ok then w.stackBits = setBit s.stackBits n ∧ (getDom w (64 + n)).st = 1
        else w.boot.fmap.stackBits.getLsbD n = true ∧ w.boot.mapDue = true ∧ (getDom w (64 + n)).st = 0)) ∧
    (∀ f, f < 64 → s.boot.ready = false → s.boot.phase = 2 ∨ s.boot.phase = 3 ∨ s.boot.phase = 4 → fieldDown s f = false → Answers (exec (.fcStartTimeout f) s) (fun w =>
        fieldDown w f = true ∧ w.boot.fmap.fenced.getLsbD f = true ∧ w.boot.mapDue = true ∧ (getField w f).firmware = none)) ∧
    (∀ faults, s.boot.ready = false → s.boot.phase = 4 → wavesDone s = true → Answers (exec (.bootDone faults) s) (fun w =>
        w.boot.ready = true ∧ w.boot.phase = 5 ∧ w.boot.waves = BitVec.ofNat 5 (bootWaves s))) ∧
    exec .heartbeat s = .next { s with boot := { s.boot with
      hb0 := if s.boot.mc0 then s.boot.hb0 + 1 else s.boot.hb0, hb1 := if s.boot.mc1 then s.boot.hb1 + 1 else s.boot.hb1 } } ∧
    (∀ m, m < 2 → s.boot.mc0 = true → s.boot.mc1 = true → Answers (exec (.mgcCoreLost m) s) (fun w => w.boot.single = true ∧
        w.boot.mc0 = decide (m ≠ 0) ∧ w.boot.mc1 = decide (m ≠ 1) ∧ w.boot.hbMisses = satInc s.boot.hbMisses)) ∧
    (∀ m, m < 2 → (m = 0 → s.boot.mc0 = false) → (m = 1 → s.boot.mc1 = false) → exec (.mgcCoreRestart m) s =
      .next { s with boot := { s.boot with mc0 := true, mc1 := true, single := false } }) ∧
    (∀ ok, let written := fun (w : State) =>
        (∀ m, fmapFlash s.boot = some m → w.boot.fmapA = some m ∨ w.boot.fmapB = some m) ∧
        (if ok then (w.boot.fmapA = some s.boot.fmap ∨ w.boot.fmapB = some s.boot.fmap) ∧ w.boot.mapDue = false ∧ w.boot.mapRetry = false
         else w.boot.mapRetry = true ∧ w.boot.flags = setBit s.boot.flags 5)
      (s.boot.mapDue = true → s.boot.mapRetry = false → Answers (exec (.faultMapWrite ok) s) written) ∧
      (s.boot.mapRetry = true → Answers (exec (.mapWriteRetry ok) s) written)) ∧
    (Taken s q 0x49 → sourceStatus t a n = none → calStatus t (rdN t.dram a n) = 0 →
      let b := (rdN t.dram a n).take (leNat (((rdN t.dram a n).drop 8).take 4))
      exec (.calWrite q) s = .next (finish q 0 0 { t with boot := calPut b t.boot }) ∧ (userCal (calPut b t.boot)).map (·.2) = some b ∧
      (∀ x, userCal t.boot = some x → (calPut b t.boot).userCalA = some x ∨ (calPut b t.boot).userCalB = some x)) ∧
    (Taken s q 0x4A → let bs := if c.a0.getLsbD 0 then (userCal s.boot).elim [] (·.2) else factoryBytes
      bufferStatus t a n bs.length = none → exec (.calRead q) s = .next (finish q 0 bs.length (copyBytes a bs t)))

/-- A corrected SRAM error of a unit is counted in its register. Any other detected fault of a unit that is present, not fenced and in a field that is up fences the unit, marks its serving slot in the fault map, which is due to be written, sets the fault flag and joins the faults under repair with its cause: 1 arithmetic, 2 SRAM, 3 logic, 4 an unanswered probe, 5 the host's RPR_FENCE. A fault in a row's switches fences the row. A liveness probe goes to a unit of a RUNNING polder and waits for its answer. The decision of a repair allows a replay only where the M-cores agree and both run; its end counts, unfences what moved and starts on the faults that came later. RPR_IMAGE registers or removes an image map, RPR_RESTORE writes its records, RPR_CLEAR clears a fault bit that is no factory fault, RPR_MAP_READ copies the map, with the stacks whose domain is off. (15 R513 to R523, R583, 04 R130, 05 R202, 03 R121) -/
def Obligations.FaultsAndRepairRun : Prop :=
  ∀ (s : State) (q : Nat),
    let c := headCmd s q
    let t := takeCmd q s
    let p := bitsOf c.a0.toNat 7 0
    let u := bitsOf c.a0.toNat 19 0
    let f := bitsOf c.a0.toNat 29 24
    let hit := fun (w : State) (v cause : Nat) =>
      unitFenced w v = true ∧ slotBad (fmapRow w (fieldOf v) (siteOf s v).1) (chainOf v) (siteOf s v).2 = true ∧ w.boot.mapDue = true ∧
      w.boot.flags.getLsbD 0 = true ∧ ∃ r ∈ pendingFaults w, r.unit = v ∧ r.cause = cause
    (∀ v, isCc v = true → faultable s v = true → Answers (exec (.faultArith v) s) (fun w => hit w v 1)) ∧
    (∀ v addr, (isCc v = true ∧ addr < 0xC000) ∨ (isMu v = true ∧ addr < 0xC0000) → faultable s v = true →
      Answers (exec (.faultSram v ⟨addr, false⟩) s) (fun w => hit w v 2) ∧
      exec (.faultSram v ⟨addr, true⟩) s = .next (if isMu v then modMu s v (fun m => { m with ecc := satInc16 m.ecc })
        else modCore s v (fun k => { k with sramEcc := satInc16 k.sramEcc }))) ∧
    (∀ v, isUnit v = true → faultable s v = true → Answers (exec (.logicFault v) s) (fun w => hit w v 3)) ∧
    (∀ f prow, f < 64 → prow < 100 → (getField s f).up = true → (fmapRow s f prow).row ≠ 2 → Answers (exec (.switchFault f prow) s) (fun w =>
        (fmapRow w f prow).row = 2 ∧ w.boot.mapDue = true ∧ w.boot.flags.getLsbD 0 = true)) ∧
    (∀ f, f < 64 → (getField s f).up = true → (getField s f).probes.Nodup → probed s f ≠ [] → Answers (exec (.livenessProbe f) s) (fun w =>
        ∃ v ∈ probed s f, v ∈ (getField w f).probes ∧ (getField w f).probeFrom = v + 1)) ∧
    (∀ v p, isUnit v = true → v ∈ (getField s (fieldOf v)).probes → ownerOf s v = some p → (getPolder s p).state = 2 → faultable s v = true →
      Answers (exec (.probeTimeout v) s) (fun w => hit w v 4 ∧ v ∉ (getField w (fieldOf v)).probes)) ∧
    (∀ differs other r, s.boot.repair = some r → r.ticked = true → r.decided = false → faultsHalted s r = true →
      Answers (exec (.repairDecision differs other) s) (fun w => ∃ r', w.boot.repair = some r' ∧ r'.decided = true ∧
        r'.replay = (!differs && !s.boot.single) ∧ ∀ x ∈ r.faults, x ∈ r'.faults)) ∧
    (∀ unclean r, s.boot.repair = some r → r.decided = true → Answers (exec (.repairDone unclean) s) (fun w =>
        w.boot.count = incCnt s.boot.count ∧ w.boot.later = [] ∧
        w.boot.repair = (if s.boot.later = [] then none else some { faults := s.boot.later }) ∧
        ∀ v ∈ r.moved, (getField s (fieldOf v)).up = true → unitFenced w v = false)) ∧
    (Taken s q 0x44 → let a := bitsOf c.a1.toNat 40 0
      let n := bitsOf c.a2.toNat 23 0
      (getPolder s p).state ≠ 0 → n ≤ 4194304 → n = 0 ∨ (a % 16 = 0 ∧ dramRange a (16 * n) = true) →
      ∃ w, exec (.rprImage q) s = .next (finish q 0 0 w) ∧ (getPolder w p).image = (if n = 0 then none else some (a, n)) ∧
        (getPolder w p).wgtValid = false) ∧
    (Taken s q 0x45 → (getPolder s p).state = 1 ∨ (getPolder s p).state = 3 → (getPolder s p).image ≠ none →
      let r := imageWrite p (fun v => isUnit v && c.a1.getLsbD (fieldOf v)) t
      ∃ w, exec (.rprRestore q) s = .next (finish q 0 r.1.1 w) ∧ (r.1.2.2 = true → w.boot.flags.getLsbD 4 = true) ∧
        (getPolder w p).wgtValid = false) ∧
    (Taken s q 0x46 → isUnit u = true → ownerOf s u ≠ none → unitFenced s u = false → rowAbsent s u = false → fieldDown s (fieldOf u) = false →
      ∃ w, exec (.rprFence q) s = .next (finish q 0 0 w) ∧ hit w u 5) ∧
    (Taken s q 0x47 → let r := bitsOf c.a1.toNat 6 0
      let ch := bitsOf c.a1.toNat 8 7
      let slot := bitsOf c.a1.toNat 15 9
      (∀ p ∈ poldersHeld s, polderIn s p f = false) → fieldDown s f = false → r ≤ 99 → ch = 3 ∨ slot < (chainSlots ch).1 →
      (fmapRow s f r).factory = false ∨ isFactory f r ch slot = false →
      ∃ w, exec (.rprClear q true) s = .next (finish q 0 0 w) ∧ w.boot.mapDue = true ∧
        (if ch = 3 then (fmapRow w f r).row = 0 else slotBad (fmapRow w f r) ch slot = false)) ∧
    (Taken s q 0x48 → let a := bitsOf c.a1.toNat 40 0
      let m := mapBytes { s.boot.fmap with stackBits := s.boot.fmap.stackBits ||| stacksOff s }
      bufferStatus t a (bitsOf c.a2.toNat 31 0) m.length = none → exec (.rprMapRead q) s = .next (finish q 0 m.length (copyBytes a m t)))

/-- SEC_CERT_READ and SEC_KEY_READ copy 256 bytes. SEC_ENROL of a request whose layout, states and proof hold enrols or revokes its slot and advances the nonce. SEC_FW_UPDATE of a valid image begins to write the flash copy that is not running, which is not valid until the write ends, and answers BUSY while another update runs; the write ends on a step without a command (log 42, DEDUCED), completes the command and raises 0x82; SEC_FW_COMMIT raises the SVN floor to the running image's. SEC_MEASURE of a polder that is LOADED or HALTED with an image map gives it the digest of the bytes measured and its length as RESULT. SEC_JOURNAL sets an empty ring; a write of SEC_JNL_HEAD in its range, in multiples of 8, is taken. (16 R530 to R537, R545, R547, R548) -/
def Obligations.SecurityRuns : Prop :=
  ∀ (s : State) (q : Nat),
    let c := headCmd s q
    let t := takeCmd q s
    let p := bitsOf c.a0.toNat 7 0
    let a := bitsOf c.a1.toNat 40 0
    let n := bitsOf c.a2.toNat 31 0
    let num := fun (b : List Byte) (i k : Nat) => leNat ((b.drop i).take k)
    let keys := (List.range 4).flatMap (keyBytes s)
    (Taken s q 0x60 → bufferStatus t a n 256 = none → exec (.secCertRead q) s = .next (finish q 0 256 (copyBytes a (certBytes s.sec.secret) t))) ∧
    (Taken s q 0x66 → bufferStatus t a n 256 = none → exec (.secKeyRead q) s = .next (finish q 0 256 (copyBytes a keys t))) ∧
    (Taken s q 0x61 → sourceStatus t a 256 = none → let b := rdN t.dram a 256
      enrolShape b = true → enrolState t b = true → enrolProof t b = true →
      let k := num b 7 1
      let on := num b 6 1 = 1
      ∃ u, exec (.secEnrol q) s = .next (finish q 0 0 u) ∧ u.sec = { s.sec with
        slotState := lset s.sec.slotState k (if on then 1 else 2),
        slotKey := (if on then lset s.sec.slotKey k (BitVec.ofNat 456 (num b 0x28 57)) else s.sec.slotKey), nonce := s.sec.nonce + 1 }) ∧
    (Taken s q 0x62 → sourceStatus t a n = none → let b := rdN t.dram a n
      12 ≤ n → num b 8 4 = n → imageValid t b n = true →
      let i : FwImage := { good := true, svn := BitVec.ofNat 6 (num b 0xC 4), version := BitVec.ofNat 64 (num b 0x10 8),
                           fc := bytesWords ((num b 0x1C 4 + 7) / 8) ((b.drop (num b 0x18 4)).take (num b 0x1C 4)) }
      let j : FwImage := { i with good := false }
      (s.boot.fwWrite ≠ none → exec (.secFwUpdate q) s = .next (finish q stBusy 0 t)) ∧
      (s.boot.fwWrite = none → exec (.secFwUpdate q) s = .next { t with boot :=
        (if s.boot.runB then { s.boot with imgA := j, fwWrite := some (q, false, i) } else { s.boot with imgB := j, fwWrite := some (q, true, i) }) })) ∧
    (∀ k toB i, s.boot.fwWrite = some (k, toB, i) → fwEnd s = finish k 0 0 (raise 0x82 none none none (i.version.toNat % 2 ^ 32 + 2 ^ 32 * i.svn.toNat)
      { s with boot := (if toB then { s.boot with imgB := i, fwWrite := none } else { s.boot with imgA := i, fwWrite := none }) })) ∧
    (Taken s q 0x63 → s.boot.marrowAlt = false → ∃ u, exec (.secFwCommit q) s = .next (finish q 0 0 u) ∧
      u.sec = { s.sec with svnMin := u.sec.svnMin } ∧ u.sec.svnMin.toNat = max s.sec.svnMin.toNat s.boot.svnRun.toNat) ∧
    (Taken s q 0x64 → (getPolder s p).state = 1 ∨ (getPolder s p).state = 3 → ∀ x, (getPolder s p).image = some x →
      ∀ bs, weightBytes t x.1 x.2 = some bs → ∃ u, exec (.secMeasure q) s = .next (finish q 0 bs.length u) ∧
        getPolder u p = { getPolder s p with wgtDigest := Config.shake256 bs, wgtValid := true, measures := satInc (getPolder s p).measures }) ∧
    (Taken s q 0x65 → c.a1.toNat % 64 = 0 → c.a2.toNat % 65536 = 0 → c.a2.toNat ≤ 0x40000000 → dramRange c.a1.toNat c.a2.toNat = true →
      inConfArea t c.a1.toNat c.a2.toNat = false → rangeOff t c.a1.toNat c.a2.toNat = false →
      exec (.secJournal q) s = .next (finish q 0 0 { t with sec := { t.sec with
        jnlBase := c.a1.truncate 41, jnlSize := c.a2.truncate 31, jnlHead := 0, jnlTail := 0 } })) ∧
    (∀ h v, bitsOf v.toNat 29 0 % 8 = 0 → s.sec.jnlSize = 0 ∨ bitsOf v.toNat 29 0 < s.sec.jnlSize.toNat →
      exec (.secJnlHeadWrite h v) s = .next (complete h 0 [] { s with sec := { s.sec with jnlHead := v.truncate 30 } }))

/-- A REQ frame with the expected SEQ is taken, acknowledged and makes its access; another is discarded, with the acknowledgement or the one NAK that it calls for; one beyond 1,024 outstanding requests is answered with BUSY; the standby port discards it (log 26, DESIGN CHOICE). The access is of a register of the device control region, which is answered at once with OK and its value, or takes the written value; of DRAM, as reads by 256-byte block, or writes by half of one, from the port that carries it. JTAG takes its address, and answers the register it names, or BUSY after a failed boot for what it does not reach there; SMBus and the management Ethernet answer a register's value without clearing it, and a command that is none with NACK or status 1. An access through a debug window sends one DBG packet, and a DBG packet at its target is answered with the words read, or acknowledged. DBG_SNAPSHOT copies the words of every unit of its type. SQ_TAIL and CQ_HEAD take the values written. MBX_LOCK gives a free lock to its reader; its owner writes the slot, sends and unlocks; a field controller takes the message. (12 R411 to R416, R427, R433 to R437, 17 R550 to R554, R561 to R563, 18 R572, R573, 00 R12) -/
def Obligations.HostAccessesRun : Prop :=
  ∀ (s : State),
    (∀ fr : LinkFrame, fr.port < 2 → portUp s fr.port = true → frGood fr = true → frType fr = 1 →
      let h : Req := { port := fr.port, sender := frSender fr, tag := frTag fr }
      let s0 := noteFec fr s
      let x := getPort s0 fr.port
      let t := setPort s0 fr.port { x with rxNext := x.rxNext + 1, nakSent := false, ackSent := some (x.rxNext + 1, false), reqs := incCnt x.reqs }
      let y := if seqBelow (frSeq fr) x.rxNext then { x with ackSent := some (x.rxNext, false) }
        else if x.nakSent then x else { x with nakSent := true, ackSent := some (x.rxNext, true) }
      let a := frAddr fr
      let n := 8 * (frRwords fr + 1)
      let n' := 8 * frWords fr
      (s.host.mode = true → activePort s ≠ some fr.port →
        (frOp fr ≠ 1 → exec (.hostRead fr) s = .next s0) ∧ (frOp fr ≠ 0 → exec (.hostWrite fr) s = .next s0)) ∧
      (s.host.mode = false ∨ activePort s = some fr.port →
      (frSeq fr ≠ x.rxNext → (frOp fr ≠ 1 → exec (.hostRead fr) s = .next (setPort s0 fr.port y)) ∧
        (frOp fr ≠ 0 → exec (.hostWrite fr) s = .next (setPort s0 fr.port y))) ∧
      (frSeq fr = x.rxNext → portOutstanding s fr.port ≥ 1024 → (frOp fr ≠ 1 → exec (.hostRead fr) s = .next (complete h stBusy [] t)) ∧
        (frOp fr ≠ 0 → exec (.hostWrite fr) s = .next (complete h stBusy [] t))) ∧
      (frSeq fr = x.rxNext → portOutstanding s fr.port < 1024 → frOp fr = 0 → frWords fr = 0 →
        (regionOf a n = some .ctl → regSize a n = true → regOff t a = false → exec (.hostRead fr) s =
          .next (complete h 0 (regValue t a n) (regSeen (8 * (a / 8)) (a % 8 == 0) (n != 4 || a % 8 == 4) t))) ∧
        (regionOf a n = some .dram → bulkSize a n = true → a - 0x40000000000 + n ≤ 2 ^ 41 → exec (.hostRead fr) s =
          .next (issue h false n (dramParts t h false (a - 0x40000000000) n []) t))) ∧
      (frSeq fr = x.rxNext → portOutstanding s fr.port < 1024 → frOp fr = 1 → 1 ≤ frWords fr → frWords fr ≤ 64 →
        (regionOf a n' = some .ctl → exec (.hostWrite fr) s =
          .next (complete h (regWrite a n' (fr.payload.headD 0) t).1 [] (regWrite a n' (fr.payload.headD 0) t).2)) ∧
        (regionOf a n' = some .dram → bulkSize a n' = true → let pa := a - 0x40000000000
          overlaps pa n' (archiveArea s).1 (archiveArea s).2 = false →
          s.conf.busy = false ∨ overlaps pa n' (stagingArea s).1 (stagingArea s).2 = false → exec (.hostWrite fr) s =
            .next (issue h true n' (dramParts t h true pa n' fr.payload) t))))) ∧
    (∀ h a n v, jtagBusy s h a = true → exec (.rcRead h a n) s = .next (complete h stBusy [] s) ∧
      exec (.registerWrite h a n v) s = .next (complete h stBusy [] s)) ∧
    (∀ h a n v, jtagBusy s h a = false → regionOf a n = some .ctl →
      (regSize a n = true → regOff s a = false → exec (.rcRead h a n) s =
        .next (complete h 0 (regValue s a n) (regSeen (8 * (a / 8)) (a % 8 == 0) (n != 4 || a % 8 == 4) s))) ∧
      exec (.registerWrite h a n v) s = .next (complete h (regWrite a n v s).1 [] (regWrite a n v s).2)) ∧
    (s.power.ao = true →
      (∀ v : W64, v.getLsbD 48 = true → exec (.jtagDbgAddr v) s = .next { s with dbg := { s.dbg with ir := 0x10, jAddr := v.truncate 50 } }) ∧
      (∀ v : W64, v.getLsbD 48 = false → s.boot.phase ≠ 7 →
        let a := bitsOf v.toNat 47 0
        let n := if v.getLsbD 49 then 8 else 4
        let t : State := { s with dbg := { s.dbg with ir := 0x10, jAddr := v.truncate 50, jDone := false } }
        regionOf a n = some .ctl → regSize a n = true → regOff s a = false → Answers (exec (.jtagDbgAddr v) s) (fun u =>
          u.dbg.jDone = true ∧ u.dbg.jStatus = 0 ∧ u.dbg.jData = (regValue t a n).headD 0)) ∧
      (∀ v : W64, s.boot.phase ≠ 7 →
        let a := bitsOf s.dbg.jAddr.toNat 47 0
        let n := if s.dbg.jAddr.getLsbD 49 then 8 else 4
        let t : State := { s with dbg := { s.dbg with ir := 0x11, jDone := false } }
        regionOf a n = some .ctl → Answers (exec (.jtagDbgData v) s) (fun u =>
          u.dbg.jDone = true ∧ u.dbg.jStatus = BitVec.ofNat 3 (regWrite a n v t).1))) ∧
    (s.power.ao = true → ∀ cmd, cmd < 256 →
      (∀ r, sideReg cmd = some r → sideOpen s cmd = true →
        exec (.smbusBlockRead cmd) s = .next { s with dbg := { s.dbg with smb := some ((regValue s r.1 r.2).headD 0), smbNack := false } } ∧
        exec (.requestDatagram cmd) s = .next { s with dbg := { s.dbg with
          eth := [BitVec.ofNat 8 cmd, 0, 0, 0] ++ toLe 8 ((regValue s r.1 r.2).headD 0).toNat } }) ∧
      (sideReg cmd = none → exec (.smbusBlockRead cmd) s = .next { s with dbg := { s.dbg with smb := none, smbNack := true } } ∧
        Answers (exec (.requestDatagram cmd) s) (fun u => u.dbg.eth.take 4 = [BitVec.ofNat 8 cmd, 1, 0, 0] ∧ u.dbg.eth.length = 12))) ∧
    (∀ h wr off words data, h.port < 3 → debugSize off words = true → (wr = true → data.length = words) → jtagBusy s h (0x110000 + 0x8000 * h.port + off) = false →
      let d := s.dbg.sel.getD h.port {}
      exec (.debugWindowAccess h wr off words data) s = .next (hostRequest (carrier h)
        { dest := d.unit.toNat, op := opDbg, len := words - 1, daddr := off / 8, src := carrier h,
          arg := b2n wr + 2 * d.space.toNat + 2 ^ 4 * b2n d.spare + 2 ^ 5 * d.j.toNat, payload := if wr then data else [] }
        (.host s.host.nextAcc 0) (openAccess h (!wr) 1 words s).2)) ∧
    (∀ u k p, dbgKind u = some k → nextReq s u opDbg = some p → (isUnit u = true → rowAbsent s u = false) → heldBackReq s u p = false → dbgLenOk p = true →
      let space := bitsOf p.arg 3 1
      let ws := (List.range (p.len + 1)).map (· + p.daddr)
      let risk := fun (t : State) => if k == .cc || k == .mu then orderRisk u p t else t
      (∀ w ∈ ws, dbgDefined s u k space w = true) →
      (bitsOf p.arg 0 0 = 0 → exec (.dbg u) s = .next (reply p p.dest opRdata p.len 0 0 (ws.map (dbgWord s u k space))
        (risk (dropReq u opDbg (forEach ws (dbgSeen u k space) s))))) ∧
      (bitsOf p.arg 0 0 = 1 → space ≠ 5 → (k = .mu → space ≠ 1) → exec (.dbg u) s = .next (reply p p.dest opAck 0 0 0 []
        (risk (dropReq u opDbg (dbgPuts u k space p.payload p.daddr s)))))) ∧
    (∀ q, Taken s q 0xA0 →
      let c := headCmd s q
      let t := takeCmd q s
      let p := bitsOf c.a0.toNat 7 0
      let space := bitsOf c.a0.toNat 10 8
      let k := typeKind (bitsOf c.a0.toNat 12 11)
      let count := bitsOf c.a2.toNat 35 20
      let ws := (List.range count).map (· + bitsOf c.a2.toNat 19 0)
      let us := (polderUnits s p).filter (fun u => dbgKind u == some k)
      (getPolder s p).state = 1 ∨ (getPolder s p).state = 3 → (∀ u ∈ us, fieldDown t (fieldOf u) = false) → bitsOf c.a0.toNat 12 11 ≠ 3 → 1 ≤ count → count ≤ 1024 →
      (∀ w ∈ ws, dbgDefined t 0 k space w = true) →
      bufferStatus t (bitsOf c.a1.toNat 40 0) (bitsOf c.a3.toNat 31 0) (8 * count * us.length) = none →
      ∃ u, exec (.dbgSnapshot q) s = .next (finish q 0 (8 * (count * us.length)) u)) ∧
    (∀ h q (v : W32), q < 8 → let x := getQ s q
      let i := v.toNat % 64
      (ringCount x.sqHead.toNat x.sqTail.toNat + ringCount x.sqTail.toNat i ≤ 63 →
        exec (.sqTail h q v) s = .next (complete h 0 [] (skipReserved 64 q (setQ s q { x with sqTail := v.truncate 6 })))) ∧
      exec (.cqHead h q v) s = .next (complete h 0 [] (skipReserved 64 q (setQ s q { x with cqHead := v.truncate 6 })))) ∧
    (∀ h n, n < 64 → domOn s n = true → h.sender ≠ 0 → h.sender < 256 → let m := getMbx s n
      (m.owner = 0 → exec (.mbxLockRead h n) s = .next (complete h 0 [0] (setMbx s n { m with owner := BitVec.ofNat 8 h.sender }))) ∧
      (m.owner ≠ 0 → exec (.mbxLockRead h n) s = .next (complete h 0 [BitVec.ofNat 64 m.owner.toNat] s)) ∧
      (m.owner.toNat = h.sender → m.full = false →
        (∀ v : W32, v.toNat % 256 = h.sender → exec (.mbxLockWrite h n v) s = .next (complete h 0 [] (setMbx s n { m with owner := 0 }))) ∧
        (∀ off data, slotSize off (8 * data.length) 256 = true → exec (.mbxSlotWrite h n off data) s =
          .next (complete h 0 [] (setMbx s n { m with data := wrN m.data off (wordsBytes data) }))) ∧
        (∀ v : W32, 1 ≤ v.toNat % 512 → v.toNat % 512 ≤ 256 → exec (.mbxSend h n v) s =
          .next (complete h 0 [] (setMbx s n { m with full := true, len := v.truncate 9 }))))) ∧
    (∀ n, n < 64 → (getMbx s n).full = true → (getField s n).up = true → Answers (exec (.mbxEmpty n) s) (fun u =>
        getMbx u n = { getMbx s n with full := false } ∧ u.host.nextEvt = s.host.nextEvt + 1))
end

