-- ==== Sys2Proof/Laws/Memory.lean ====
section
/-! SUPPORT. Sparse maps and bytes: reading after writing, and the canonical form that every memory operation keeps. -/

namespace Sys2Proof.Machine

open Sys2Proof

/-! ## Maps -/

/-- A map reads back what was just written. -/
@[simp] theorem mget_mput_same {α : Type} (d : α) (m : Map α) (k : Nat) (v : α) : mget d (mput m k v) k = v := by
  induction m with
  | nil => simp [mput, mget]
  | cons e m ih =>
    unfold mput
    split
    · simp [mget]
    · split
      · simp [mget]
      · rename_i h
        simp [mget, h, ih]

/-- A write leaves every other key alone. -/
theorem mget_mput_other {α : Type} (d : α) (m : Map α) (k j : Nat) (v : α) (h : j ≠ k) :
    mget d (mput m k v) j = mget d m j := by
  have hk : ¬k = j := fun e => h e.symm
  induction m with
  | nil => simp [mput, mget, hk]
  | cons e m ih =>
    unfold mput
    split
    · rw [mget, if_neg hk]
    · split
      · rename_i h'
        have hj : ¬e.1 = j := fun x => hk (h' ▸ x)
        simp [mget, hk, hj]
      · simp [mget, ih]

/-- Reading after writing, at any key. -/
theorem mget_mput {α : Type} (d : α) (m : Map α) (k j : Nat) (v : α) :
    mget d (mput m k v) j = if j = k then v else mget d m j := by
  split
  · rename_i h
    rw [h, mget_mput_same]
  · rename_i h
    exact mget_mput_other d m k j v h

/-! ## The canonical form -/

/-- The form as two properties of the list. -/
theorem wf_iff (m : Bytes) : Memory.wf m = true ↔ m.Pairwise (fun a b => a.1 < b.1) ∧ ∀ e ∈ m, e.2 ≠ 0 := by
  have h : keysRise m = true ↔ m.Pairwise (fun a b => a.1 < b.1) := by
    induction m with
    | nil => simp [keysRise]
    | cons e m ih =>
      cases m with
      | nil => simp [keysRise]
      | cons e' m =>
        rw [keysRise, Bool.and_eq_true, decide_eq_true_eq, ih]
        constructor
        · rintro ⟨h, h'⟩
          refine List.pairwise_cons.mpr ⟨fun x hx => ?_, h'⟩
          rcases List.mem_cons.mp hx with rfl | hx
          · exact h
          · exact Nat.lt_trans h ((List.pairwise_cons.mp h').1 x hx)
        · intro h
          have h := List.pairwise_cons.mp h
          exact ⟨h.1 e' (List.mem_cons_self ..), h.2⟩
  rw [Memory.wf, Bool.and_eq_true, h, List.all_eq_true]
  simp

/-- Any filter keeps the form. -/
theorem wf_filter (m : Bytes) (p : Nat × Byte → Bool) (h : Memory.wf m = true) : Memory.wf (m.filter p) = true := by
  rw [wf_iff] at *
  exact ⟨h.1.filter p, fun e he => h.2 e (List.mem_filter.mp he).1⟩

theorem mput_mem {α : Type} (m : Map α) (k : Nat) (v : α) (e : Nat × α) (h : e ∈ mput m k v) : e = (k, v) ∨ e ∈ m := by
  induction m with
  | nil => exact .inl (List.mem_singleton.mp h)
  | cons a m ih =>
    unfold mput at h
    split at h
    · exact (List.mem_cons.mp h).imp id id
    · split at h
      · exact (List.mem_cons.mp h).imp id (List.mem_cons_of_mem _)
      · rcases List.mem_cons.mp h with h | h
        · exact .inr (h ▸ List.mem_cons_self ..)
        · exact (ih h).imp id (List.mem_cons_of_mem _)

/-- A write keeps the keys rising. -/
theorem mput_rise {α : Type} (m : Map α) (k : Nat) (v : α) (h : m.Pairwise (fun a b => a.1 < b.1)) :
    (mput m k v).Pairwise (fun a b => a.1 < b.1) := by
  induction m with
  | nil => simp [mput]
  | cons a m ih =>
    have ha := List.pairwise_cons.mp h
    unfold mput
    split
    · rename_i hk
      refine List.pairwise_cons.mpr ⟨fun b hb => ?_, h⟩
      rcases List.mem_cons.mp hb with rfl | hb
      · exact hk
      · exact Nat.lt_trans hk (ha.1 b hb)
    · split
      · rename_i hk
        exact List.pairwise_cons.mpr ⟨fun b hb => hk ▸ ha.1 b hb, ha.2⟩
      · rename_i h1 h2
        refine List.pairwise_cons.mpr ⟨fun b hb => ?_, ih ha.2⟩
        rcases mput_mem _ _ _ _ hb with rfl | hb
        · exact Nat.lt_of_le_of_ne (Nat.not_lt.mp h1) h2
        · exact ha.1 b hb

/-- Writing a byte keeps the form. -/
theorem wf_wr8 (m : Bytes) (a : Nat) (b : Byte) (h : Memory.wf m = true) : Memory.wf (wr8 m a b) = true := by
  unfold wr8
  split
  · exact wf_filter _ _ h
  · rename_i hb
    rw [wf_iff] at *
    refine ⟨mput_rise _ _ _ h.1, fun e he => ?_⟩
    rcases mput_mem _ _ _ _ he with rfl | he
    · exact hb
    · exact h.2 e he

/-- Writing a list of bytes keeps the form. -/
theorem wf_wrN (m : Bytes) (a : Nat) (bs : List Byte) (h : Memory.wf m = true) : Memory.wf (wrN m a bs) = true := by
  induction bs generalizing m a with
  | nil => exact h
  | cons b bs ih => exact ih _ _ (wf_wr8 _ _ _ h)

/-- Writing a number keeps the form. -/
theorem wf_wrLe (m : Bytes) (a n x : Nat) (h : Memory.wf m = true) : Memory.wf (wrLe m a n x) = true := wf_wrN _ _ _ h

/-- Clearing a range keeps the form. -/
theorem wf_clearN (m : Bytes) (a n : Nat) (h : Memory.wf m = true) : Memory.wf (clearN m a n) = true := wf_filter _ _ h

/-! ## Reading after writing -/

theorem rd8_eq (m : Bytes) (a : Nat) : rd8 m a = mget 0 m a := by
  induction m with
  | nil => rfl
  | cons e m ih => simp [rd8, mget, ih]

theorem mget_merase {α : Type} (d : α) (m : Map α) (k j : Nat) :
    mget d (merase m k) j = if j = k then d else mget d m j := by
  induction m with
  | nil => simp [merase, mget]
  | cons e m ih =>
    unfold merase at ih ⊢
    by_cases hk : e.1 = k
    · have hf : (e.1 != k) = false := by simp [hk]
      rw [List.filter_cons, if_neg (by simp [hf]), ih]
      split
      · rfl
      · rename_i hj
        rw [mget, if_neg (fun x => hj (x.symm.trans hk))]
    · rw [List.filter_cons, if_pos (by simp [hk]), mget, ih]
      by_cases he : e.1 = j
      · rw [if_pos he, if_neg (fun x => hk (he.trans x)), mget, if_pos he]
      · rw [if_neg he, mget, if_neg he]

/-- A byte reads as written, and every other byte as before. -/
theorem rd8_wr8 (m : Bytes) (a j : Nat) (b : Byte) : rd8 (wr8 m a b) j = if j = a then b else rd8 m j := by
  unfold wr8
  split
  · rename_i h
    rw [rd8_eq, mget_merase, rd8_eq, h]
  · rw [rd8_eq, mget_mput, rd8_eq]

/-- A byte outside the bytes written reads as before. -/
theorem rd8_wrN_other (m : Bytes) (a : Nat) (bs : List Byte) (j : Nat) (h : j < a ∨ a + bs.length ≤ j) :
    rd8 (wrN m a bs) j = rd8 m j := by
  induction bs generalizing m a with
  | nil => rfl
  | cons b bs ih =>
    rw [List.length_cons] at h
    rw [wrN, ih _ _ (by omega), rd8_wr8, if_neg (by omega)]

/-- Byte i of the bytes written reads back. -/
theorem rd8_wrN_in (m : Bytes) (a : Nat) (bs : List Byte) (i : Nat) (h : i < bs.length) :
    rd8 (wrN m a bs) (a + i) = bs[i] := by
  induction bs generalizing m a i with
  | nil => simp at h
  | cons b bs ih =>
    cases i with
    | zero => rw [wrN, rd8_wrN_other _ _ _ _ (by omega), rd8_wr8]; simp
    | succ i =>
      have h' : i < bs.length := by simpa using h
      have e : a + (i + 1) = a + 1 + i := by omega
      rw [wrN, e, ih _ _ _ h', List.getElem_cons_succ]

/-- What was written reads back. -/
theorem rdN_wrN (m : Bytes) (a : Nat) (bs : List Byte) : rdN (wrN m a bs) a bs.length = bs := by
  induction bs generalizing m a with
  | nil => rfl
  | cons b bs ih =>
    rw [List.length_cons, rdN, wrN, ih, rd8_wrN_other _ _ _ _ (by omega), rd8_wr8, if_pos rfl]

end Sys2Proof.Machine
end

