-- ==== Sys2Proof/Laws/KeepBase.lean ====
section
/-! SUPPORT. The fixed part of the state: the waiting commands, DRAM, the interleave granule, the tick period in force and
the one to come, the states of the owner key slots and the SVN floor. For every operation that leaves all of it alone one
lemma says so. -/

namespace Sys2Proof.Machine

open Sys2Proof

/-- What the fixed part of a state is made of. -/
structure Key where
  pending : List Instr
  dram : Bytes
  ilv : BitVec 2
  tick : Tick
  slots : List (BitVec 2)
  svn : BitVec 6

/-- The fixed part of a state. -/
def keep (s : State) : Key := ⟨s.pending, s.dram, s.ilv, s.tick, s.sec.slotState, s.sec.svnMin⟩

/-- The fixed part of the state that a served request leaves. -/
def keepServe : Serve → Key
  | .done s _ => keep s
  | .refuse s _ => keep s
  | .later s => keep s
  | .wait s => keep s

@[simp] theorem keepServe_done (s : State) (d : List W64) : keepServe (.done s d) = keep s := rfl
@[simp] theorem keepServe_refuse (s : State) (c : Nat) : keepServe (.refuse s c) = keep s := rfl
@[simp] theorem keepServe_later (s : State) : keepServe (.later s) = keep s := rfl
@[simp] theorem keepServe_wait (s : State) : keepServe (.wait s) = keep s := rfl

variable {ch : Bool}

/-- What an operation that writes DRAM or the interleave granule (ch false), or the tick generator too (ch true), may do to the
fixed part: the queue, the owner key slots and the SVN floor stay, DRAM stays in canonical form, the granule legal, and the
periods in range. -/
def Ok (ch : Bool) (k k' : Key) : Prop :=
  k'.pending = k.pending ∧ k'.slots = k.slots ∧ k'.svn = k.svn ∧ (Memory.wf k.dram = true → Memory.wf k'.dram = true) ∧
    (k.ilv ≠ 3 → k'.ilv ≠ 3) ∧ (ch = false → k'.tick = k.tick) ∧
    (1000 ≤ k.tick.period.toNat ∧ 1000 ≤ k.tick.cur.toNat → 1000 ≤ k'.tick.period.toNat ∧ 1000 ≤ k'.tick.cur.toNat)

@[simp] theorem Ok_refl (k : Key) : Ok ch k k := ⟨rfl, rfl, rfl, id, id, fun _ => rfl, id⟩

theorem Ok.trans {k1 k2 k3 : Key} (h : Ok ch k1 k2) (h' : Ok ch k2 k3) : Ok ch k1 k3 :=
  ⟨h'.1.trans h.1, h'.2.1.trans h.2.1, h'.2.2.1.trans h.2.2.1, fun x => h'.2.2.2.1 (h.2.2.2.1 x),
    fun x => h'.2.2.2.2.1 (h.2.2.2.2.1 x), fun x => (h'.2.2.2.2.2.1 x).trans (h.2.2.2.2.2.1 x),
    fun x => h'.2.2.2.2.2.2 (h.2.2.2.2.2.2 x)⟩

/-- A change of the tick generator: its periods stay in range. -/
theorem Ok_tick (k : Key) (s : State) (x : Tick) (hk : Ok true k (keep s))
    (h : 1000 ≤ s.tick.period.toNat ∧ 1000 ≤ s.tick.cur.toNat → 1000 ≤ x.period.toNat ∧ 1000 ≤ x.cur.toNat) :
    Ok true k (keep { s with tick := x }) :=
  ⟨hk.1, hk.2.1, hk.2.2.1, hk.2.2.2.1, hk.2.2.2.2.1, nofun, fun w => h (hk.2.2.2.2.2.2 w)⟩

@[simp] theorem Ok_ite (k : Key) (c : Prop) [Decidable c] (a b : State) (h : Ok ch k (keep a)) (h' : Ok ch k (keep b)) :
    Ok ch k (keep (if c then a else b)) := by
  split
  · exact h
  · exact h'

theorem Ok_forEach {α : Type} (k : Key) (l : List α) (f : α → State → State) (s : State)
    (h : ∀ a t, Ok ch k (keep t) → Ok ch k (keep (f a t))) (h' : Ok ch k (keep s)) : Ok ch k (keep (forEach l f s)) := by
  unfold forEach
  induction l generalizing s with
  | nil => exact h'
  | cons a l ih => rw [List.foldl_cons]; exact ih _ (h a s h')

/-- A property of the state an outcome goes on to, if it goes on. -/
def Goes (P : State → Prop) (o : Out) : Prop := ∀ t, o = .next t → P t

@[simp] theorem Goes_next (P : State → Prop) (t : State) : Goes P (.next t) = P t := by
  simp [Goes]
@[simp] theorem Goes_fault (P : State → Prop) (r : Fault) : Goes P (.fault r) = True := by
  simp [Goes]
@[simp] theorem Goes_refused (P : State → Prop) (r : Refusal) : Goes P (.refused r) = True := by
  simp [Goes]

/-- A property of what an option holds, if it holds something. -/
def IfSome {α : Type} (P : α → Prop) (o : Option α) : Prop := ∀ t, o = some t → P t

@[simp] theorem IfSome_some {α : Type} (P : α → Prop) (t : α) : IfSome P (some t) = P t := by
  simp [IfSome]
@[simp] theorem IfSome_none {α : Type} (P : α → Prop) : IfSome P none = True := by
  simp [IfSome]
@[simp] theorem IfSome_map {α β : Type} (P : β → Prop) (g : α → β) (o : Option α) :
    IfSome P (o.map g) = IfSome (fun t => P (g t)) o := by
  cases o <;> simp

theorem IfSome_keep {o : Option State} {a b : State} (h : IfSome (fun t => keep t = keep a) o) (e : keep a = keep b) :
    IfSome (fun t => keep t = keep b) o := fun t x => (h t x).trans e

theorem IfSome_findSome {α β : Type} (P : β → Prop) (f : α → Option β) (h : ∀ a, IfSome P (f a)) (l : List α) :
    IfSome P (l.findSome? f) := by
  induction l with
  | nil => simp
  | cons a l ih =>
    rw [List.findSome?_cons]
    cases e : f a with
    | none => simpa using ih
    | some b => simpa using h a b e

/-- An update of any other field leaves the fixed part alone. -/
@[simp] theorem keep_upd (s : State) (free now tlbBusy stackBits epoch fields crossings polders ctxs seeds cores sfus mus switches
    routers mifs flights mcRows mgcGroups objs badGranules mecs ses ring conf host span power boot dbg) :
    keep { s with free := free, now := now, tlbBusy := tlbBusy, stackBits := stackBits, epoch := epoch, fields := fields,
                  crossings := crossings, polders := polders, ctxs := ctxs, seeds := seeds, cores := cores, sfus := sfus,
                  mus := mus, switches := switches, routers := routers, mifs := mifs, flights := flights, mcRows := mcRows,
                  mgcGroups := mgcGroups, objs := objs, badGranules := badGranules, mecs := mecs, ses := ses, ring := ring,
                  conf := conf, host := host, span := span, power := power, boot := boot, dbg := dbg } = keep s := by
  cases s; rfl

@[simp] theorem keep_ite (c : Prop) [Decidable c] (a b : State) : keep (if c then a else b) = if c then keep a else keep b := by
  split <;> rfl

@[simp] theorem keep_getD (s : State) (o : Option State) (h : IfSome (fun t => keep t = keep s) o) : keep (o.getD s) = keep s := by
  cases o with
  | none => rfl
  | some t => exact h t rfl

@[simp] theorem keep_forEach {α : Type} (l : List α) (f : α → State → State) (s : State)
    (h : ∀ a t, keep (f a t) = keep t) : keep (forEach l f s) = keep s := by
  unfold forEach
  induction l generalizing s with
  | nil => rfl
  | cons a l ih => rw [List.foldl_cons, ih, h]

/-- Writing DRAM so that the canonical form stays. -/
theorem Ok_dram (k : Key) (s : State) (d : Bytes) (bad : List Nat) (hk : Ok ch k (keep s))
    (h : Memory.wf s.dram = true → Memory.wf d = true) : Ok ch k (keep { s with dram := d, badGranules := bad }) :=
  ⟨hk.1, hk.2.1, hk.2.2.1, fun w => h (hk.2.2.2.1 w), hk.2.2.2.2.1, hk.2.2.2.2.2.1, hk.2.2.2.2.2.2⟩

end Sys2Proof.Machine
end

