-- ==== Sys2Proof/Laws/KeepUnits.lean ====
section
/-! SUPPORT. The operations of cores, function and memory units, the mesh, DRAM, the storage endpoints, the span and the links: what each leaves of the fixed part of the state. -/

namespace Sys2Proof.Machine

open Sys2Proof

variable {ch : Bool}

/-! ## Machine/Ops.lean -/

@[simp] theorem keep_setCore (s : State) (u : Nat) (c : Core) :
    keep (setCore s u c) = keep s := by
  unfold setCore
  simp

@[simp] theorem keep_setSfu (s : State) (u : Nat) (c : Sfu) :
    keep (setSfu s u c) = keep s := by
  unfold setSfu
  simp

@[simp] theorem keep_setMu (s : State) (u : Nat) (m : Mu) :
    keep (setMu s u m) = keep s := by
  unfold setMu
  simp

@[simp] theorem keep_setSw (s : State) (u : Nat) (w : Switch) :
    keep (setSw s u w) = keep s := by
  unfold setSw
  simp

@[simp] theorem keep_setRouter (s : State) (u : Nat) (r : Router) :
    keep (setRouter s u r) = keep s := by
  unfold setRouter
  simp

@[simp] theorem keep_setMif (s : State) (u : Nat) (m : MeshIf) :
    keep (setMif s u m) = keep s := by
  unfold setMif
  simp

@[simp] theorem keep_setField (s : State) (f : Nat) (x : Field) :
    keep (setField s f x) = keep s := by
  unfold setField
  simp

@[simp] theorem keep_setPolder (s : State) (p : Nat) (x : Polder) :
    keep (setPolder s p x) = keep s := by
  unfold setPolder
  simp

@[simp] theorem keep_setCtx (s : State) (c : Nat) (x : Ctx) :
    keep (setCtx s c x) = keep s := by
  unfold setCtx
  simp

@[simp] theorem keep_setObj (s : State) (o : Nat) (x : SyncObj) :
    keep (setObj s o x) = keep s := by
  unfold setObj
  simp

@[simp] theorem keep_setMec (s : State) (n : Nat) (x : Mec) :
    keep (setMec s n x) = keep s := by
  unfold setMec
  simp

@[simp] theorem keep_setSe (s : State) (e : Nat) (x : Se) :
    keep (setSe s e x) = keep s := by
  unfold setSe
  simp

@[simp] theorem keep_setDom (s : State) (d : Nat) (x : Dom) :
    keep (setDom s d x) = keep s := by
  unfold setDom
  simp

@[simp] theorem keep_setQ (s : State) (q : Nat) (x : CmdQ) :
    keep (setQ s q x) = keep s := by
  unfold setQ
  simp

@[simp] theorem keep_setMbx (s : State) (n : Nat) (x : Mbx) :
    keep (setMbx s n x) = keep s := by
  unfold setMbx
  simp

@[simp] theorem keep_setPort (s : State) (p : Nat) (x : NPort) :
    keep (setPort s p x) = keep s := by
  unfold setPort
  simp

@[simp] theorem keep_setSpan (s : State) (p : Nat) (x : SpanPort) :
    keep (setSpan s p x) = keep s := by
  unfold setSpan
  simp

@[simp] theorem keep_modCore (s : State) (u : Nat) (f : Core → Core) :
    keep (modCore s u f) = keep s := by
  unfold modCore
  simp

@[simp] theorem keep_modSfu (s : State) (u : Nat) (f : Sfu → Sfu) :
    keep (modSfu s u f) = keep s := by
  unfold modSfu
  simp

@[simp] theorem keep_modMu (s : State) (u : Nat) (f : Mu → Mu) :
    keep (modMu s u f) = keep s := by
  unfold modMu
  simp

@[simp] theorem keep_modSw (s : State) (u : Nat) (f : Switch → Switch) :
    keep (modSw s u f) = keep s := by
  unfold modSw
  simp

@[simp] theorem keep_modRouter (s : State) (u : Nat) (f : Router → Router) :
    keep (modRouter s u f) = keep s := by
  unfold modRouter
  simp

@[simp] theorem keep_modMif (s : State) (u : Nat) (f : MeshIf → MeshIf) :
    keep (modMif s u f) = keep s := by
  unfold modMif
  simp

@[simp] theorem keep_modField (s : State) (i : Nat) (f : Field → Field) :
    keep (modField s i f) = keep s := by
  unfold modField
  simp

@[simp] theorem keep_modPolder (s : State) (p : Nat) (f : Polder → Polder) :
    keep (modPolder s p f) = keep s := by
  unfold modPolder
  simp

@[simp] theorem keep_modCtx (s : State) (c : Nat) (f : Ctx → Ctx) :
    keep (modCtx s c f) = keep s := by
  unfold modCtx
  simp

@[simp] theorem keep_modMec (s : State) (n : Nat) (f : Mec → Mec) :
    keep (modMec s n f) = keep s := by
  unfold modMec
  simp

@[simp] theorem keep_modSe (s : State) (e : Nat) (f : Se → Se) :
    keep (modSe s e f) = keep s := by
  unfold modSe
  simp

@[simp] theorem keep_modQ (s : State) (q : Nat) (f : CmdQ → CmdQ) :
    keep (modQ s q f) = keep s := by
  unfold modQ
  simp

@[simp] theorem keep_modPort (s : State) (p : Nat) (f : NPort → NPort) :
    keep (modPort s p f) = keep s := by
  unfold modPort
  simp

@[simp] theorem keep_modSpan (s : State) (p : Nat) (f : SpanPort → SpanPort) :
    keep (modSpan s p f) = keep s := by
  unfold modSpan
  simp

@[simp] theorem keep_modDom (s : State) (d : Nat) (f : Dom → Dom) :
    keep (modDom s d f) = keep s := by
  unfold modDom
  simp

@[simp] theorem keep_modBoot (s : State) (f : Boot → Boot) :
    keep (modBoot s f) = keep s := by
  unfold modBoot
  simp

@[simp] theorem keep_modSec (s : State) (f : Sec → Sec) (h : (f s.sec).slotState = s.sec.slotState)
    (h' : (f s.sec).svnMin = s.sec.svnMin) : keep (modSec s f) = keep s := by
  unfold modSec keep
  simp [h, h']

@[simp] theorem keep_modPower (s : State) (f : Power → Power) :
    keep (modPower s f) = keep s := by
  unfold modPower
  simp

@[simp] theorem keep_modConf (s : State) (f : Conf → Conf) :
    keep (modConf s f) = keep s := by
  unfold modConf
  simp

@[simp] theorem keep_modHost (s : State) (f : HostIf → HostIf) :
    keep (modHost s f) = keep s := by
  unfold modHost
  simp

@[simp] theorem keep_takeFree (s : State) :
    keep (takeFree s).2 = keep s := by
  unfold takeFree
  simp

@[simp] theorem keep_raise (code : Nat) (polder ctx unit : Option Nat) (arg : Nat) (s : State) :
    keep (raise code polder ctx unit arg s) = keep s := by
  unfold raise
  simp

@[simp] theorem keep_eventsByCode (s0 s : State) :
    keep (eventsByCode s0 s) = keep s := by
  unfold eventsByCode
  simp

@[simp] theorem keep_sendFrame (p : Nat) (f : TxFrame) (s : State) :
    keep (sendFrame p f s) = keep s := by
  unfold sendFrame
  simp

@[simp] theorem keep_complete (h : Req) (status : Nat) (data : List W64) (s : State) :
    keep (complete h status data s) = keep s := by
  unfold complete
  repeat' split
  all_goals simp

@[simp] theorem keep_finishOne (q status result : Nat) (s : State) :
    keep (finishOne q status result s) = keep s := by
  unfold finishOne
  dsimp only
  repeat' split
  all_goals simp

@[simp] theorem keep_takeCmd (q : Nat) (s : State) :
    keep (takeCmd q s) = keep s := by
  unfold takeCmd
  simp

@[simp] theorem keep_skipReserved (n q : Nat) (s : State) : keep (skipReserved n q s) = keep s := by
  induction n generalizing s with
  | zero => rfl
  | succ n ih =>
    unfold skipReserved
    dsimp only
    split <;> simp [ih]

@[simp] theorem keep_finish (q status result : Nat) (s : State) :
    keep (finish q status result s) = keep s := by
  unfold finish
  simp

@[simp] theorem keep_refuseAt (q : Nat) (p : Option Nat) (code off : Nat) (unit : Option Nat) (s : State) :
    keep (refuseAt q p code off unit s) = keep s := by
  unfold refuseAt
  simp

@[simp] theorem keep_hostCmd (q opc : Nat) (f : Cmd → State → State) (s : State)
    (h : ∀ c t, keep (f c t) = keep t) : Goes (fun t => keep t = keep s) (hostCmd q opc f s) := by
  unfold hostCmd
  dsimp only
  repeat' split
  all_goals simp [h]

theorem ok_hostCmd (q opc : Nat) (f : Cmd → State → State) (s : State) (k : Key) (hk : Ok ch k (keep s))
    (h : ∀ c t, Ok ch k (keep t) → Ok ch k (keep (f c t))) : Goes (fun t => Ok ch k (keep t)) (hostCmd q opc f s) := by
  unfold hostCmd
  dsimp only
  repeat' split
  all_goals simp [hk, h]

@[simp] theorem keep_trEvent (typ : Nat) (ctxs : List (Nat × List Byte)) (s : State) :
    keep (trEvent typ ctxs s) = keep s := by
  unfold trEvent
  simp

@[simp] theorem keep_lostEvent (f : Frame) (cause : Nat) (s : State) :
    keep (lostEvent f cause s) = keep s := by
  unfold lostEvent
  simp

@[simp] theorem keep_faultEvent (f : Frame) (unit cause arg : Nat) (s : State) :
    keep (faultEvent f unit cause arg s) = keep s := by
  unfold faultEvent
  simp

@[simp] theorem keep_weightsEvent (p : Nat) (digest : W512) (unmeasured : Bool) (s : State) :
    keep (weightsEvent p digest unmeasured s) = keep s := by
  unfold weightsEvent
  simp

@[simp] theorem keep_weightsInvalid (p : Nat) (s : State) :
    keep (weightsInvalid p s) = keep s := by
  unfold weightsInvalid
  simp

@[simp] theorem keep_loseFrame (f : Frame) (s : State) :
    keep (loseFrame f s) = keep s := by
  unfold loseFrame
  simp

@[simp] theorem keep_idle (s : State) :
    keep (idle s) = keep s := by
  unfold idle
  simp

/-! ## Machine/MeshOps.lean -/

@[simp] theorem keep_injectAt (u : Nat) (p : Packet) (s : State) :
    keep (injectAt u p s) = keep s := by
  unfold injectAt
  simp

@[simp] theorem keep_inject (p : Packet) (s : State) :
    keep (inject p s) = keep s := by
  unfold inject
  simp

@[simp] theorem keep_arrive (p : Packet) (at_ : Nat) (s : State) :
    keep (arrive p at_ s) = keep s := by
  unfold arrive
  simp

@[simp] theorem keep_routerReply (u : Nat) (p : Packet) (s : State) :
    keep (routerReply u p s) = keep s := by
  unfold routerReply
  simp

@[simp] theorem keep_send (p : Packet) (s : State) :
    keep (send p s) = keep s := by
  unfold send
  simp

@[simp] theorem keep_request (u : Nat) (p : Packet) (use : Use) (s : State) :
    keep (request u p use s) = keep s := by
  unfold request
  simp

@[simp] theorem keep_sendWaiting (u x1 : Nat) (x2 : State) :
    keep (sendWaiting u x1 x2) = keep x2 := by
  induction x1 generalizing x2 with
  | zero => rfl
  | succ n ih =>
    unfold sendWaiting
    dsimp only
    repeat' split
    all_goals (first | simp [ih] | with_reducible assumption | with_reducible rfl)

@[simp] theorem keep_hostEnded (u : Nat) (s : State) :
    keep (hostEnded u s) = keep s := by
  unfold hostEnded
  simp

@[simp] theorem keep_hostRequest (u : Nat) (p : Packet) (use : Use) (s : State) :
    keep (hostRequest u p use s) = keep s := by
  unfold hostRequest
  simp

@[simp] theorem keep_requestOnly (u : Nat) (p : Packet) (s : State) :
    keep (requestOnly u p s) = keep s := by
  unfold requestOnly
  simp

@[simp] theorem keep_dropOut (u q : Nat) (s : State) :
    keep (dropOut u q s) = keep s := by
  unfold dropOut
  simp

@[simp] theorem keep_modOut (u q : Nat) (f : Outst → Outst) (s : State) :
    keep (modOut u q f s) = keep s := by
  unfold modOut
  simp

@[simp] theorem keep_arrivedWith (s : State) (u op : Nat) : IfSome (fun t => keep t.2 = keep s) (arrivedWith s u op) := by
  unfold arrivedWith
  intro t h
  simp only [Option.map_eq_some_iff] at h
  obtain ⟨x, _, rfl⟩ := h
  rfl

@[simp] theorem keep_orderRisk (u : Nat) (p : Packet) (s : State) :
    keep (orderRisk u p s) = keep s := by
  unfold orderRisk
  simp

@[simp] theorem keep_reply (p : Packet) (responder op len daddr arg : Nat) (payload : List W64) (s : State) :
    keep (reply p responder op len daddr arg payload s) = keep s := by
  unfold reply
  simp

@[simp] theorem keep_rtFlag (u i : Nat) (s : State) :
    keep (rtFlag u i s) = keep s := by
  unfold rtFlag
  simp

@[simp] theorem keep_nack (p : Packet) (responder code : Nat) (s : State) :
    keep (nack p responder code s) = keep s := by
  unfold nack
  simp

/-! ## Machine/Mcast.lean -/

@[simp] theorem keep_rowReply (ok : Bool) (u src seq ctx off n : Nat) (refused : List Nat) (s : State) :
    keep (rowReply ok u src seq ctx off n refused s) = keep s := by
  unfold rowReply
  simp

@[simp] theorem keep_mcSettle (s : State) :
    keep (mcSettle s) = keep s := by
  unfold mcSettle
  repeat' split
  all_goals simp

@[simp] theorem keep_mcAnswer (u : Nat) (p : Packet) (refused : Bool) (s : State) :
    keep (mcAnswer u p refused s) = keep s := by
  unfold mcAnswer
  simp

/-! ## Machine/CoreOps.lean -/

@[simp] theorem keep_traceDrop (u : Nat) (s : State) :
    keep (traceDrop u s) = keep s := by
  unfold traceDrop
  simp

@[simp] theorem keep_trace (u kind slot : Nat) (words : List W64) (s : State) :
    keep (trace u kind slot words s) = keep s := by
  unfold trace
  simp

@[simp] theorem keep_abandon (u : Nat) (s : State) :
    keep (abandon u s) = keep s := by
  unfold abandon
  simp

@[simp] theorem keep_coreTrap (u slot cause addr : Nat) (s : State) :
    keep (coreTrap u slot cause addr s) = keep s := by
  unfold coreTrap
  simp

@[simp] theorem keep_issueWith (u slot : Nat) (w : W64) (eff : State → State) (s : State) (h_eff : ∀ t, keep (eff t) = keep t) :
    keep (issueWith u slot w eff s) = keep s := by
  unfold issueWith
  simp [h_eff]

@[simp] theorem keep_coreCmd (u opc : Nat) (eff : Nat → W64 → State → State) (s : State) (h_eff : ∀ a0 a1 t, keep (eff a0 a1 t) = keep t) :
    Goes (fun t => keep t = keep s) (coreCmd u opc eff s) := by
  unfold coreCmd
  repeat' split
  all_goals simp [h_eff]

@[simp] theorem keep_onCore (u : Nat) (f : Core → Core) (s : State) :
    keep (onCore u f s) = keep s := by
  unfold onCore
  simp

/-! ## Machine/CoreSeq.lean -/

@[simp] theorem keep_execNop (u : Nat) (s : State) :
    Goes (fun t => keep t = keep s) (execNop u s) := by
  unfold execNop
  simp

@[simp] theorem keep_releaseHeld (u : Nat) (s : State) :
    keep (releaseHeld u s) = keep s := by
  unfold releaseHeld
  repeat' split
  all_goals simp

@[simp] theorem keep_execFend (u : Nat) (s : State) :
    Goes (fun t => keep t = keep s) (execFend u s) := by
  unfold execFend
  simp

@[simp] theorem keep_execBrk (u : Nat) (s : State) :
    Goes (fun t => keep t = keep s) (execBrk u s) := by
  unfold execBrk
  simp

@[simp] theorem keep_execPset (u : Nat) (s : State) :
    Goes (fun t => keep t = keep s) (execPset u s) := by
  unfold execPset
  simp

@[simp] theorem keep_mfsrOp (u : Nat) (w : W64) (s : State) :
    keep (mfsrOp u w s) = keep s := by
  unfold mfsrOp
  simp

@[simp] theorem keep_execMfsr (u : Nat) (s : State) :
    Goes (fun t => keep t = keep s) (execMfsr u s) := by
  unfold execMfsr
  simp

@[simp] theorem keep_execMtsr (u : Nat) (s : State) :
    Goes (fun t => keep t = keep s) (execMtsr u s) := by
  unfold execMtsr
  simp

@[simp] theorem keep_scalarCmd (u opc : Nat) (z : Bool) (f : W32 → W32 → W32) (s : State) :
    Goes (fun t => keep t = keep s) (scalarCmd u opc z f s) := by
  unfold scalarCmd
  simp

@[simp] theorem keep_execAdd (u : Nat) (s : State) :
    Goes (fun t => keep t = keep s) (execAdd u s) := by
  unfold execAdd
  simp

@[simp] theorem keep_execSub (u : Nat) (s : State) :
    Goes (fun t => keep t = keep s) (execSub u s) := by
  unfold execSub
  simp

@[simp] theorem keep_execMul (u : Nat) (s : State) :
    Goes (fun t => keep t = keep s) (execMul u s) := by
  unfold execMul
  simp

@[simp] theorem keep_execAnd (u : Nat) (s : State) :
    Goes (fun t => keep t = keep s) (execAnd u s) := by
  unfold execAnd
  simp

@[simp] theorem keep_execOr (u : Nat) (s : State) :
    Goes (fun t => keep t = keep s) (execOr u s) := by
  unfold execOr
  simp

@[simp] theorem keep_execXor (u : Nat) (s : State) :
    Goes (fun t => keep t = keep s) (execXor u s) := by
  unfold execXor
  simp

@[simp] theorem keep_execShl (u : Nat) (s : State) :
    Goes (fun t => keep t = keep s) (execShl u s) := by
  unfold execShl
  simp

@[simp] theorem keep_execShr (u : Nat) (s : State) :
    Goes (fun t => keep t = keep s) (execShr u s) := by
  unfold execShr
  simp

@[simp] theorem keep_execSar (u : Nat) (s : State) :
    Goes (fun t => keep t = keep s) (execSar u s) := by
  unfold execSar
  simp

@[simp] theorem keep_execMin (u : Nat) (s : State) :
    Goes (fun t => keep t = keep s) (execMin u s) := by
  unfold execMin
  simp

@[simp] theorem keep_execMax (u : Nat) (s : State) :
    Goes (fun t => keep t = keep s) (execMax u s) := by
  unfold execMax
  simp

@[simp] theorem keep_execMinu (u : Nat) (s : State) :
    Goes (fun t => keep t = keep s) (execMinu u s) := by
  unfold execMinu
  simp

@[simp] theorem keep_execMaxu (u : Nat) (s : State) :
    Goes (fun t => keep t = keep s) (execMaxu u s) := by
  unfold execMaxu
  simp

@[simp] theorem keep_execMovh (u : Nat) (s : State) :
    Goes (fun t => keep t = keep s) (execMovh u s) := by
  unfold execMovh
  simp

@[simp] theorem keep_execScmp (u : Nat) (s : State) :
    Goes (fun t => keep t = keep s) (execScmp u s) := by
  unfold execScmp
  simp

@[simp] theorem keep_memOp (u n : Nat) (write : Bool) (f : Nat → Core → Core) (slot : Nat) (w : W64) (s : State) :
    keep (memOp u n write f slot w s) = keep s := by
  unfold memOp
  dsimp only
  repeat' split
  all_goals simp

@[simp] theorem keep_execLds (u : Nat) (s : State) :
    Goes (fun t => keep t = keep s) (execLds u s) := by
  unfold execLds
  simp

@[simp] theorem keep_execSts (u : Nat) (s : State) :
    Goes (fun t => keep t = keep s) (execSts u s) := by
  unfold execSts
  simp

@[simp] theorem keep_execLdv (u : Nat) (s : State) :
    Goes (fun t => keep t = keep s) (execLdv u s) := by
  unfold execLdv
  simp

@[simp] theorem keep_execStv (u : Nat) (s : State) :
    Goes (fun t => keep t = keep s) (execStv u s) := by
  unfold execStv
  simp

/-! ## Machine/CoreVec.lean -/

@[simp] theorem keep_vectorCmd2 (u opc : Nat) (f : W32 → W32 → W32 × Fl) (s : State) :
    Goes (fun t => keep t = keep s) (vectorCmd2 u opc f s) := by
  unfold vectorCmd2
  simp

@[simp] theorem keep_execVadd (u : Nat) (s : State) :
    Goes (fun t => keep t = keep s) (execVadd u s) := by
  unfold execVadd
  simp

@[simp] theorem keep_execVsub (u : Nat) (s : State) :
    Goes (fun t => keep t = keep s) (execVsub u s) := by
  unfold execVsub
  simp

@[simp] theorem keep_execVmul (u : Nat) (s : State) :
    Goes (fun t => keep t = keep s) (execVmul u s) := by
  unfold execVmul
  simp

@[simp] theorem keep_execVfma (u : Nat) (s : State) :
    Goes (fun t => keep t = keep s) (execVfma u s) := by
  unfold execVfma
  simp

@[simp] theorem keep_execVmin (u : Nat) (s : State) :
    Goes (fun t => keep t = keep s) (execVmin u s) := by
  unfold execVmin
  simp

@[simp] theorem keep_execVmax (u : Nat) (s : State) :
    Goes (fun t => keep t = keep s) (execVmax u s) := by
  unfold execVmax
  simp

@[simp] theorem keep_execVcmp (u : Nat) (s : State) :
    Goes (fun t => keep t = keep s) (execVcmp u s) := by
  unfold execVcmp
  simp

@[simp] theorem keep_execVsel (u : Nat) (s : State) :
    Goes (fun t => keep t = keep s) (execVsel u s) := by
  unfold execVsel
  simp

@[simp] theorem keep_execVbcst (u : Nat) (s : State) :
    Goes (fun t => keep t = keep s) (execVbcst u s) := by
  unfold execVbcst
  simp

@[simp] theorem keep_execVred (u : Nat) (s : State) :
    Goes (fun t => keep t = keep s) (execVred u s) := by
  unfold execVred
  simp

@[simp] theorem keep_execVperm (u : Nat) (s : State) :
    Goes (fun t => keep t = keep s) (execVperm u s) := by
  unfold execVperm
  simp

@[simp] theorem keep_execVcvt (u : Nat) (s : State) :
    Goes (fun t => keep t = keep s) (execVcvt u s) := by
  unfold execVcvt
  simp

@[simp] theorem keep_execVcvtmx (u : Nat) (s : State) :
    Goes (fun t => keep t = keep s) (execVcvtmx u s) := by
  unfold execVcvtmx
  simp

@[simp] theorem keep_execSeedArrival (u : Nat) (s : State) :
    Goes (fun t => keep t = keep s) (execSeedArrival u s) := by
  unfold execSeedArrival
  dsimp only
  repeat' split
  all_goals simp

/-! ## Machine/CoreTensor.lean -/

@[simp] theorem keep_tmmaOp (u slot : Nat) (w : W64) (s : State) :
    keep (tmmaOp u slot w s) = keep s := by
  unfold tmmaOp
  dsimp only
  repeat' split
  all_goals simp

@[simp] theorem keep_execTmma (u : Nat) (s : State) :
    Goes (fun t => keep t = keep s) (execTmma u s) := by
  unfold execTmma
  simp

@[simp] theorem keep_execTmmaStep (u : Nat) (s : State) :
    Goes (fun t => keep t = keep s) (execTmmaStep u s) := by
  unfold execTmmaStep
  dsimp only
  repeat' split
  all_goals simp

@[simp] theorem keep_execTzero (u : Nat) (s : State) :
    Goes (fun t => keep t = keep s) (execTzero u s) := by
  unfold execTzero
  simp

@[simp] theorem keep_execTrd (u : Nat) (s : State) :
    Goes (fun t => keep t = keep s) (execTrd u s) := by
  unfold execTrd
  simp

@[simp] theorem keep_execTwr (u : Nat) (s : State) :
    Goes (fun t => keep t = keep s) (execTwr u s) := by
  unfold execTwr
  simp

@[simp] theorem keep_toutOp (u slot : Nat) (w : W64) (s : State) :
    keep (toutOp u slot w s) = keep s := by
  unfold toutOp
  dsimp only
  repeat' split
  all_goals simp

@[simp] theorem keep_execTout (u : Nat) (s : State) :
    Goes (fun t => keep t = keep s) (execTout u s) := by
  unfold execTout
  simp

@[simp] theorem keep_qmovinOp (u slot : Nat) (w : W64) (s : State) :
    keep (qmovinOp u slot w s) = keep s := by
  unfold qmovinOp
  dsimp only
  repeat' split
  all_goals simp

@[simp] theorem keep_execQmovin (u : Nat) (s : State) :
    Goes (fun t => keep t = keep s) (execQmovin u s) := by
  unfold execQmovin
  simp

@[simp] theorem keep_qmovoutOp (u slot : Nat) (w : W64) (s : State) :
    keep (qmovoutOp u slot w s) = keep s := by
  unfold qmovoutOp
  dsimp only
  repeat' split
  all_goals simp

@[simp] theorem keep_execQmovout (u : Nat) (s : State) :
    Goes (fun t => keep t = keep s) (execQmovout u s) := by
  unfold execQmovout
  simp

@[simp] theorem keep_execQueueMoverEntry (u : Nat) (out : Bool) (s : State) :
    Goes (fun t => keep t = keep s) (execQueueMoverEntry u out s) := by
  unfold execQueueMoverEntry
  dsimp only
  repeat' split
  all_goals simp

/-! ## Machine/CoreMesh.lean -/

@[simp] theorem keep_msendOp (u : Nat) (w : W64) (s : State) :
    keep (msendOp u w s) = keep s := by
  unfold msendOp
  simp

@[simp] theorem keep_execMsend (u : Nat) (s : State) :
    Goes (fun t => keep t = keep s) (execMsend u s) := by
  unfold execMsend
  simp

@[simp] theorem keep_holdFor (u dest : Nat) (h : Bool) (s : State) :
    keep (holdFor u dest h s) = keep s := by
  unfold holdFor
  simp

@[simp] theorem keep_mputOp (u slot : Nat) (w : W64) (s : State) :
    keep (mputOp u slot w s) = keep s := by
  unfold mputOp
  dsimp only
  repeat' split
  all_goals simp

@[simp] theorem keep_execMput (u : Nat) (s : State) :
    Goes (fun t => keep t = keep s) (execMput u s) := by
  unfold execMput
  simp

@[simp] theorem keep_mgetOp (u slot : Nat) (w : W64) (s : State) :
    keep (mgetOp u slot w s) = keep s := by
  unfold mgetOp
  dsimp only
  repeat' split
  all_goals simp

@[simp] theorem keep_execMget (u : Nat) (s : State) :
    Goes (fun t => keep t = keep s) (execMget u s) := by
  unfold execMget
  simp

@[simp] theorem keep_syncOp (u : Nat) (w : W64) (s : State) :
    keep (syncOp u w s) = keep s := by
  unfold syncOp
  simp

@[simp] theorem keep_execSync (u : Nat) (s : State) :
    Goes (fun t => keep t = keep s) (execSync u s) := by
  unfold execSync
  simp

@[simp] theorem keep_wclaimOp (u : Nat) (w : W64) (s : State) :
    keep (wclaimOp u w s) = keep s := by
  unfold wclaimOp
  simp

@[simp] theorem keep_execWclaim (u : Nat) (s : State) :
    Goes (fun t => keep t = keep s) (execWclaim u s) := by
  unfold execWclaim
  simp

@[simp] theorem keep_wdoneOp (u : Nat) (w : W64) (s : State) :
    keep (wdoneOp u w s) = keep s := by
  unfold wdoneOp
  simp

@[simp] theorem keep_execWdone (u : Nat) (s : State) :
    Goes (fun t => keep t = keep s) (execWdone u s) := by
  unfold execWdone
  simp

/-! ## Machine/Sfu.lean -/

@[simp] theorem keep_execSfuInputEntry (u : Nat) (s : State) :
    Goes (fun t => keep t = keep s) (execSfuInputEntry u s) := by
  unfold execSfuInputEntry
  dsimp only
  repeat' split
  all_goals simp

/-! ## Machine/Mu.lean -/

@[simp] theorem keep_writeBack (u k : Nat) (l : Line) (s : State) :
    keep (writeBack u k l s) = keep s := by
  unfold writeBack
  simp

@[simp] theorem keep_allocLine (u b wl : Nat) (fill : Bool) (s : State) :
    IfSome (fun t => keep t = keep s) (allocLine u b wl fill s) := by
  unfold allocLine
  dsimp only
  repeat' split
  all_goals simp

@[simp] theorem keep_askLines (u b : Nat) (whole wls : List Nat) (s : State) : keep (askLines u b whole wls s) = keep s := by
  unfold askLines
  refine keep_forEach _ _ _ (fun wl t => ?_)
  split
  · rfl
  · cases h : allocLine u b wl (!whole.contains wl) t with
    | none => rfl
    | some t' => exact keep_allocLine _ _ _ _ _ _ h

@[simp] theorem keep_flushBanks (u : Nat) (t : Nat → Bool) (s : State) :
    keep (flushBanks u t s) = keep s := by
  unfold flushBanks
  simp

@[simp] theorem keep_flushSettle (u : Nat) (s : State) :
    keep (flushSettle u s) = keep s := by
  unfold flushSettle
  simp

@[simp] theorem keep_winSettle (u : Nat) (s : State) :
    keep (winSettle u s) = keep s := by
  unfold winSettle
  repeat' (first | with_reducible rfl | (simp; done) | split
                 | refine keep_hostCmd _ _ _ _ (fun _ _ => ?_) | refine keep_replyCmd _ _ _ _ (fun _ _ _ => ?_)
                 | refine Eq.trans (keep_forEach _ _ _ (fun _ _ => ?_)) ?_ | dsimp only | extract_lets)

@[simp] theorem keep_winBegin (u b : Nat) (v : W64) (p : Option Packet) (s : State) :
    keep (winBegin u b v p s) = keep s := by
  unfold winBegin
  simp

@[simp] theorem keep_winWrite (u b : Nat) (v : W64) (p : Option Packet) (s : State) :
    keep (winWrite u b v p s) = keep s := by
  unfold winWrite
  simp

@[simp] theorem keep_execWinBaseWrite (u b : Nat) (v : W64) (s : State) :
    Goes (fun t => keep t = keep s) (execWinBaseWrite u b v s) := by
  unfold execWinBaseWrite
  repeat' split
  all_goals simp

@[simp] theorem keep_execWcCtlReset (u c : Nat) (s : State) :
    Goes (fun t => keep t = keep s) (execWcCtlReset u c s) := by
  unfold execWcCtlReset
  repeat' split
  all_goals simp

@[simp] theorem keep_cacheStore (u a : Nat) (bs : List Byte) (s : State) :
    keepServe (cacheStore u a bs s) = keep s := by
  unfold cacheStore
  dsimp only
  repeat' split
  all_goals simp

@[simp] theorem keep_cacheLoad (u a w : Nat) (s : State) :
    keepServe (cacheLoad u a w s) = keep s := by
  unfold cacheLoad
  dsimp only
  repeat' split
  all_goals simp

@[simp] theorem keep_muRegWrites (u off : Nat) (p : Packet) (ws : List W64) (b : Bool) (s : State) :
    keep (muRegWrites u off p ws b s).2 = keep s := by
  induction ws generalizing off b s with
  | nil => rfl
  | cons w ws ih =>
    unfold muRegWrites
    dsimp only
    repeat' split
    all_goals (rw [ih]; try simp)

@[simp] theorem keep_muWrite (u a : Nat) (p : Packet) (ws : List W64) (s : State) : keepServe (muWrite u a p ws s) = keep s := by
  unfold muWrite
  repeat' (first | split | extract_lets)
  all_goals (first | rfl | simp +zetaDelta)

@[simp] theorem keep_muRead (u a w : Nat) (p : Packet) (s : State) :
    keepServe (muRead u a w p s) = keep s := by
  unfold muRead
  dsimp only
  repeat' split
  all_goals simp

@[simp] theorem keep_execStreamRepetition (u d : Nat) (s : State) :
    Goes (fun t => keep t = keep s) (execStreamRepetition u d s) := by
  unfold execStreamRepetition
  dsimp only
  repeat' split
  all_goals simp

@[simp] theorem keep_execDescriptorEntry (u d : Nat) (s : State) :
    Goes (fun t => keep t = keep s) (execDescriptorEntry u d s) := by
  unfold execDescriptorEntry
  dsimp only
  repeat' split
  all_goals simp

/-! ## Machine/UnitServe.lean -/

@[simp] theorem keep_badOpVia (s : State) (u op code : Nat) (s' : State) :
    keep (badOpVia s u op code s') = keep s' := by
  unfold badOpVia
  repeat' split
  all_goals simp

@[simp] theorem keep_dropReq (u op : Nat) (s : State) :
    keep (dropReq u op s) = keep s := by
  unfold dropReq
  repeat' split
  all_goals simp

@[simp] theorem keep_answer (u : Nat) (p : Packet) (good : State → State) (code : Option Nat) (s : State)
    (h : ∀ t, keep (good t) = keep t) : keep (answer u p good code s) = keep s := by
  unfold answer
  repeat' split
  all_goals simp [h]

@[simp] theorem keep_portAnswer (u code : Nat) (p : Packet) (s : State) :
    keep (portAnswer u code p s) = keep s := by
  unfold portAnswer
  simp

@[simp] theorem keep_serveReq (u op : Nat) (f : Packet → State → Serve) (good : Packet → List W64 → State → State) (s : State)
    (hf : ∀ p t, keepServe (f p t) = keep t) (hg : ∀ p d t, keep (good p d t) = keep t) :
    Goes (fun t => keep t = keep s) (serveReq u op f good s) := by
  unfold serveReq
  repeat' split
  all_goals (try (have hx := hf ‹_› s; rw [‹f _ s = _›] at hx; simp at hx))
  all_goals simp [*]

@[simp] theorem keep_coreWrite (u a : Nat) (ws : List W64) (s : State) :
    keepServe (coreWrite u a ws s) = keep s := by
  unfold coreWrite
  dsimp only
  repeat' split
  all_goals simp

@[simp] theorem keep_coreRead (u a w : Nat) (s : State) :
    keepServe (coreRead u a w s) = keep s := by
  unfold coreRead
  repeat' split
  all_goals simp

@[simp] theorem keep_fcWrite (f : Nat) (p : Packet) (s : State) :
    keepServe (fcWrite f p s) = keep s := by
  unfold fcWrite
  dsimp only
  repeat' split
  all_goals simp

@[simp] theorem keep_serveFc (f op : Nat) (g : Packet → State → Serve) (s : State) (hg : ∀ p t, keepServe (g p t) = keep t) :
    Goes (fun t => keep t = keep s) (serveFc f op g s) := by
  unfold serveFc
  repeat' split
  all_goals (try (have hx := hg ‹_› s; rw [‹g _ s = _›] at hx; simp at hx))
  all_goals simp [*]

theorem keep_execWrite (u : Nat) (s : State) : Goes (fun t => keep t = keep s) (execWrite u s) := by
  unfold execWrite
  split
  · simp
  · split
    · simp
    · exact keep_serveReq _ _ _ _ _ (fun p t => by dsimp only; split <;> simp) (fun _ _ _ => by simp)

theorem keep_execRead (u : Nat) (s : State) : Goes (fun t => keep t = keep s) (execRead u s) := by
  unfold execRead
  split
  · simp
  · exact keep_serveReq _ _ _ _ _ (fun p t => by split <;> simp) (fun _ _ _ => by simp)

theorem keep_execMsg (u : Nat) (s : State) : Goes (fun t => keep t = keep s) (execMsg u s) := by
  unfold execMsg
  split
  · simp
  · refine keep_serveReq _ _ _ _ _ (fun p t => ?_) (fun _ _ _ => rfl)
    dsimp only
    repeat' split
    all_goals simp

@[simp] theorem keep_execRingToInbox (u : Nat) (s : State) :
    Goes (fun t => keep t = keep s) (execRingToInbox u s) := by
  unfold execRingToInbox
  dsimp only
  repeat' split
  all_goals simp

@[simp] theorem keep_execTagcCfgWrite (u i : Nat) (v : W64) (s : State) :
    Goes (fun t => keep t = keep s) (execTagcCfgWrite u i v s) := by
  unfold execTagcCfgWrite
  repeat' split
  all_goals simp

@[simp] theorem keep_wcTableFull (u : Nat) (s : State) :
    keep (wcTableFull u s) = keep s := by
  unfold wcTableFull
  simp

@[simp] theorem keep_wclaimServe (u : Nat) (p : Packet) (s : State) :
    keepServe (wclaimServe u p s) = keep s := by
  unfold wclaimServe
  dsimp only
  repeat' split
  all_goals simp

@[simp] theorem keep_execWclaimRequest (u : Nat) (s : State) :
    Goes (fun t => keep t = keep s) (execWclaimRequest u s) := by
  unfold execWclaimRequest
  repeat' split
  all_goals simp

@[simp] theorem keep_wdoneServe (u : Nat) (p : Packet) (s : State) :
    keepServe (wdoneServe u p s) = keep s := by
  unfold wdoneServe
  dsimp only
  repeat' split
  all_goals simp

@[simp] theorem keep_execWdoneRequest (u : Nat) (s : State) :
    Goes (fun t => keep t = keep s) (execWdoneRequest u s) := by
  unfold execWdoneRequest
  repeat' split
  all_goals simp

/-! ## Machine/Fabric.lean -/

@[simp] theorem keep_modOq (u q : Nat) (f : Queue → Queue) (s : State) :
    keep (modOq u q f s) = keep s := by
  unfold modOq
  simp

@[simp] theorem keep_modIq (u q : Nat) (f : Queue → Queue) (s : State) :
    keep (modIq u q f s) = keep s := by
  unfold modIq
  simp

@[simp] theorem keep_srcPop (u : Nat) (fab : Fab) (code : Nat) (s : State) :
    keep (srcPop u fab code s) = keep s := by
  unfold srcPop
  repeat' split
  all_goals simp

@[simp] theorem keep_srcTake (u : Nat) (fab : Fab) (code k : Nat) (s : State) :
    keep (srcTake u fab code k s) = keep s := by
  unfold srcTake
  simp

@[simp] theorem keep_laneOutMove (u : Nat) (fab : Fab) (k : Nat) (s : State) :
    keep (laneOutMove u fab k s) = keep s := by
  unfold laneOutMove
  dsimp only
  repeat' split
  all_goals simp

@[simp] theorem keep_slotMove (u k : Nat) (s : State) :
    keep (slotMove u k s) = keep s := by
  unfold slotMove
  dsimp only
  repeat' split
  all_goals simp

@[simp] theorem keep_queueMove (u : Nat) (fab : Fab) (k q h : Nat) (s : State) :
    keep (queueMove u fab k q h s) = keep s := by
  unfold queueMove
  dsimp only
  repeat' split
  all_goals simp

@[simp] theorem keep_fifoMove (u : Nat) (fab : Fab) (k : Nat) (len : Switch → Nat) (depth : Nat) (put : Xfer → Switch → Switch) (s : State) :
    keep (fifoMove u fab k len depth put s) = keep s := by
  unfold fifoMove
  dsimp only
  repeat' split
  all_goals simp

@[simp] theorem keep_joinInMove (u : Nat) (fab : Fab) (k j i : Nat) (s : State) :
    keep (joinInMove u fab k j i s) = keep s := by
  unfold joinInMove
  simp

@[simp] theorem keep_adderInMove (u k l i : Nat) (s : State) :
    keep (adderInMove u k l i s) = keep s := by
  unfold adderInMove
  simp

@[simp] theorem keep_tokenMove (u k e : Nat) (s : State) :
    keep (tokenMove u k e s) = keep s := by
  unfold tokenMove
  simp

@[simp] theorem keep_laneMove (u : Nat) (fab : Fab) (k : Nat) (s : State) :
    keep (laneMove u fab k s) = keep s := by
  unfold laneMove
  repeat' split
  all_goals simp

@[simp] theorem keep_execLaneTransfer (u : Nat) (fab : Fab) (k : Nat) (s : State) :
    Goes (fun t => keep t = keep s) (execLaneTransfer u fab k s) := by
  unfold execLaneTransfer
  repeat' split
  all_goals simp

@[simp] theorem keep_steerTake (u e i : Nat) (s : State) :
    keep (steerTake u e i s) = keep s := by
  unfold steerTake
  simp

@[simp] theorem keep_modSteer (u e : Nat) (f : Steer → Steer) (s : State) :
    keep (modSteer u e f s) = keep s := by
  unfold modSteer
  simp

@[simp] theorem keep_steerMove (u e i : Nat) (port : Option Nat) (s : State) :
    keep (steerMove u e i port s) = keep s := by
  unfold steerMove
  repeat' split
  all_goals simp

@[simp] theorem keep_gangMove (u e i : Nat) (port : Option Nat) (s : State) :
    keep (gangMove u e i port s) = keep s := by
  unfold gangMove
  simp

@[simp] theorem keep_groupEnd (u e : Nat) (s : State) :
    keep (groupEnd u e s) = keep s := by
  unfold groupEnd
  simp

@[simp] theorem keep_steerErr (u e : Nat) (s : State) :
    keep (steerErr u e s) = keep s := by
  unfold steerErr
  simp

@[simp] theorem keep_mergeStep (u e : Nat) (s : State) :
    keep (mergeStep u e s) = keep s := by
  unfold mergeStep
  dsimp only
  repeat' split
  all_goals simp

@[simp] theorem keep_steerStep (u e : Nat) (s : State) :
    keep (steerStep u e s) = keep s := by
  unfold steerStep
  dsimp only
  repeat' split
  all_goals simp

@[simp] theorem keep_execSteeringGroup (u e : Nat) (s : State) :
    Goes (fun t => keep t = keep s) (execSteeringGroup u e s) := by
  unfold execSteeringGroup
  repeat' split
  all_goals simp

@[simp] theorem keep_execJoinMove (u j : Nat) (s : State) :
    Goes (fun t => keep t = keep s) (execJoinMove u j s) := by
  unfold execJoinMove
  repeat' split
  all_goals simp

@[simp] theorem keep_execCombiningAdd (u : Nat) (s : State) :
    Goes (fun t => keep t = keep s) (execCombiningAdd u s) := by
  unfold execCombiningAdd
  repeat' split
  all_goals simp

@[simp] theorem keep_execReconvStall (u e side : Nat) (s : State) :
    Goes (fun t => keep t = keep s) (execReconvStall u e side s) := by
  unfold execReconvStall
  dsimp only
  repeat' split
  all_goals simp

/-! ## Machine/MeshRouter.lean -/

@[simp] theorem keep_dropFlight (f : Flight) (s : State) :
    keep (dropFlight f s) = keep s := by
  unfold dropFlight
  repeat' split
  all_goals simp

@[simp] theorem keep_place (net : Net) (l : Loc) (p : Packet) (s : State) :
    keep (place net l p s) = keep s := by
  unfold place
  simp

@[simp] theorem keep_routerNack (u code : Nat) (f : Flight) (p : Packet) (s : State) :
    IfSome (fun t => keep t = keep s) (routerNack u code f p s) := by
  unfold routerNack
  repeat' split
  all_goals simp

@[simp] theorem keep_noRoute (u : Nat) (f : Flight) (p : Packet) (s : State) :
    IfSome (fun t => keep t = keep s) (noRoute u f p s) := by
  unfold noRoute
  simp

@[simp] theorem keep_holdPass (u : Nat) (d : Port) (p : Packet) (s : State) :
    keep (holdPass u d p s) = keep s := by
  unfold holdPass
  simp

@[simp] theorem keep_execHoldIdle (u : Nat) (d : Port) (s : State) :
    Goes (fun t => keep t = keep s) (execHoldIdle u d s) := by
  unfold execHoldIdle
  repeat' split
  all_goals simp

@[simp] theorem keep_badOp (p : Packet) (s : State) :
    IfSome (fun t => keep t = keep s) (badOp p s) := by
  unfold badOp
  repeat' split
  all_goals simp

@[simp] theorem keep_arriveBy (u : Nat) (p : Packet) (s : State) :
    keep (arriveBy u p s) = keep s := by
  unfold arriveBy
  simp

@[simp] theorem keep_deliver (u : Nat) (d : Port) (f : Flight) (p : Packet) (s : State) :
    IfSome (fun t => keep t = keep s) (deliver u d f p s) := by
  unfold deliver
  repeat' split
  all_goals (first | exact IfSome_keep (keep_badOp _ _) (by simp) | simp)

@[simp] theorem keep_mcOwn (v : Nat) (p : Packet) (s : State) :
    keep (mcOwn v p s) = keep s := by
  unfold mcOwn
  repeat' split
  all_goals simp

@[simp] theorem keep_mcEast (v : Nat) (p : Packet) (s : State) :
    keep (mcEast v p s) = keep s := by
  unfold mcEast
  simp

@[simp] theorem keep_mcSpine (v : Nat) (p : Packet) (s : State) :
    keep (mcSpine v p s) = keep s := by
  unfold mcSpine
  simp

@[simp] theorem keep_mcBranch (v : Nat) (p : Packet) (s : State) :
    keep (mcBranch v p s) = keep s := by
  unfold mcBranch
  simp

@[simp] theorem keep_replicaMove (u : Nat) (d : Dir) (f : Flight) (s : State) :
    IfSome (fun t => keep t = keep s) (replicaMove u d f s) := by
  unfold replicaMove
  repeat' split
  all_goals simp

@[simp] theorem keep_dropRows (u : Nat) (p : Packet) (rows : List Nat) (x : Nat) (s : State) :
    keep (dropRows u p rows x s) = keep s := by
  unfold dropRows
  simp

@[simp] theorem keep_execMcDrop (u : Nat) (s : State) :
    Goes (fun t => keep t = keep s) (execMcDrop u s) := by
  unfold execMcDrop
  repeat' split
  all_goals simp

@[simp] theorem keep_leavePort (f : Flight) (s : State) :
    keep (leavePort f s) = keep s := by
  unfold leavePort
  simp

@[simp] theorem keep_noteDtr (f : Flight) (s : State) :
    keep (noteDtr f s) = keep s := by
  unfold noteDtr
  simp

@[simp] theorem keep_toCauseway (u : Nat) (d : Port) (g via : Nat) (f : Flight) (p : Packet) (s : State) :
    IfSome (fun t => keep t = keep s) (toCauseway u d g via f p s) := by
  unfold toCauseway
  repeat' split
  all_goals simp

@[simp] theorem keep_byRamp (u : Nat) (f : Flight) (p : Packet) (s : State) :
    IfSome (fun t => keep t = keep s) (byRamp u f p s) := by
  unfold byRamp
  repeat' split
  all_goals simp

@[simp] theorem keep_dikeAnswer (v code : Nat) (f : Flight) (p : Packet) (s : State) :
    IfSome (fun t => keep t = keep s) (dikeAnswer v code f p s) := by
  unfold dikeAnswer
  simp

@[simp] theorem keep_leaveBy (u : Nat) (d : Dir) (f : Flight) (p : Packet) (s : State) :
    IfSome (fun t => keep t = keep s) (leaveBy u d f p s) := by
  unfold leaveBy
  dsimp only
  repeat' split
  all_goals simp

@[simp] theorem keep_routeAt (u : Nat) (f : Flight) (s : State) :
    IfSome (fun t => keep t = keep s) (routeAt u f s) := by
  unfold routeAt
  dsimp only
  repeat' split
  all_goals simp

@[simp] theorem keep_cwNack (g : Nat) (f : Flight) (p : Packet) (s : State) :
    IfSome (fun t => keep t = keep s) (cwNack g f p s) := by
  unfold cwNack
  repeat' split
  all_goals simp

@[simp] theorem keep_cwDeliver (g : Nat) (d : Dir) (f : Flight) (p : Packet) (s : State) : IfSome (fun t => keep t = keep s) (cwDeliver g d f p s) := by
  unfold cwDeliver
  repeat' split
  all_goals (first | exact IfSome_keep (keep_badOp _ _) (by simp) | simp)

@[simp] theorem keep_cwRamp (g : Nat) (d : Dir) (f : Flight) (p : Packet) (s : State) :
    IfSome (fun t => keep t = keep s) (cwRamp g d f p s) := by
  unfold cwRamp
  dsimp only
  repeat' split
  all_goals simp

@[simp] theorem keep_routeCauseway (g : Nat) (f : Flight) (s : State) :
    IfSome (fun t => keep t = keep s) (routeCauseway g f s) := by
  unfold routeCauseway
  dsimp only
  repeat' split
  all_goals simp

@[simp] theorem keep_enterRouter (u : Nat) (f : Flight) (s : State) :
    IfSome (fun t => keep t = keep s) (enterRouter u f s) := by
  unfold enterRouter
  dsimp only
  repeat' split
  all_goals simp

@[simp] theorem keep_tryHead (u : Nat) (f : Flight) (s : State) :
    IfSome (fun t => keep t = keep s) (tryHead u f s) := by
  unfold tryHead
  repeat' split
  all_goals simp

@[simp] theorem keep_moveHead (net : Net) (u : Nat) (pick : Packet → Bool) (s : State) :
    IfSome (fun t => keep t.2 = keep s) (moveHead net u pick s) := by
  unfold moveHead
  refine IfSome_findSome _ _ (fun o => ?_) _
  dsimp only
  split
  · simp
  refine IfSome_findSome _ _ (fun vc => ?_) _
  split
  · simp
  exact IfSome_findSome _ _ (fun _ => IfSome_findSome _ _ (fun _ => by simp) _) _

@[simp] theorem keep_nextTurn (net : Net) (u : Nat) (m : Nat × Nat × Nat) (s : State) :
    keep (nextTurn net u m s) = keep s := by
  unfold nextTurn
  simp

@[simp] theorem keep_linkError (u : Nat) (m : Nat × Nat × Nat) (ce : Nat) (s : State) :
    keep (linkError u m ce s) = keep s := by
  unfold linkError
  repeat' split
  all_goals simp

theorem keep_execRouterHead (net : Net) (h : HeadAt) (s : State) :
    Goes (fun t => keep t = keep s) (execRouterHead net h s) := by
  unfold execRouterHead
  split
  · simp
  · cases h : moveHead net h.u (fun p => p.op != opRelease) s with
    | none => simp
    | some r => simpa using keep_moveHead _ _ _ _ _ h

@[simp] theorem keep_releaseHop (u : Nat) (f : Flight) (s : State) :
    IfSome (fun t => keep t = keep s) (releaseHop u f s) := by
  unfold releaseHop
  repeat' split
  all_goals simp

@[simp] theorem keep_execRelease (h : HeadAt) (s : State) :
    Goes (fun t => keep t = keep s) (execRelease h s) := by
  unfold execRelease
  repeat' split
  all_goals (first | with_reducible rfl | (simp; done) | (simp; first | exact keep_releaseHop _ _ _ _ ‹_›))

@[simp] theorem keep_execSendBlk (u : Nat) (s : State) :
    Goes (fun t => keep t = keep s) (execSendBlk u s) := by
  unfold execSendBlk
  repeat' split
  all_goals simp

@[simp] theorem keep_execRecvBlk (u : Nat) (s : State) :
    Goes (fun t => keep t = keep s) (execRecvBlk u s) := by
  unfold execRecvBlk
  repeat' split
  all_goals simp

@[simp] theorem keep_routeRefuse (q : Nat) (s : State) :
    keep (routeRefuse q s) = keep s := by
  unfold routeRefuse
  simp

@[simp] theorem keep_buildUndone (s : State) :
    keep (buildUndone s) = keep s := by
  unfold buildUndone
  simp

@[simp] theorem keep_bankRefused (s : State) :
    keep (bankRefused s) = keep s := by
  unfold bankRefused
  dsimp only
  repeat' split
  all_goals simp

@[simp] theorem keep_armEpoch (s : State) :
    keep (armEpoch s) = keep s := by
  unfold armEpoch
  simp

@[simp] theorem keep_armDown (s : State) :
    keep (armDown s) = keep s := by
  unfold armDown
  simp

@[simp] theorem keep_flipEpoch (s : State) :
    keep (flipEpoch s) = keep s := by
  unfold flipEpoch
  dsimp only
  repeat' split
  all_goals simp

@[simp] theorem keep_epochTick (s : State) :
    keep (epochTick s) = keep s := by
  unfold epochTick
  simp

@[simp] theorem keep_execEpochDrainDone (s : State) :
    Goes (fun t => keep t = keep s) (execEpochDrainDone s) := by
  unfold execEpochDrainDone
  repeat' split
  all_goals simp

@[simp] theorem keep_execEpochLate (s : State) :
    Goes (fun t => keep t = keep s) (execEpochLate s) := by
  unfold execEpochLate
  repeat' split
  all_goals simp

@[simp] theorem keep_endNoted (net : Net) (u : Nat) (d : Dir) (s : State) :
    keep (endNoted net u d s) = keep s := by
  unfold endNoted
  simp

@[simp] theorem keep_linkNoted (net : Net) (u : Nat) (d : Dir) (s : State) :
    keep (linkNoted net u d s) = keep s := by
  unfold linkNoted
  repeat' split
  all_goals simp

@[simp] theorem keep_endDown (net : Net) (u : Nat) (d : Dir) (s : State) :
    keep (endDown net u d s) = keep s := by
  unfold endDown
  simp

@[simp] theorem keep_linkGone (net : Net) (u : Nat) (d : Dir) (s : State) :
    keep (linkGone net u d s) = keep s := by
  unfold linkGone
  repeat' split
  all_goals simp

@[simp] theorem keep_cutHead (net : Net) (u : Nat) (d : Dir) (vc : Nat) (s : State) :
    keep (cutHead net u d vc s) = keep s := by
  unfold cutHead
  repeat' split
  all_goals simp

@[simp] theorem keep_execMeshLinkDown (net : Net) (u : Nat) (l : LinkLoss) (s : State) :
    Goes (fun t => keep t = keep s) (execMeshLinkDown net u l s) := by
  unfold execMeshLinkDown
  repeat' split
  all_goals simp

@[simp] theorem keep_crossingsFail (f : Nat) (s : State) :
    keep (crossingsFail f s) = keep s := by
  unfold crossingsFail
  repeat' (first | with_reducible rfl | (simp; done) | split
                 | refine keep_hostCmd _ _ _ _ (fun _ _ => ?_) | refine keep_replyCmd _ _ _ _ (fun _ _ _ => ?_)
                 | refine Eq.trans (keep_forEach _ _ _ (fun _ _ => ?_)) ?_ | dsimp only | extract_lets)

/-! ## Machine/Sync.lean -/

@[simp] theorem keep_testWaiters (f o : Nat) (s : State) :
    keep (testWaiters f o s) = keep s := by
  unfold testWaiters
  simp

@[simp] theorem keep_dropWaiters (t : Nat → Waiter → Bool) (s : State) :
    keep (dropWaiters t s) = keep s := by
  unfold dropWaiters
  simp

@[simp] theorem keep_refuseWaiters (t : Nat → Waiter → Bool) (s : State) :
    keep (refuseWaiters t s) = keep s := by
  unfold refuseWaiters
  simp

@[simp] theorem keep_dropOwn (p : Nat) (s : State) :
    keep (dropOwn p s) = keep s := by
  unfold dropOwn
  simp

@[simp] theorem keep_saturate (f o : Nat) (ovf : Bool) (s : State) :
    keep (saturate f o ovf s) = keep s := by
  unfold saturate
  simp

@[simp] theorem keep_signal (f o sop : Nat) (v : W32) (src : Nat) (s : State) :
    keep (signal f o sop v src s) = keep s := by
  unfold signal
  simp

@[simp] theorem keep_waitqFull (f : Nat) (s : State) :
    keep (waitqFull f s) = keep s := by
  unfold waitqFull
  simp

@[simp] theorem keep_waitOp (f o : Nat) (eq : Bool) (v : W32) (p : Packet) (s : State) :
    keep (waitOp f o eq v p s) = keep s := by
  unfold waitOp
  simp

@[simp] theorem keep_syncServe (f : Nat) (p : Packet) (s : State) :
    keep (syncServe f p s) = keep s := by
  unfold syncServe
  dsimp only
  repeat' split
  all_goals simp

@[simp] theorem keep_syncCmd (f sop : Nat) (s : State) :
    Goes (fun t => keep t = keep s) (syncCmd f sop s) := by
  unfold syncCmd
  dsimp only
  repeat' split
  all_goals simp

@[simp] theorem keep_execSyncAdd (f : Nat) (s : State) :
    Goes (fun t => keep t = keep s) (execSyncAdd f s) := by
  unfold execSyncAdd
  simp

@[simp] theorem keep_execSyncSub (f : Nat) (s : State) :
    Goes (fun t => keep t = keep s) (execSyncSub f s) := by
  unfold execSyncSub
  simp

@[simp] theorem keep_execSyncSet (f : Nat) (s : State) :
    Goes (fun t => keep t = keep s) (execSyncSet f s) := by
  unfold execSyncSet
  simp

@[simp] theorem keep_execSyncWaitGe (f : Nat) (s : State) :
    Goes (fun t => keep t = keep s) (execSyncWaitGe f s) := by
  unfold execSyncWaitGe
  simp

@[simp] theorem keep_execSyncWaitEq (f : Nat) (s : State) :
    Goes (fun t => keep t = keep s) (execSyncWaitEq f s) := by
  unfold execSyncWaitEq
  simp

@[simp] theorem keep_modObjs (p : Nat) (f : SyncObj → SyncObj) (s : State) :
    keep (modObjs p f s) = keep s := by
  unfold modObjs
  simp

@[simp] theorem keep_testAll (p : Nat) (s : State) :
    keep (testAll p s) = keep s := by
  unfold testAll
  simp

@[simp] theorem keep_objsFrame (p : Nat) (s : State) :
    keep (objsFrame p s) = keep s := by
  unfold objsFrame
  simp

@[simp] theorem keep_objsReplay (p : Nat) (s : State) :
    keep (objsReplay p s) = keep s := by
  unfold objsReplay
  simp

@[simp] theorem keep_objsEnd (p : Nat) (s : State) :
    keep (objsEnd p s) = keep s := by
  unfold objsEnd
  simp

@[simp] theorem keep_objsReset (p : Nat) (s : State) :
    keep (objsReset p s) = keep s := by
  unfold objsReset
  simp

@[simp] theorem keep_objsRelease (p : Nat) (s : State) :
    keep (objsRelease p s) = keep s := by
  unfold objsRelease
  simp

@[simp] theorem keep_objsAllocate (p : Nat) (l : List SyncAlloc) (s : State) :
    keep (objsAllocate p l s) = keep s := by
  unfold objsAllocate
  simp

@[simp] theorem keep_refuseNow (t : Nat → Waiter → Bool) (s : State) :
    keep (refuseNow t s) = keep s := by
  unfold refuseNow
  simp

@[simp] theorem keep_fieldWaiters (f : Nat) (s : State) :
    keep (fieldWaiters f s) = keep s := by
  unfold fieldWaiters
  simp

@[simp] theorem keep_objsLost (f : Nat) (s : State) :
    keep (objsLost f s) = keep s := by
  unfold objsLost
  simp

/-! ## Machine/Dram.lean -/

@[simp] theorem keep_mecFlag (n i : Nat) (s : State) :
    keep (mecFlag n i s) = keep s := by
  unfold mecFlag
  simp

@[simp] theorem keep_mecCe (n : Nat) (s : State) :
    keep (mecCe n s) = keep s := by
  unfold mecCe
  simp

@[simp] theorem keep_eccNote (n reads : Nat) (ecc : Ecc) (s : State) :
    keep (eccNote n reads ecc s) = keep s := by
  unfold eccNote
  simp

@[simp] theorem keep_mecUeAt (n g : Nat) (s : State) :
    keep (mecUeAt n g s) = keep s := by
  unfold mecUeAt
  simp

@[simp] theorem keep_mecUe (n g : Nat) (s : State) :
    keep (mecUe n g s) = keep s := by
  unfold mecUe
  simp

@[simp] theorem keep_ueFault (p u : Nat) (ctx : Option Nat) (addr : Nat) (s : State) :
    keep (ueFault p u ctx addr s) = keep s := by
  unfold ueFault
  simp

@[simp] theorem keep_trackHwm (n k : Nat) (s : State) :
    keep (trackHwm n k s) = keep s := by
  unfold trackHwm
  simp

@[simp] theorem keep_accessUe (slot : List Nat) (n g : Nat) (s : State) :
    keep (accessUe slot n g s) = keep s := by
  unfold accessUe
  simp

@[simp] theorem keep_readUe (slot : List Nat) (n : Nat) (p : Packet) (g : Nat) (s : State) :
    keep (readUe slot n p g s) = keep s := by
  unfold readUe
  dsimp only
  repeat' split
  all_goals simp

@[simp] theorem ok_dramWrite (n a : Nat) (ws : List W64) (s : State) (k : Key) (h : Ok ch k (keep s)) :
    Ok ch k (keep (dramWrite n a ws s)) := by
  unfold dramWrite
  simp only [keep_modMec]
  exact ⟨h.1, h.2.1, h.2.2.1, fun w => wf_wrN _ _ _ (h.2.2.2.1 w), h.2.2.2.2.1, h.2.2.2.2.2⟩

@[simp] theorem ok_serveDram (n : Nat) (p : Packet) (a : Nat) (ecc : Ecc) (s : State) (k : Key) (hk : Ok ch k (keep s)) :
    Ok ch k (keep (serveDram n p a ecc s)) := by
  unfold serveDram
  dsimp only
  repeat' split
  all_goals simp [hk]

@[simp] theorem keep_pageFault (n ctx va : Nat) (r : PfReason) (s : State) :
    keep (pageFault n ctx va r s) = keep s := by
  unfold pageFault
  simp

@[simp] theorem keep_tlbPut (n c vpn : Nat) (pte : W64) (s : State) :
    keep (tlbPut n c vpn pte s) = keep s := by
  unfold tlbPut
  simp

@[simp] theorem keep_pteRead (n pa : Nat) (ecc : Ecc) (s : State) :
    keep (pteRead n pa ecc s).2 = keep s := by
  unfold pteRead
  dsimp only
  repeat' split
  all_goals simp

@[simp] theorem ok_forward (n : Nat) (p : Packet) (pa : Nat) (ecc : Ecc) (s : State) (kk : Key) (hk : Ok ch kk (keep s)) :
    Ok ch kk (keep (forward n p pa ecc s)) := by
  unfold forward
  dsimp only
  repeat' split
  all_goals simp [hk]

@[simp] theorem keep_faultReply (n : Nat) (p : Packet) (r : PfReason) (s : State) :
    keep (faultReply n p r s) = keep s := by
  unfold faultReply
  simp

@[simp] theorem ok_walked (n : Nat) (p : Packet) (pte : Option W64) (cache : Bool) (ecc : Ecc) (s : State) (kk : Key) (hk : Ok ch kk (keep s)) :
    Ok ch kk (keep (walked n p pte cache ecc s)) := by
  unfold walked
  dsimp only
  repeat' split
  all_goals simp [hk]

@[simp] theorem keep_lookupCheck (n c vpn : Nat) (ecc : Ecc) (s : State) :
    keep (lookupCheck n c vpn ecc s) = keep s := by
  unfold lookupCheck
  simp

@[simp] theorem ok_translate (n : Nat) (p : Packet) (ecc : Checks) (s : State) (kk : Key) (hk : Ok ch kk (keep s)) :
    Ok ch kk (keep (translate n p ecc s)) := by
  unfold translate
  dsimp only
  repeat' split
  all_goals simp [hk]

@[simp] theorem ok_mecTake (n op : Nat) (ecc : Checks) (s : State) (kk : Key) (hk : Ok ch kk (keep s)) :
    Goes (fun t => Ok ch kk (keep t)) (mecTake n op ecc s) := by
  unfold mecTake
  dsimp only
  repeat' split
  all_goals simp [hk]

@[simp] theorem ok_execDread (n : Nat) (ecc : Checks) (s : State) (kk : Key) (hk : Ok ch kk (keep s)) :
    Goes (fun t => Ok ch kk (keep t)) (execDread n ecc s) := by
  unfold execDread
  simp [hk]

@[simp] theorem ok_execDwrite (n : Nat) (ecc : Checks) (s : State) (kk : Key) (hk : Ok ch kk (keep s)) :
    Goes (fun t => Ok ch kk (keep t)) (execDwrite n ecc s) := by
  unfold execDwrite
  simp [hk]

@[simp] theorem ok_execRingRequest (n : Nat) (ecc : Checks) (s : State) (kk : Key) (hk : Ok ch kk (keep s)) :
    Goes (fun t => Ok ch kk (keep t)) (execRingRequest n ecc s) := by
  unfold execRingRequest
  repeat' split
  all_goals simp [hk]

@[simp] theorem keep_tlbDrop (c : Option Nat) (s : State) :
    keep (tlbDrop c s) = keep s := by
  unfold tlbDrop
  simp

@[simp] theorem keep_mirrorWrite (c : Nat) (base : BitVec 29) (pages : BitVec 15) (s : State) :
    keep (mirrorWrite c base pages s) = keep s := by
  unfold mirrorWrite
  simp

@[simp] theorem keep_execMemTlbInvCtx (h : Req) (c : Nat) (s : State) :
    Goes (fun t => keep t = keep s) (execMemTlbInvCtx h c s) := by
  unfold execMemTlbInvCtx
  repeat' split
  all_goals simp

@[simp] theorem keep_execMemTlbInvAll (h : Req) (s : State) :
    Goes (fun t => keep t = keep s) (execMemTlbInvAll h s) := by
  unfold execMemTlbInvAll
  simp

theorem wf_foldl_wr8 (l : Bytes) (g : Nat × Byte → Nat) (d : Bytes) (h : Memory.wf d = true) :
    Memory.wf (l.foldl (fun d e => wr8 d (g e) e.2) d) = true := by
  induction l generalizing d with
  | nil => exact h
  | cons x l ih => exact ih _ (wf_wr8 _ _ _ h)

theorem ok_regranule (v : BitVec 2) (s : State) (k : Key) (hv : v ≠ 3) (h : Ok ch k (keep s)) : Ok ch k (keep (regranule v s)) :=
  ⟨h.1, h.2.1, h.2.2.1, fun _ => by
    unfold regranule keep
    exact wf_foldl_wr8 _ _ _ (show Memory.wf [] = true from rfl), fun _ => hv, h.2.2.2.2.2⟩

@[simp] theorem ok_memCfg (v : W32) (s : State) (k : Key) (h : Ok ch k (keep s)) : Ok ch k (keep (memCfg v s).2) := by
  unfold memCfg
  split
  · exact h
  · split
    · exact h
    · rename_i hv
      refine ok_regranule _ _ _ (fun e => hv ?_) h
      have := congrArg BitVec.toNat e
      simpa [BitVec.toNat_ofNat] using this

@[simp] theorem ok_execMemCfgWrite (h : Req) (v : W32) (s : State) (kk : Key) (hk : Ok ch kk (keep s)) :
    Goes (fun t => Ok ch kk (keep t)) (execMemCfgWrite h v s) := by
  unfold execMemCfgWrite
  simp [hk]

@[simp] theorem keep_execCalibrationDue (n : Nat) (s : State) :
    Goes (fun t => keep t = keep s) (execCalibrationDue n s) := by
  unfold execCalibrationDue
  repeat' split
  all_goals simp

@[simp] theorem keep_execCalLate (n : Nat) (s : State) :
    Goes (fun t => keep t = keep s) (execCalLate n s) := by
  unfold execCalLate
  repeat' split
  all_goals simp

@[simp] theorem keep_scrubWatch (s : State) :
    keep (scrubWatch s) = keep s := by
  unfold scrubWatch
  simp

@[simp] theorem keep_calWindow (s : State) :
    keep (calWindow s) = keep s := by
  unfold calWindow
  simp

@[simp] theorem keep_execPatrolScrub (n : Nat) (ecc : Ecc) (s : State) :
    Goes (fun t => keep t = keep s) (execPatrolScrub n ecc s) := by
  unfold execPatrolScrub
  repeat' split
  all_goals simp

@[simp] theorem keep_tempRead (n t : Nat) (s : State) :
    keep (tempRead n t s) = keep s := by
  unfold tempRead
  simp

@[simp] theorem keep_refreshed (n : Nat) (s : State) :
    keep (refreshed n s) = keep s := by
  unfold refreshed
  simp

@[simp] theorem keep_mecTelemetry (n : Nat) (t : Telemetry) (s : State) :
    keep (mecTelemetry n t s) = keep s := by
  unfold mecTelemetry
  simp

/-! ## Machine/Se.lean -/

@[simp] theorem keep_seForget (e : Nat) (kp : Option (List Nat)) (s : State) :
    keep (seForget e kp s) = keep s := by
  unfold seForget
  simp

@[simp] theorem keep_seSettle (e : Nat) (s : State) :
    keep (seSettle e s) = keep s := by
  unfold seSettle
  simp

@[simp] theorem keep_seStart (e : Nat) (s : State) :
    keep (seStart e s) = keep s := by
  unfold seStart
  simp

@[simp] theorem keep_seFrame (p : Nat) (s : State) :
    keep (seFrame p s) = keep s := by
  unfold seFrame
  simp

@[simp] theorem keep_seReplay (p : Nat) (s : State) :
    keep (seReplay p s) = keep s := by
  unfold seReplay
  simp

@[simp] theorem keep_seHalt (p : Nat) (s : State) :
    keep (seHalt p s) = keep s := by
  unfold seHalt
  simp

@[simp] theorem keep_seAbandon (p : Nat) (s : State) :
    keep (seAbandon p s) = keep s := by
  unfold seAbandon
  simp

@[simp] theorem keep_seRelease (p : Nat) (s : State) :
    keep (seRelease p s) = keep s := by
  unfold seRelease
  simp

@[simp] theorem keep_seAssign (p : Nat) (l : List SeRec) (s : State) :
    keep (seAssign p l s) = keep s := by
  unfold seAssign
  simp

@[simp] theorem keep_seError (e key code : Nat) (pf : Bool) (s : State) :
    keep (seError e key code pf s) = keep s := by
  unfold seError
  simp

@[simp] theorem keep_seGot (e c vpn : Nat) (pte : W64) (s : State) :
    keep (seGot e c vpn pte s) = keep s := by
  unfold seGot
  simp

@[simp] theorem keep_seWalk (e c va : Nat) (write : Bool) (ecc : Ecc) (s : State) :
    keep (seWalk e c va write ecc s).2 = keep s := by
  unfold seWalk
  dsimp only
  repeat' split
  all_goals simp

@[simp] theorem keep_seTranslate (e c va : Nat) (write : Bool) (ecc : Ecc) (s : State) :
    keep (seTranslate e c va write ecc s).2.2 = keep s := by
  unfold seTranslate
  dsimp only
  repeat' split
  all_goals simp

@[simp] theorem keep_sePages (e c : Nat) (write : Bool) (vs : List Nat) (ecc : Ecc) (s : State) :
    keep (sePages e c write vs ecc s).2.2 = keep s := by
  induction vs generalizing ecc s with
  | nil => rfl
  | cons v vs ih =>
    unfold sePages
    dsimp only
    repeat' split
    all_goals simp [ih]

@[simp] theorem keep_seResolve (e p : Nat) (d : SeDesc) (c : Nat) (l : List Int) (ecc : Ecc) (s : State) :
    keep (seResolve e p d c l ecc s).2.2 = keep s := by
  unfold seResolve
  dsimp only
  repeat' split
  all_goals simp

@[simp] theorem keep_seReadWords (e : Nat) (ctx : Option Nat) (d : SeDesc) (pas : List Nat) (ecc : Ecc) (s : State) :
    keep (seReadWords e ctx d pas ecc s).2 = keep s := by
  unfold seReadWords
  dsimp only
  repeat' split
  all_goals simp

@[simp] theorem keep_seFailed (e key c : Nat) (x : SeFail) (s : State) :
    keep (seFailed e key c x s) = keep s := by
  unfold seFailed
  repeat' split
  all_goals simp

@[simp] theorem keep_seMove (e fuel : Nat) (ecc : Checks) (s : State) : keep (seMove e fuel ecc s) = keep s := by
  induction fuel generalizing ecc s with
  | zero => rfl
  | succ fuel ih =>
    unfold seMove
    extract_lets
    repeat' (first | split | extract_lets)
    all_goals (try simp +zetaDelta [ih])
    all_goals (repeat' split)
    all_goals simp [ih]

@[simp] theorem keep_seSyncReq (e obj v sop : Nat) (gate batch : Bool) (s : State) :
    keep (seSyncReq e obj v sop gate batch s) = keep s := by
  unfold seSyncReq
  simp

@[simp] theorem keep_seListRead (e k n : Nat) (s : State) :
    keep (seListRead e k n s) = keep s := by
  unfold seListRead
  simp

@[simp] theorem keep_seBatch (e : Nat) (x : Se) (c : Option PolderCfg) (s : State) :
    IfSome (fun t => keep t = keep s) (seBatch e x c s) := by
  unfold seBatch
  repeat' split
  all_goals simp

theorem keep_execSeIteration (r : EngineRun) (s : State) : Goes (fun t => keep t = keep s) (execSeIteration r s) := by
  unfold execSeIteration
  extract_lets e x
  split
  · simp
  split
  · simp
  split
  · simp
  rename_i d _
  have hb : IfSome (fun t => keep t = keep s) (if d.ctxsel then seBatch e x (getPolder s x.owner.toNat).cfg s else none) := by
    split <;> simp
  split
  · rename_i t h
    simpa using hb t h
  · repeat' split
    all_goals simp +zetaDelta

@[simp] theorem keep_seWalked (e : Nat) (m : RingMsg) (s : State) :
    keep (seWalked e m s) = keep s := by
  unfold seWalked
  dsimp only
  repeat' split
  all_goals simp

@[simp] theorem ok_execRingReply (r : RingAt) (s : State) (kk : Key) (hk : Ok ch kk (keep s)) :
    Goes (fun t => Ok ch kk (keep t)) (execRingReply r s) := by
  unfold execRingReply
  repeat' split
  all_goals simp [hk]

@[simp] theorem keep_execSeIterationDone (e : Nat) (s : State) :
    Goes (fun t => keep t = keep s) (execSeIterationDone e s) := by
  unfold execSeIterationDone
  dsimp only
  repeat' split
  all_goals simp

@[simp] theorem keep_seListData (e k : Nat) (ws : List W64) (s : State) :
    keep (seListData e k ws s) = keep s := by
  unfold seListData
  simp

@[simp] theorem keep_seWsat (e : Nat) (gate batch : Bool) (s : State) :
    keep (seWsat e gate batch s) = keep s := by
  unfold seWsat
  simp

theorem wf_foldl_wrN (l : List (Nat × W64)) (d : Bytes) (h : Memory.wf d = true) :
    Memory.wf (l.foldl (fun d x => wrN d x.1 (toLe 8 x.2.toNat)) d) = true := by
  induction l generalizing d with
  | nil => exact h
  | cons x l ih => exact ih _ (wf_wrN _ _ _ h)

@[simp] theorem ok_seStore (e : Nat) (key ctx : Option Nat) (pas : List Nat) (ws : List W64) (ecc : Ecc) (s : State)
    (k : Key) (hk : Ok ch k (keep s)) : Ok ch k (keep (seStore e key ctx pas ws ecc s)) := by
  unfold seStore
  extract_lets prs gs parts bad slot s1 ends
  have hs : keep s1 = keep s := by
    unfold s1
    cases parts with
    | nil => rfl
    | cons g l => dsimp only; split <;> simp
  have he : ∀ c t, keep (ends c t) = keep t := by
    intro c t
    unfold ends
    split <;> simp
  refine Ok_forEach _ _ _ _ (fun g t ht => ?_) (by rw [hs]; exact hk)
  dsimp only
  repeat' split
  all_goals simp only [he, keep_modMec, keep_ueFault, keep_accessUe]
  all_goals (first | exact ht | exact Ok_dram _ _ _ _ (by simpa using ht) (wf_foldl_wrN _ _))

@[simp] theorem keep_seNack (e : Nat) (use : Use) (code : Nat) (s : State) :
    keep (seNack e use code s) = keep s := by
  unfold seNack
  simp

/-! ## Machine/Span.lean -/

@[simp] theorem keep_spFlag (p i : Nat) (s : State) :
    keep (spFlag p i s) = keep s := by
  unfold spFlag
  simp

@[simp] theorem keep_modSpanCfg (s : State) (f : Span → Span) :
    keep (modSpanCfg s f) = keep s := by
  unfold modSpanCfg
  simp

@[simp] theorem keep_spanSend (q : Nat) (k : SpanPkt) (s : State) :
    keep (spanSend q k s) = keep s := by
  unfold spanSend
  simp

@[simp] theorem keep_ringPut (p c : Nat) (k : SpanPkt) (s : State) :
    keep (ringPut p c k s) = keep s := by
  unfold ringPut
  simp

@[simp] theorem keep_spanOn (p c : Nat) (fell : Bool) (k : SpanPkt) (s : State) :
    keep (spanOn p c fell k s) = keep s := by
  unfold spanOn
  simp

@[simp] theorem keep_spanLost (p : Nat) (s : State) :
    keep (spanLost p s) = keep s := by
  unfold spanLost
  simp

@[simp] theorem keep_spanReplyHere (k : SpanPkt) (s : State) :
    keep (spanReplyHere k s) = keep s := by
  unfold spanReplyHere
  dsimp only
  repeat' split
  all_goals simp

@[simp] theorem keep_spanReply (p : Nat) (k : SpanPkt) (s : State) :
    keep (spanReply p k s) = keep s := by
  unfold spanReply
  simp

@[simp] theorem keep_spanNack (p code : Nat) (ingress : Bool) (k : SpanPkt) (s : State) :
    keep (spanNack p code ingress k s) = keep s := by
  unfold spanNack
  simp

@[simp] theorem keep_spanInject (p : Nat) (k : SpanPkt) (s : State) :
    keep (spanInject p k s) = keep s := by
  unfold spanInject
  simp

@[simp] theorem keep_spanIngress (p : Nat) (k : SpanPkt) (s : State) :
    keep (spanIngress p k s) = keep s := by
  unfold spanIngress
  simp

@[simp] theorem keep_spanRoute (p : Nat) (k : SpanPkt) (s : State) :
    keep (spanRoute p k s) = keep s := by
  unfold spanRoute
  simp

@[simp] theorem keep_ringPeriod (s : State) :
    keep (ringPeriod s) = keep s := by
  unfold ringPeriod
  simp

@[simp] theorem keep_spanUnhold (p : Nat) (s : State) :
    keep (spanUnhold p s) = keep s := by
  unfold spanUnhold
  repeat' split
  all_goals simp

@[simp] theorem keep_relayBack (p : Nat) (r : Packet) (swafer eseq eport : Nat) (s : State) :
    keep (relayBack p r swafer eseq eport s) = keep s := by
  unfold relayBack
  simp

@[simp] theorem keep_execSpanEgress (p : Nat) (s : State) :
    Goes (fun t => keep t = keep s) (execSpanEgress p s) := by
  unfold execSpanEgress
  dsimp only
  repeat' split
  all_goals simp

@[simp] theorem keep_execRelayTimeout (p : Nat) (egress : Bool) (q : Nat) (s : State) :
    Goes (fun t => keep t = keep s) (execRelayTimeout p egress q s) := by
  unfold execRelayTimeout
  repeat' split
  all_goals simp

@[simp] theorem keep_spanSeq (p : Nat) (seq : W32) (s : State) :
    keep (spanSeq p seq s).2 = keep s := by
  unfold spanSeq
  dsimp only
  repeat' split
  all_goals simp

theorem keep_spanIn (p : Nat) (fr : SpanIn) (typ : Nat) (f : State → Out) (s : State)
    (h : ∀ t, Goes (fun x => keep x = keep t) (f t)) : Goes (fun t => keep t = keep s) (spanIn p fr typ f s) := by
  unfold spanIn
  repeat' split
  all_goals (first | exact h s | simp)

@[simp] theorem keep_spanTake (p : Nat) (pkts : List SpanPkt) (s : State) :
    keep (spanTake p pkts s) = keep s := by
  unfold spanTake
  simp

theorem keep_execSpanData (p : Nat) (header : BitVec 128) (body : FrameBody) (fec : Fec) (s : State) :
    Goes (fun t => keep t = keep s) (execSpanData p header body fec s) := by
  unfold execSpanData
  exact keep_spanIn _ _ _ _ _ (fun t => by
    dsimp only
    repeat' split
    all_goals simp)

@[simp] theorem keep_fallBack (t : Nat → Bool) (s : State) :
    keep (fallBack t s) = keep s := by
  unfold fallBack
  simp

@[simp] theorem keep_sendReach (but hops m : Nat) (s : State) :
    keep (sendReach but hops m s) = keep s := by
  unfold sendReach
  simp

@[simp] theorem keep_spanLinkDown (p : Nat) (s : State) :
    keep (spanLinkDown p s) = keep s := by
  unfold spanLinkDown
  simp

@[simp] theorem keep_spanTrain (p : Nat) (s : State) :
    keep (spanTrain p s) = keep s := by
  unfold spanTrain
  simp

@[simp] theorem keep_spanReplay (p : Nat) (s : State) :
    keep (spanReplay p s) = keep s := by
  unfold spanReplay
  simp

@[simp] theorem keep_spanAckIn (p : Nat) (ackseq : W32) (nak : Bool) (creq crpl : Nat) (s : State) :
    keep (spanAckIn p ackseq nak creq crpl s) = keep s := by
  unfold spanAckIn
  simp

theorem keep_execSpanAck (p : Nat) (header : BitVec 128) (payload : List W64) (crc : W32) (fec : Fec) (s : State) :
    Goes (fun t => keep t = keep s) (execSpanAck p header payload crc fec s) := by
  unfold execSpanAck
  exact keep_spanIn _ _ _ _ _ (fun t => by simp)

@[simp] theorem keep_execSpanDown (p : Nat) (s : State) :
    Goes (fun t => keep t = keep s) (execSpanDown p s) := by
  unfold execSpanDown
  repeat' split
  all_goals simp

@[simp] theorem keep_execSpanUp (p peer : Nat) (peerEn : Bool) (s : State) :
    Goes (fun t => keep t = keep s) (execSpanUp p peer peerEn s) := by
  unfold execSpanUp
  dsimp only
  repeat' split
  all_goals simp

theorem keep_execReach (p : Nat) (fr : SpanIn) (hops : Nat) (wmap : W64) (s : State) :
    Goes (fun t => keep t = keep s) (execReach p fr hops wmap s) := by
  unfold execReach
  exact keep_spanIn _ _ _ _ _ (fun t => by
    dsimp only
    repeat' split
    all_goals simp)

@[simp] theorem keep_execSpanTable (q : Nat) (s : State) :
    Goes (fun t => keep t = keep s) (execSpanTable q s) := by
  unfold execSpanTable
  simp

@[simp] theorem keep_execSpanSluice (q : Nat) (s : State) :
    Goes (fun t => keep t = keep s) (execSpanSluice q s) := by
  unfold execSpanSluice
  simp

@[simp] theorem keep_spanCfg (v : W32) (s : State) :
    keep (spanCfg v s).2 = keep s := by
  unfold spanCfg
  dsimp only
  repeat' split
  all_goals simp

@[simp] theorem keep_execSpanCfgWrite (h : Req) (v : W32) (s : State) :
    Goes (fun t => keep t = keep s) (execSpanCfgWrite h v s) := by
  unfold execSpanCfgWrite
  simp

@[simp] theorem keep_spRetrain (p : Nat) (s : State) :
    keep (spRetrain p s).2 = keep s := by
  unfold spRetrain
  repeat' split
  all_goals simp

@[simp] theorem keep_execSpCtrlRetrain (h : Req) (p : Nat) (s : State) :
    Goes (fun t => keep t = keep s) (execSpCtrlRetrain h p s) := by
  unfold execSpCtrlRetrain
  repeat' split
  all_goals simp

@[simp] theorem keep_spanKeep (s : State) :
    keep (spanKeep s) = keep s := by
  unfold spanKeep
  simp

@[simp] theorem keep_spanOff (ports : List Nat) (s : State) :
    keep (spanOff ports s) = keep s := by
  unfold spanOff
  simp

@[simp] theorem keep_spanClear (s : State) :
    keep (spanClear s) = keep s := by
  unfold spanClear
  simp

/-! ## Machine/Link.lean -/

@[simp] theorem keep_chooseActive (s : State) :
    keep (chooseActive s) = keep s := by
  unfold chooseActive
  simp

@[simp] theorem keep_nlMode (v : W32) (s : State) :
    keep (nlMode v s) = keep s := by
  unfold nlMode
  simp

@[simp] theorem keep_execNlModeWrite (h : Req) (v : W32) (s : State) :
    Goes (fun t => keep t = keep s) (execNlModeWrite h v s) := by
  unfold execNlModeWrite
  simp

@[simp] theorem keep_drainHold (x0 : Nat) (x1 : State) :
    keep (drainHold x0 x1) = keep x1 := by
  induction x0 generalizing x1 with
  | zero => rfl
  | succ n ih =>
    unfold drainHold
    repeat' (first | split | extract_lets)
    all_goals (first | with_reducible rfl | with_reducible assumption | (simp +zetaDelta [ih]; done))

@[simp] theorem keep_execEvt (s : State) :
    Goes (fun t => keep t = keep s) (execEvt s) := by
  unfold execEvt
  repeat' split
  all_goals simp

@[simp] theorem keep_execUmsg (x : Nat) (s : State) :
    Goes (fun t => keep t = keep s) (execUmsg x s) := by
  unfold execUmsg
  repeat' split
  all_goals simp

@[simp] theorem keep_linkTrain (p : Nat) (s : State) :
    keep (linkTrain p s) = keep s := by
  unfold linkTrain
  simp

@[simp] theorem keep_lostFrames (p : Nat) (s : State) :
    keep (lostFrames p s) = keep s := by
  unfold lostFrames
  simp

@[simp] theorem keep_loseAccesses (s : State) :
    keep (loseAccesses s) = keep s := by
  unfold loseAccesses
  simp

@[simp] theorem keep_linkGoesDown (p : Nat) (s : State) :
    keep (linkGoesDown p s) = keep s := by
  unfold linkGoesDown
  simp

@[simp] theorem keep_execLinkDown (p : Nat) (s : State) :
    Goes (fun t => keep t = keep s) (execLinkDown p s) := by
  unfold execLinkDown
  repeat' split
  all_goals simp

@[simp] theorem keep_execLinkUp (p : Nat) (s : State) :
    Goes (fun t => keep t = keep s) (execLinkUp p s) := by
  unfold execLinkUp
  dsimp only
  repeat' split
  all_goals simp

@[simp] theorem keep_execTrainRetry (p lanes : Nat) (s : State) :
    Goes (fun t => keep t = keep s) (execTrainRetry p lanes s) := by
  unfold execTrainRetry
  dsimp only
  repeat' split
  all_goals simp

@[simp] theorem keep_nlEn (p : Nat) (en : Bool) (s : State) :
    keep (nlEn p en s) = keep s := by
  unfold nlEn
  simp

@[simp] theorem keep_execNlCtrlEn (h : Req) (port : Nat) (en : Bool) (s : State) :
    Goes (fun t => keep t = keep s) (execNlCtrlEn h port en s) := by
  unfold execNlCtrlEn
  repeat' split
  all_goals simp

@[simp] theorem keep_nlRetrain (p : Nat) (s : State) :
    keep (nlRetrain p s) = keep s := by
  unfold nlRetrain
  simp

@[simp] theorem keep_execNlCtrlRetrain (h : Req) (port : Nat) (s : State) :
    Goes (fun t => keep t = keep s) (execNlCtrlRetrain h port s) := by
  unfold execNlCtrlRetrain
  repeat' split
  all_goals simp

@[simp] theorem keep_noteFec (fr : LinkFrame) (s : State) :
    keep (noteFec fr s) = keep s := by
  unfold noteFec
  repeat' split
  all_goals simp

theorem keep_frameIn (fr : LinkFrame) (typ : Nat) (f : State → Out) (s : State)
    (h : ∀ t, Goes (fun x => keep x = keep t) (f t)) : Goes (fun t => keep t = keep s) (frameIn fr typ f s) := by
  unfold frameIn
  dsimp only
  repeat' split
  all_goals (first | simp; done | (have := h (noteFec fr s); simpa using this))

theorem ok_frameIn (fr : LinkFrame) (typ : Nat) (f : State → Out) (s : State) (k : Key) (hk : Ok ch k (keep s))
    (h : ∀ t, Ok ch k (keep t) → Goes (fun x => Ok ch k (keep x)) (f t)) : Goes (fun t => Ok ch k (keep t)) (frameIn fr typ f s) := by
  unfold frameIn
  dsimp only
  repeat' split
  all_goals (first | (simp [hk]; done) | exact h _ (by simpa using hk))

@[simp] theorem keep_replay (p : Nat) (s : State) :
    keep (replay p s) = keep s := by
  unfold replay
  simp

@[simp] theorem keep_ackIn (port : Nat) (ackseq : W32) (nak : Bool) (ecredit : Nat) (s : State) :
    keep (ackIn port ackseq nak ecredit s) = keep s := by
  unfold ackIn
  simp

theorem keep_execAckFrame (port : Nat) (header : BitVec 128) (body : FrameBody) (fec : Fec) (s : State) :
    Goes (fun t => keep t = keep s) (execAckFrame port header body fec s) := by
  unfold execAckFrame
  exact keep_frameIn _ _ _ _ (fun t => by simp)

@[simp] theorem keep_execReplayTimeout (p : Nat) (s : State) :
    Goes (fun t => keep t = keep s) (execReplayTimeout p s) := by
  unfold execReplayTimeout
  repeat' split
  all_goals simp

@[simp] theorem keep_failIn (port : Nat) (rxnext : W32) (failed : Nat) (confirm : Bool) (s : State) :
    keep (failIn port rxnext failed confirm s) = keep s := by
  unfold failIn
  simp

theorem keep_execFailover (port : Nat) (header : BitVec 128) (body : FrameBody) (fec : Fec) (s : State) :
    Goes (fun t => keep t = keep s) (execFailover port header body fec s) := by
  unfold execFailover
  exact keep_frameIn _ _ _ _ (fun t => by split <;> simp)

@[simp] theorem keep_execFailoverRepeat (port : Nat) (s : State) :
    Goes (fun t => keep t = keep s) (execFailoverRepeat port s) := by
  unfold execFailoverRepeat
  repeat' split
  all_goals simp

@[simp] theorem keep_takeSeq (port : Nat) (seq : W32) (s : State) :
    keep (takeSeq port seq s).2 = keep s := by
  unfold takeSeq
  dsimp only
  repeat' split
  all_goals simp

@[simp] theorem keep_openAccess (h : Req) (read : Bool) (n w : Nat) (s : State) :
    keep (openAccess h read n w s).2 = keep s := by
  unfold openAccess
  simp

@[simp] theorem keep_partDone (id off : Nat) (ws : List W64) (code : Option Nat) (s : State) :
    keep (partDone id off ws code s) = keep s := by
  unfold partDone
  dsimp only
  repeat' split
  all_goals simp

/-! ## Machine/Source.lean -/

@[simp] theorem keep_donePred (u : Nat) (pd : Option Nat) (s : State) :
    keep (donePred u pd s) = keep s := by
  unfold donePred
  repeat' split
  all_goals simp

@[simp] theorem keep_staleReply (u : Nat) (s : State) :
    keep (staleReply u s) = keep s := by
  unfold staleReply
  simp

@[simp] theorem keep_meshFlag (u i : Nat) (s : State) :
    keep (meshFlag u i s) = keep s := by
  unfold meshFlag
  simp

@[simp] theorem keep_resend (u : Nat) (o : Outst) (s : State) :
    keep (resend u o s) = keep s := by
  unfold resend
  simp

@[simp] theorem keep_mgcListDone (p num : Nat) (s : State) :
    keep (mgcListDone p num s) = keep s := by
  unfold mgcListDone
  dsimp only
  repeat' split
  all_goals simp

@[simp] theorem keep_mcSendMore (u q x2 : Nat) (x3 : State) :
    keep (mcSendMore u q x2 x3) = keep x3 := by
  induction x2 generalizing x3 with
  | zero => rfl
  | succ n ih =>
    unfold mcSendMore
    dsimp only
    repeat' split
    all_goals (first | simp [ih] | with_reducible assumption | with_reducible rfl)

@[simp] theorem keep_mcFinish (u q : Nat) (s : State) :
    keep (mcFinish u q s) = keep s := by
  unfold mcFinish
  repeat' split
  all_goals simp

@[simp] theorem keep_mcRow (u : Nat) (o : Outst) (off : Nat) (bad : List Nat) (s : State) :
    keep (mcRow u o off bad s) = keep s := by
  unfold mcRow
  repeat' split
  all_goals simp

@[simp] theorem keep_mcResent (u q t : Nat) (code : Option Nat) (s : State) :
    keep (mcResent u q t code s) = keep s := by
  unfold mcResent
  simp

@[simp] theorem keep_ackDone (u : Nat) (o : Outst) (p : Packet) (s : State) :
    keep (ackDone u o p s) = keep s := by
  unfold ackDone
  repeat' split
  all_goals simp

@[simp] theorem keep_fillLine (u k : Nat) (bs : List Byte) (err : Bool) (s : State) :
    keep (fillLine u k bs err s) = keep s := by
  unfold fillLine
  simp

@[simp] theorem ok_dataDone (u : Nat) (ecc : Ecc) (o : Outst) (p : Packet) (s : State) (kk : Key) (hk : Ok ch kk (keep s)) :
    Ok ch kk (keep (dataDone u ecc o p s)) := by
  unfold dataDone
  repeat' split
  all_goals simp [hk]

@[simp] theorem keep_dramErr (u : Nat) (s : State) :
    keep (dramErr u s) = keep s := by
  unfold dramErr
  simp

@[simp] theorem keep_lineLost (u : Nat) (s : State) :
    keep (lineLost u s) = keep s := by
  unfold lineLost
  simp

@[simp] theorem keep_failDone (u : Nat) (o : Outst) (code : Option Nat) (s : State) :
    keep (failDone u o code s) = keep s := by
  unfold failDone
  repeat' split
  all_goals simp

@[simp] theorem keep_nackDone (u code resp : Nat) (o : Outst) (s : State) :
    keep (nackDone u code resp o s) = keep s := by
  unfold nackDone
  simp

@[simp] theorem keep_noteNack (u : Nat) (p : Packet) (s : State) :
    keep (noteNack u p s) = keep s := by
  unfold noteNack
  simp

@[simp] theorem keep_replyCmd (u op : Nat) (f : Outst → Packet → State → State) (s : State)
    (h : ∀ o p t, keep (f o p t) = keep t) : Goes (fun t => keep t = keep s) (replyCmd u op f s) := by
  unfold replyCmd
  split
  · simp
  · cases ha : arrivedWith s u op with
    | none => simp
    | some r =>
      have hr : keep r.2 = keep s := keep_arrivedWith _ _ _ _ ha
      dsimp only
      split <;> simp [h, hr]

theorem ok_replyCmd (u op : Nat) (f : Outst → Packet → State → State) (s : State) (k : Key) (hk : Ok ch k (keep s))
    (h : ∀ o p t, Ok ch k (keep t) → Ok ch k (keep (f o p t))) : Goes (fun t => Ok ch k (keep t)) (replyCmd u op f s) := by
  unfold replyCmd
  split
  · simp
  · cases ha : arrivedWith s u op with
    | none => simpa using hk
    | some r =>
      have hr : keep r.2 = keep s := keep_arrivedWith _ _ _ _ ha
      dsimp only
      split
      · rw [Goes_next]
        exact h _ _ _ (by simpa [hr] using hk)
      · simpa [hr] using hk

@[simp] theorem keep_execAck (u : Nat) (s : State) :
    Goes (fun t => keep t = keep s) (execAck u s) := by
  unfold execAck
  simp

@[simp] theorem ok_execRdata (d : DataAt) (s : State) (kk : Key) (hk : Ok ch kk (keep s)) :
    Goes (fun t => Ok ch kk (keep t)) (execRdata d s) := by
  unfold execRdata
  repeat' (first | with_reducible assumption | (simp [hk]; done) | split
                 | refine ok_hostCmd _ _ _ _ _ hk (fun _ _ hk => ?_) | refine ok_replyCmd _ _ _ _ _ hk (fun _ _ _ hk => ?_)
                 | refine Ok_forEach _ _ _ _ (fun _ _ hk => ?_) ?_ | dsimp only | extract_lets)

@[simp] theorem keep_execWval (u : Nat) (s : State) :
    Goes (fun t => keep t = keep s) (execWval u s) := by
  unfold execWval
  repeat' (first | with_reducible rfl | (simp; done) | split
                 | refine keep_hostCmd _ _ _ _ (fun _ _ => ?_) | refine keep_replyCmd _ _ _ _ (fun _ _ _ => ?_)
                 | refine Eq.trans (keep_forEach _ _ _ (fun _ _ => ?_)) ?_ | dsimp only | extract_lets)

@[simp] theorem keep_execWsat (u : Nat) (s : State) :
    Goes (fun t => keep t = keep s) (execWsat u s) := by
  unfold execWsat
  repeat' (first | with_reducible rfl | (simp; done) | split
                 | refine keep_hostCmd _ _ _ _ (fun _ _ => ?_) | refine keep_replyCmd _ _ _ _ (fun _ _ _ => ?_)
                 | refine Eq.trans (keep_forEach _ _ _ (fun _ _ => ?_)) ?_ | dsimp only | extract_lets)

@[simp] theorem keep_execNack (u : Nat) (s : State) :
    Goes (fun t => keep t = keep s) (execNack u s) := by
  unfold execNack
  (try dsimp only)
  repeat' split
  all_goals (first | with_reducible rfl | (simp; done) | (simp; first | exact keep_arrivedWith _ _ _ _ ‹_›))

@[simp] theorem keep_execMcAck (u : Nat) (s : State) :
    Goes (fun t => keep t = keep s) (execMcAck u s) := by
  unfold execMcAck
  simp

@[simp] theorem keep_execMcNack (u : Nat) (s : State) :
    Goes (fun t => keep t = keep s) (execMcNack u s) := by
  unfold execMcNack
  simp

@[simp] theorem keep_execReplyTimer (u q : Nat) (s : State) :
    Goes (fun t => keep t = keep s) (execReplyTimer u q s) := by
  unfold execReplyTimer
  repeat' split
  all_goals simp

@[simp] theorem keep_execResendDelay (u q : Nat) (s : State) :
    Goes (fun t => keep t = keep s) (execResendDelay u q s) := by
  unfold execResendDelay
  repeat' split
  all_goals simp

/-! ## Machine/Units.lean -/

@[simp] theorem keep_dropInjected (u : Nat) (s : State) :
    keep (dropInjected u s) = keep s := by
  unfold dropInjected
  simp

@[simp] theorem keep_unitActivate (pmode : W32) (u : Nat) (x : UnitCfg) (s : State) :
    keep (unitActivate pmode u x s) = keep s := by
  unfold unitActivate
  repeat' split
  all_goals simp

@[simp] theorem keep_unitReload (u : Nat) (s : State) :
    keep (unitReload u s) = keep s := by
  unfold unitReload
  simp

@[simp] theorem keep_errFlush (u : Nat) (s : State) :
    keep (errFlush u s) = keep s := by
  unfold errFlush
  simp

@[simp] theorem keep_unitFrame (lo : W32) (replay : Bool) (u : Nat) (s : State) :
    keep (unitFrame lo replay u s) = keep s := by
  unfold unitFrame
  simp

@[simp] theorem keep_unitHalt (u : Nat) (s : State) :
    keep (unitHalt u s) = keep s := by
  unfold unitHalt
  simp

@[simp] theorem keep_setFenced (u : Nat) (b : Bool) (s : State) :
    keep (setFenced u b s) = keep s := by
  unfold setFenced
  simp

@[simp] theorem keep_lanesEmpty (p : Nat) (s : State) :
    keep (lanesEmpty p s) = keep s := by
  unfold lanesEmpty
  simp

@[simp] theorem keep_setWords (p : Nat) (units : List Nat) (words : Map (BitVec 768)) (s : State) :
    keep (setWords p units words s) = keep s := by
  unfold setWords
  simp

@[simp] theorem keep_wbackAddr (s : State) (p a : Nat) (paged : Bool) (ctx : Nat) :
    keep (wbackAddr s p a paged ctx).2 = keep s := by
  unfold wbackAddr
  dsimp only
  repeat' split
  all_goals simp

theorem keep_wbackAddr_eq {s t : State} {p a : Nat} {paged : Bool} {ctx : Nat} {r : Option Nat}
    (h : wbackAddr s p a paged ctx = (r, t)) : keep t = keep s := by
  have hw := keep_wbackAddr s p a paged ctx
  rw [h] at hw
  exact hw

@[simp] theorem ok_lineOut (u p k : Nat) (l : Line) (s : State) (kk : Key) (hk : Ok ch kk (keep s)) :
    Ok ch kk (keep (lineOut u p k l s)) := by
  unfold lineOut
  extract_lets
  split
  · rename_i h
    simp [keep_wbackAddr_eq h, hk]
  · rename_i h
    simp [keep_wbackAddr_eq h, hk]

@[simp] theorem ok_portOut (u p : Nat) (s : State) (kk : Key) (hk : Ok ch kk (keep s)) : Ok ch kk (keep (portOut u p s)) := by
  unfold portOut
  refine Ok_forEach _ _ _ _ (fun f t ht => ?_) hk
  dsimp only
  split
  · rename_i h
    simp [keep_wbackAddr_eq h, ht]
  · rename_i h
    simp [keep_wbackAddr_eq h, ht]

@[simp] theorem ok_unitOut (u : Nat) (s : State) (kk : Key) (hk : Ok ch kk (keep s)) : Ok ch kk (keep (unitOut u s)) := by
  unfold unitOut
  split
  · exact hk
  split
  · exact ok_portOut _ _ _ _ (Ok_forEach _ _ _ _ (fun e t ht => ok_lineOut _ _ _ _ _ _ ht) hk)
  · exact hk

@[simp] theorem keep_keepDramErr (old : State) (u : Nat) (s : State) :
    keep (keepDramErr old u s) = keep s := by
  unfold keepDramErr
  simp

@[simp] theorem keep_flushUnit (u : Nat) (s : State) :
    keep (flushUnit u s) = keep s := by
  unfold flushUnit
  simp

@[simp] theorem keep_flushPolder (p : Nat) (s : State) :
    keep (flushPolder p s) = keep s := by
  unfold flushPolder
  simp

@[simp] theorem keep_configEvent (p : Nat) (c : PolderCfg) (s : State) :
    keep (configEvent p c s) = keep s := by
  unfold configEvent
  simp

@[simp] theorem keep_activate (p : Nat) (c : PolderCfg) (s : State) :
    keep (activate p c s) = keep s := by
  unfold activate
  simp

@[simp] theorem keep_deactivate (p : Nat) (s : State) :
    keep (deactivate p s) = keep s := by
  unfold deactivate
  simp

@[simp] theorem keep_startUnits (p : Nat) (lo : W32) (replay : Bool) (s : State) :
    keep (startUnits p lo replay s) = keep s := by
  unfold startUnits
  simp

@[simp] theorem keep_holdCycle (u : Nat) (s : State) :
    keep (holdCycle u s) = keep s := by
  unfold holdCycle
  simp

@[simp] theorem keep_haltUnits (p : Nat) (s : State) :
    keep (haltUnits p s) = keep s := by
  unfold haltUnits
  simp

@[simp] theorem keep_execFrameEndSignal (u : Nat) (s : State) :
    Goes (fun t => keep t = keep s) (execFrameEndSignal u s) := by
  unfold execFrameEndSignal
  repeat' split
  all_goals simp

end Sys2Proof.Machine
end

