-- ==== Sys2Proof/Laws/KeepWafer.lean ====
section
/-! SUPPORT. Frames, contexts, command queues, polders, domains, the governor, repair, security and loading: what each leaves of the fixed part of the state. -/

namespace Sys2Proof.Machine

open Sys2Proof

variable {ch : Bool}

/-! ## Machine/RowMap.lean -/

@[simp] theorem keep_mapChange (g : FaultMap → FaultMap) (s : State) :
    keep (mapChange g s) = keep s := by
  unfold mapChange
  simp

@[simp] theorem keep_rowChange (f r : Nat) (g : RowMap → RowMap) (s : State) :
    keep (rowChange f r g s) = keep s := by
  unfold rowChange
  simp

@[simp] theorem keep_fenceRow (f r row : Nat) (s : State) :
    keep (fenceRow f r row s) = keep s := by
  unfold fenceRow
  simp

@[simp] theorem keep_fenceSpent (f : Nat) (s : State) :
    keep (fenceSpent f s) = keep s := by
  unfold fenceSpent
  simp

@[simp] theorem keep_bankRows (f : Nat) (rows : List Nat) (s : State) :
    keep (bankRows f rows s) = keep s := by
  unfold bankRows
  simp

@[simp] theorem keep_remap (f : Nat) (s : State) :
    keep (remap f s) = keep s := by
  unfold remap
  simp

@[simp] theorem keep_remapWhole (rs : List Rect) (s : State) :
    keep (remapWhole rs s) = keep s := by
  unfold remapWhole
  simp

/-! ## Machine/Reset.lean -/

@[simp] theorem keep_finishWhere (t : Cmd → Bool) (status : Nat) (s : State) :
    keep (finishWhere t status s) = keep s := by
  unfold finishWhere
  repeat' (first | with_reducible rfl | (simp; done) | split
                 | refine keep_hostCmd _ _ _ _ (fun _ _ => ?_) | refine keep_replyCmd _ _ _ _ (fun _ _ _ => ?_)
                 | refine Eq.trans (keep_forEach _ _ _ (fun _ _ => ?_)) ?_ | dsimp only | extract_lets)

@[simp] theorem keep_refuseState (q : Nat) (c : Cmd) (budget : Bool) (s : State) :
    keep (refuseState q c budget s) = keep s := by
  unfold refuseState
  simp

@[simp] theorem keep_archiveTrim (s : State) :
    keep (archiveTrim s) = keep s := by
  unfold archiveTrim
  simp

@[simp] theorem keep_loadUndone (c : PolderCfg) (s : State) :
    keep (loadUndone c s) = keep s := by
  unfold loadUndone
  simp

@[simp] theorem keep_confDropped (p : Nat) (s : State) :
    keep (confDropped p s) = keep s := by
  unfold confDropped
  repeat' split
  all_goals simp

@[simp] theorem keep_confAbort (p status : Nat) (s : State) :
    keep (confAbort p status s) = keep s := by
  unfold confAbort
  simp

@[simp] theorem keep_cancelSwap (p status : Nat) (s : State) :
    keep (cancelSwap p status s) = keep s := by
  unfold cancelSwap
  simp

@[simp] theorem keep_reload (p : Nat) (s : State) :
    keep (reload p s) = keep s := by
  unfold reload
  repeat' split
  all_goals simp

@[simp] theorem keep_resetEnd (p : Nat) (s : State) :
    keep (resetEnd p s) = keep s := by
  unfold resetEnd
  simp

@[simp] theorem keep_vacate (p : Nat) (s : State) :
    keep (vacate p s) = keep s := by
  unfold vacate
  simp

@[simp] theorem keep_releaseEnd (p : Nat) (s : State) :
    keep (releaseEnd p s) = keep s := by
  unfold releaseEnd
  simp

@[simp] theorem keep_resetTick (p : Nat) (s : State) :
    keep (resetTick p s) = keep s := by
  unfold resetTick
  simp

/-! ## Machine/Frames.lean -/

@[simp] theorem keep_hintSpent (p t : Nat) (s : State) :
    keep (hintSpent p t s) = keep s := by
  unfold hintSpent
  simp

@[simp] theorem keep_preposEnd (p n : Nat) (s : State) :
    keep (preposEnd p n s) = keep s := by
  unfold preposEnd
  simp

@[simp] theorem keep_dropAwait (p : Nat) (s : State) :
    keep (dropAwait p s) = keep s := by
  unfold dropAwait
  repeat' split
  all_goals simp

@[simp] theorem keep_overrunOf (p cause : Nat) (f : Frame) (s : State) :
    keep (overrunOf p cause f s) = keep s := by
  unfold overrunOf
  simp

@[simp] theorem keep_overrun (p cause : Nat) (s : State) :
    keep (overrun p cause s) = keep s := by
  unfold overrun
  repeat' split
  all_goals simp

@[simp] theorem keep_overrunDue (p : Nat) (s : State) :
    keep (overrunDue p s) = keep s := by
  unfold overrunDue
  simp

@[simp] theorem keep_execOverrun (p : Nat) (s : State) :
    Goes (fun t => keep t = keep s) (execOverrun p s) := by
  unfold execOverrun
  repeat' split
  all_goals simp

@[simp] theorem keep_dikewatchDone (p : Nat) (s : State) :
    keep (dikewatchDone p s) = keep s := by
  unfold dikewatchDone
  dsimp only
  repeat' split
  all_goals simp

@[simp] theorem keep_execDikewatch (p : Nat) (s : State) :
    Goes (fun t => keep t = keep s) (execDikewatch p s) := by
  unfold execDikewatch
  repeat' split
  all_goals simp

@[simp] theorem keep_probesDrop (p : Nat) (s : State) :
    keep (probesDrop p s) = keep s := by
  unfold probesDrop
  simp

@[simp] theorem keep_haltedWith (p cause : Nat) (s : State) :
    keep (haltedWith p cause s) = keep s := by
  unfold haltedWith
  simp

@[simp] theorem keep_haltAbrupt (p cause : Nat) (s : State) :
    keep (haltAbrupt p cause s) = keep s := by
  unfold haltAbrupt
  simp

@[simp] theorem keep_haltAtTick (p cause : Nat) (s : State) :
    keep (haltAtTick p cause s) = keep s := by
  unfold haltAtTick
  simp

@[simp] theorem keep_frameDue (p : Nat) (s : State) :
    keep (frameDue p s) = keep s := by
  unfold frameDue
  dsimp only
  repeat' split
  all_goals simp

@[simp] theorem keep_abruptTick (p : Nat) (s : State) :
    keep (abruptTick p s) = keep s := by
  unfold abruptTick
  dsimp only
  repeat' split
  all_goals simp

@[simp] theorem keep_putCrossing (k : Nat) (m : Crossing) (retime : Bool) (s : State) :
    keep (putCrossing k m retime s) = keep s := by
  unfold putCrossing
  simp

@[simp] theorem keep_recross (f : Nat) (s : State) :
    keep (recross f s) = keep s := by
  unfold recross
  simp

@[simp] theorem keep_retimeDone (k : Nat) (s : State) :
    keep (retimeDone k s) = keep s := by
  unfold retimeDone
  repeat' split
  all_goals simp

@[simp] theorem keep_execCrossingRetime (f : Nat) (d : Dir) (s : State) :
    Goes (fun t => keep t = keep s) (execCrossingRetime f d s) := by
  unfold execCrossingRetime
  repeat' split
  all_goals simp

@[simp] theorem keep_restretch (p : Nat) (slower : Bool) (s : State) :
    keep (restretch p slower s) = keep s := by
  unfold restretch
  dsimp only
  repeat' split
  all_goals simp

@[simp] theorem keep_takeStep (f t : Nat) (s : State) :
    keep (takeStep f t s) = keep s := by
  unfold takeStep
  simp

@[simp] theorem keep_mbxClear (n : Nat) (s : State) :
    keep (mbxClear n s) = keep s := by
  unfold mbxClear
  simp

@[simp] theorem keep_dropFlights (f : Nat) (s : State) :
    keep (dropFlights f s) = keep s := by
  unfold dropFlights
  simp

@[simp] theorem keep_configDown (f : Nat) (s : State) :
    keep (configDown f s) = keep s := by
  unfold configDown
  dsimp only
  repeat' split
  all_goals simp

@[simp] theorem keep_unitsOff (f : Nat) (s : State) :
    keep (unitsOff f s) = keep s := by
  unfold unitsOff
  simp

@[simp] theorem keep_dropFaults (f : Nat) (s : State) :
    keep (dropFaults f s) = keep s := by
  unfold dropFaults
  repeat' (first | with_reducible rfl | (simp; done) | split
                 | refine keep_hostCmd _ _ _ _ (fun _ _ => ?_) | refine keep_replyCmd _ _ _ _ (fun _ _ _ => ?_)
                 | refine Eq.trans (keep_forEach _ _ _ (fun _ _ => ?_)) ?_ | dsimp only | extract_lets)

@[simp] theorem keep_fieldPowerLost (f : Nat) (s : State) :
    keep (fieldPowerLost f s) = keep s := by
  unfold fieldPowerLost
  simp

@[simp] theorem keep_fieldGone (f : Nat) (s : State) :
    keep (fieldGone f s) = keep s := by
  unfold fieldGone
  simp

@[simp] theorem keep_evacHalts (f : Nat) (lost : Bool) (s : State) :
    keep (evacHalts f lost s) = keep s := by
  unfold evacHalts
  repeat' (first | with_reducible rfl | (simp; done) | split
                 | refine keep_hostCmd _ _ _ _ (fun _ _ => ?_) | refine keep_replyCmd _ _ _ _ (fun _ _ _ => ?_)
                 | refine Eq.trans (keep_forEach _ _ _ (fun _ _ => ?_)) ?_ | dsimp only | extract_lets)

@[simp] theorem keep_evacuate (f : Nat) (why : Down) (s : State) :
    keep (evacuate f why s) = keep s := by
  unfold evacuate
  simp

@[simp] theorem keep_stepTick (ns : Nat) (s : State) :
    keep (stepTick ns s) = keep s := by
  unfold stepTick
  repeat' (first | with_reducible rfl | (simp; done) | split
                 | refine keep_hostCmd _ _ _ _ (fun _ _ => ?_) | refine keep_replyCmd _ _ _ _ (fun _ _ _ => ?_)
                 | refine Eq.trans (keep_forEach _ _ _ (fun _ _ => ?_)) ?_ | dsimp only | extract_lets)

@[simp] theorem keep_openFrame (p : Nat) (f : Frame) (s : State) :
    keep (openFrame p f s) = keep s := by
  unfold openFrame
  simp

@[simp] theorem keep_newFrame (p : Nat) (s : State) :
    keep (newFrame p s) = keep s := by
  unfold newFrame
  simp

@[simp] theorem keep_replayFrame (p : Nat) (f : Frame) (s : State) :
    keep (replayFrame p f s) = keep s := by
  unfold replayFrame
  simp

@[simp] theorem keep_activateNow (p : Nat) (s : State) :
    keep (activateNow p s) = keep s := by
  unfold activateNow
  dsimp only
  repeat' split
  all_goals simp

@[simp] theorem keep_activateTick (p : Nat) (s : State) :
    keep (activateTick p s) = keep s := by
  unfold activateTick
  simp

@[simp] theorem keep_startTick (p : Nat) (s : State) :
    keep (startTick p s) = keep s := by
  unfold startTick
  dsimp only
  repeat' split
  all_goals simp

@[simp] theorem keep_prepos (p n f h : Nat) (s : State) :
    keep (prepos p n f h s) = keep s := by
  unfold prepos
  simp

@[simp] theorem keep_preposTick (p : Nat) (s : State) :
    keep (preposTick p s) = keep s := by
  unfold preposTick
  dsimp only
  repeat' split
  all_goals simp

@[simp] theorem keep_markLate (f : Frame) (s : State) :
    keep (markLate f s) = keep s := by
  unfold markLate
  simp

@[simp] theorem keep_takeBack (p : Nat) (f : Frame) (s : State) :
    keep (takeBack p f s) = keep s := by
  unfold takeBack
  simp

@[simp] theorem keep_doneTick (p : Nat) (s : State) :
    keep (doneTick p s) = keep s := by
  unfold doneTick
  dsimp only
  repeat' split
  all_goals simp

@[simp] theorem keep_frameTick (p : Nat) (s : State) :
    keep (frameTick p s) = keep s := by
  unfold frameTick
  simp

@[simp] theorem keep_onceFlags (s : State) :
    keep (onceFlags s) = keep s := by
  unfold onceFlags
  simp

@[simp] theorem keep_inputSample (s : State) :
    keep (inputSample s) = keep s := by
  unfold inputSample
  simp

@[simp] theorem keep_govTick (ns : Nat) (idleTick : Bool) (s : State) :
    keep (govTick ns idleTick s) = keep s := by
  unfold govTick
  simp

@[simp] theorem keep_repairTick (s : State) :
    keep (repairTick s) = keep s := by
  unfold repairTick
  simp

@[simp] theorem ok_countTick (s : State) (k : Key) (hk : Ok true k (keep s)) : Ok true k (keep (countTick s)) := by
  refine Ok_tick _ _ _ hk (fun h => ⟨h.1, ?_⟩)
  dsimp only
  split
  · exact h.1
  · exact h.2

theorem ok_execWaferTick (s : State) (k : Key) (hk : Ok true k (keep s)) : Goes (fun t => Ok true k (keep t)) (execWaferTick s) := by
  unfold execWaferTick
  split
  · simpa using hk
  · rw [Goes_next]
    simp only [keep_eventsByCode, keep_govTick, keep_calWindow, keep_epochTick, keep_inputSample]
    rw [keep_forEach _ _ _ keep_preposTick, keep_forEach _ _ _ keep_startTick, keep_forEach _ _ _ keep_resetTick, keep_repairTick,
      keep_forEach _ _ _ keep_frameTick, keep_stepTick, keep_onceFlags]
    exact ok_countTick _ _ hk

@[simp] theorem keep_execIdleTick (s : State) :
    Goes (fun t => keep t = keep s) (execIdleTick s) := by
  unfold execIdleTick
  repeat' split
  all_goals simp

@[simp] theorem keep_execBatchListWrite (p : Nat) (s : State) :
    Goes (fun t => keep t = keep s) (execBatchListWrite p s) := by
  unfold execBatchListWrite
  dsimp only
  repeat' split
  all_goals simp

@[simp] theorem keep_execFrameComplete (p : Nat) (s : State) :
    Goes (fun t => keep t = keep s) (execFrameComplete p s) := by
  unfold execFrameComplete
  dsimp only
  repeat' split
  all_goals simp

@[simp] theorem ok_tickPeriod (v : W32) (s : State) (k : Key) (hk : Ok true k (keep s)) :
    Ok true k (keep (tickPeriod v s).2) := by
  unfold tickPeriod
  split
  · exact hk
  · refine Ok_tick _ _ _ hk (fun h => ⟨?_, h.2⟩)
    show 1000 ≤ (BitVec.ofNat 26 (max (v.toNat % 2 ^ 26) 1000)).toNat
    rw [BitVec.toNat_ofNat]
    have := Nat.mod_lt v.toNat (show 0 < 2 ^ 26 by decide)
    omega

@[simp] theorem ok_tickCtrl (v : W32) (s : State) (k : Key) (hk : Ok true k (keep s)) : Ok true k (keep (tickCtrl v s).2) := by
  unfold tickCtrl
  split
  · exact hk
  split
  · exact hk
  · exact Ok_tick _ _ _ hk id

@[simp] theorem keep_regDone (h : Req) (r : Nat × State) (s : State) (hr : keep r.2 = keep s) :
    Goes (fun t => keep t = keep s) (regDone h r) := by
  simp [regDone, hr]

@[simp] theorem ok_regDone (h : Req) (r : Nat × State) (k : Key) (hk : Ok ch k (keep r.2)) : Goes (fun t => Ok ch k (keep t)) (regDone h r) := by
  simpa [regDone] using hk

@[simp] theorem ok_execTickPeriodWrite (h : Req) (v : W32) (s : State) (kk : Key) (hk : Ok true kk (keep s)) :
    Goes (fun t => Ok true kk (keep t)) (execTickPeriodWrite h v s) := by
  unfold execTickPeriodWrite
  simp [hk]

@[simp] theorem ok_execTickRunSet (h : Req) (s : State) (kk : Key) (hk : Ok true kk (keep s)) :
    Goes (fun t => Ok true kk (keep t)) (execTickRunSet h s) := by
  unfold execTickRunSet
  simp [hk]

@[simp] theorem ok_execTickRunClear (h : Req) (s : State) (kk : Key) (hk : Ok true kk (keep s)) :
    Goes (fun t => Ok true kk (keep t)) (execTickRunClear h s) := by
  unfold execTickRunClear
  simp [hk]

/-! ## Machine/Treatment.lean -/

@[simp] theorem ok_copyOut (x0 x1 : Nat) (x2 : List W64) (x3 : State) (kk : Key) (hk : Ok ch kk (keep x3)) :
    Ok ch kk (keep (copyOut x0 x1 x2 x3)) := by
  induction x0 generalizing x1 x2 x3 hk with
  | zero => exact hk
  | succ n ih =>
    unfold copyOut
    dsimp only
    repeat' split
    all_goals (first | simp [ih, hk] | with_reducible assumption | with_reducible rfl)

@[simp] theorem ok_copyBytes (a : Nat) (bs : List Byte) (s : State) (kk : Key) (hk : Ok ch kk (keep s)) :
    Ok ch kk (keep (copyBytes a bs s)) := by
  unfold copyBytes
  simp [hk]

@[simp] theorem ok_copyCmd (q : Nat) (c : Cmd) (bs : List Byte) (s : State) (kk : Key) (hk : Ok ch kk (keep s)) :
    Ok ch kk (keep (copyCmd q c bs s)) := by
  unfold copyCmd
  dsimp only
  repeat' split
  all_goals simp [hk]

@[simp] theorem ok_journal (c : Nat) (e : List Byte) (s : State) (kk : Key) (hk : Ok ch kk (keep s)) :
    Ok ch kk (keep (journal c e s)) := by
  unfold journal
  dsimp only
  repeat' split
  all_goals simp [hk]

@[simp] theorem ok_applyEntry (c typ : Nat) (tick : W64) (body : List Byte) (s : State) (kk : Key) (hk : Ok ch kk (keep s)) :
    Ok ch kk (keep (applyEntry c typ tick body s)) := by
  unfold applyEntry
  simp [hk]

@[simp] theorem ok_execTreatmentEntry (s : State) (kk : Key) (hk : Ok ch kk (keep s)) :
    Goes (fun t => Ok ch kk (keep t)) (execTreatmentEntry s) := by
  unfold execTreatmentEntry
  repeat' split
  all_goals simp [hk]

@[simp] theorem ok_execSeal (c : Nat) (s : State) (kk : Key) (hk : Ok ch kk (keep s)) :
    Goes (fun t => Ok ch kk (keep t)) (execSeal c s) := by
  unfold execSeal
  repeat' split
  all_goals simp [hk]

@[simp] theorem ok_startDigest (c : Nat) (s : State) (kk : Key) (hk : Ok ch kk (keep s)) :
    Ok ch kk (keep (startDigest c s)) := by
  unfold startDigest
  simp [hk]

@[simp] theorem keep_closeAll (reason : Nat) (s : State) :
    keep (closeAll reason s) = keep s := by
  unfold closeAll
  simp

/-! ## Machine/Context.lean -/

@[simp] theorem ok_execCtxOpen (q : Nat) (s : State) (kk : Key) (hk : Ok ch kk (keep s)) :
    Goes (fun t => Ok ch kk (keep t)) (execCtxOpen q s) := by
  unfold execCtxOpen
  refine ok_hostCmd _ _ _ _ _ hk (fun _ _ hk => ?_)
  dsimp only
  repeat' split
  all_goals simp [hk]

@[simp] theorem keep_execCtxSubmit (q : Nat) (s : State) :
    Goes (fun t => keep t = keep s) (execCtxSubmit q s) := by
  unfold execCtxSubmit
  simp

@[simp] theorem keep_execCtxPark (q : Nat) (s : State) :
    Goes (fun t => keep t = keep s) (execCtxPark q s) := by
  unfold execCtxPark
  simp

@[simp] theorem keep_execCtxUnpark (q : Nat) (s : State) :
    Goes (fun t => keep t = keep s) (execCtxUnpark q s) := by
  unfold execCtxUnpark
  simp

@[simp] theorem keep_execCtxPrio (q : Nat) (s : State) :
    Goes (fun t => keep t = keep s) (execCtxPrio q s) := by
  unfold execCtxPrio
  simp

@[simp] theorem keep_execCtxClose (q : Nat) (s : State) :
    Goes (fun t => keep t = keep s) (execCtxClose q s) := by
  unfold execCtxClose
  simp

@[simp] theorem ok_execCtxRecord (q : Nat) (s : State) (kk : Key) (hk : Ok ch kk (keep s)) :
    Goes (fun t => Ok ch kk (keep t)) (execCtxRecord q s) := by
  unfold execCtxRecord
  refine ok_hostCmd _ _ _ _ _ hk (fun _ _ hk => ?_)
  dsimp only
  repeat' split
  all_goals simp [hk]

@[simp] theorem keep_seedPut (n : Nat) (v : W64) (s : State) :
    keep (seedPut n v s) = keep s := by
  unfold seedPut
  simp

@[simp] theorem keep_execCtxFree (q : Nat) (s : State) :
    Goes (fun t => keep t = keep s) (execCtxFree q s) := by
  unfold execCtxFree
  simp

@[simp] theorem keep_execSeedWrite (c : Nat) (s : State) :
    Goes (fun t => keep t = keep s) (execSeedWrite c s) := by
  unfold execSeedWrite
  dsimp only
  repeat' split
  all_goals simp

/-! ## Machine/Queue.lean -/

@[simp] theorem keep_writeSqTail (q : Nat) (v : W32) (s : State) :
    keep (writeSqTail q v s).2 = keep s := by
  unfold writeSqTail
  dsimp only
  repeat' split
  all_goals simp

@[simp] theorem keep_execSqTail (h : Req) (q : Nat) (v : W32) (s : State) :
    Goes (fun t => keep t = keep s) (execSqTail h q v s) := by
  unfold execSqTail
  repeat' split
  all_goals simp

@[simp] theorem keep_writeCqHead (q : Nat) (v : W32) (s : State) :
    keep (writeCqHead q v s).2 = keep s := by
  unfold writeCqHead
  simp

@[simp] theorem keep_execCqHead (h : Req) (q : Nat) (v : W32) (s : State) :
    Goes (fun t => keep t = keep s) (execCqHead h q v s) := by
  unfold execCqHead
  repeat' split
  all_goals simp

@[simp] theorem keep_readMbxLock (n sender : Nat) (s : State) :
    keep (readMbxLock n sender s).2.2 = keep s := by
  unfold readMbxLock
  dsimp only
  repeat' split
  all_goals simp

@[simp] theorem keep_writeMbxLock (n sender : Nat) (v : W32) (s : State) :
    keep (writeMbxLock n sender v s).2 = keep s := by
  unfold writeMbxLock
  dsimp only
  repeat' split
  all_goals simp

@[simp] theorem keep_writeMbxSlot (n sender off : Nat) (bs : List Byte) (s : State) :
    keep (writeMbxSlot n sender off bs s).2 = keep s := by
  unfold writeMbxSlot
  dsimp only
  repeat' split
  all_goals simp

@[simp] theorem keep_writeMbxSend (n sender : Nat) (v : W32) (s : State) :
    keep (writeMbxSend n sender v s).2 = keep s := by
  unfold writeMbxSend
  dsimp only
  repeat' split
  all_goals simp

@[simp] theorem keep_execMbxLockRead (h : Req) (n : Nat) (s : State) :
    Goes (fun t => keep t = keep s) (execMbxLockRead h n s) := by
  unfold execMbxLockRead
  repeat' split
  all_goals simp

@[simp] theorem keep_execMbxLockWrite (h : Req) (n : Nat) (v : W32) (s : State) :
    Goes (fun t => keep t = keep s) (execMbxLockWrite h n v s) := by
  unfold execMbxLockWrite
  repeat' split
  all_goals simp

@[simp] theorem keep_execMbxSlotWrite (h : Req) (n off : Nat) (data : List W64) (s : State) :
    Goes (fun t => keep t = keep s) (execMbxSlotWrite h n off data s) := by
  unfold execMbxSlotWrite
  repeat' split
  all_goals simp

@[simp] theorem keep_execMbxSend (h : Req) (n : Nat) (v : W32) (s : State) :
    Goes (fun t => keep t = keep s) (execMbxSend h n v s) := by
  unfold execMbxSend
  repeat' split
  all_goals simp

@[simp] theorem keep_execMbxEmpty (n : Nat) (s : State) :
    Goes (fun t => keep t = keep s) (execMbxEmpty n s) := by
  unfold execMbxEmpty
  dsimp only
  repeat' split
  all_goals simp

/-! ## Machine/PolderCmd.lean -/

@[simp] theorem keep_runs (p : Nat) (s : State) :
    keep (runs p s) = keep s := by
  unfold runs
  simp

@[simp] theorem keep_execPolderStart (q : Nat) (s : State) :
    Goes (fun t => keep t = keep s) (execPolderStart q s) := by
  unfold execPolderStart
  simp

@[simp] theorem keep_execPolderHalt (q : Nat) (s : State) :
    Goes (fun t => keep t = keep s) (execPolderHalt q s) := by
  unfold execPolderHalt
  simp

@[simp] theorem keep_resumed (p : Nat) (s : State) :
    keep (resumed p s) = keep s := by
  unfold resumed
  simp

@[simp] theorem keep_execPolderResume (q : Nat) (s : State) :
    Goes (fun t => keep t = keep s) (execPolderResume q s) := by
  unfold execPolderResume
  simp

@[simp] theorem keep_execPolderReset (q : Nat) (s : State) :
    Goes (fun t => keep t = keep s) (execPolderReset q s) := by
  unfold execPolderReset
  simp

@[simp] theorem keep_execPolderRelease (q : Nat) (s : State) :
    Goes (fun t => keep t = keep s) (execPolderRelease q s) := by
  unfold execPolderRelease
  simp

/-! ## Machine/Domains.lean -/

@[simp] theorem keep_fenceField (f : Nat) (s : State) :
    keep (fenceField f s) = keep s := by
  unfold fenceField
  simp

@[simp] theorem keep_fcMulticast (g a : Nat) (ws : List W64) (s : State) :
    keep (fcMulticast g a ws s) = keep s := by
  unfold fcMulticast
  simp

@[simp] theorem keep_fcStart (f : Nat) (s : State) :
    keep (fcStart f s) = keep s := by
  unfold fcStart
  simp

@[simp] theorem keep_fcLoad (x0 x1 : Nat) (s : State) :
    keep (fcLoad x0 x1 s) = keep s := by
  unfold fcLoad
  simp

@[simp] theorem keep_fieldStart (f : Nat) (s : State) :
    keep (fieldStart f s) = keep s := by
  unfold fieldStart
  simp

@[simp] theorem keep_restorePolder (f p : Nat) (s : State) :
    keep (restorePolder f p s) = keep s := by
  unfold restorePolder
  repeat' split
  all_goals simp

@[simp] theorem keep_fieldRestore (f : Nat) (s : State) :
    keep (fieldRestore f s) = keep s := by
  unfold fieldRestore
  simp

@[simp] theorem keep_slotsLost (f : Nat) (s : State) :
    keep (slotsLost f s) = keep s := by
  unfold slotsLost
  simp

@[simp] theorem keep_fieldComesUp (f : Nat) (s : State) :
    keep (fieldComesUp f s) = keep s := by
  unfold fieldComesUp
  simp

@[simp] theorem keep_shiftField (f : Nat) (s : State) :
    keep (shiftField f s) = keep s := by
  unfold shiftField
  simp

@[simp] theorem keep_fieldResetEnd (f : Nat) (s : State) :
    keep (fieldResetEnd f s) = keep s := by
  unfold fieldResetEnd
  simp

@[simp] theorem keep_execFieldUp (f : Nat) (s : State) :
    Goes (fun t => keep t = keep s) (execFieldUp f s) := by
  unfold execFieldUp
  repeat' split
  all_goals simp

@[simp] theorem keep_ceilReturn (f : Nat) (s : State) :
    keep (ceilReturn f s) = keep s := by
  unfold ceilReturn
  simp

@[simp] theorem ok_flushField (f : Nat) (s : State) (kk : Key) (hk : Ok ch kk (keep s)) :
    Ok ch kk (keep (flushField f s)) := by
  unfold flushField
  repeat' (first | with_reducible assumption | (simp [hk]; done) | split
                 | refine ok_hostCmd _ _ _ _ _ hk (fun _ _ hk => ?_) | refine ok_replyCmd _ _ _ _ _ hk (fun _ _ _ hk => ?_)
                 | refine Ok_forEach _ _ _ _ (fun _ _ hk => ?_) ?_ | dsimp only | extract_lets)

@[simp] theorem keep_execDrainDone (f : Nat) (s : State) :
    Goes (fun t => keep t = keep s) (execDrainDone f s) := by
  unfold execDrainDone
  repeat' split
  all_goals simp

@[simp] theorem keep_execThermalRestart (f : Nat) (s : State) :
    Goes (fun t => keep t = keep s) (execThermalRestart f s) := by
  unfold execThermalRestart
  dsimp only
  repeat' split
  all_goals simp

@[simp] theorem ok_stackOff (n : Nat) (s : State) (k : Key) (hk : Ok ch k (keep s)) : Ok ch k (keep (stackOff n s)) := by
  unfold stackOff
  exact ⟨hk.1, hk.2.1, hk.2.2.1, fun w => wf_filter _ _ (hk.2.2.2.1 w), hk.2.2.2.2.1, hk.2.2.2.2.2.1, hk.2.2.2.2.2.2⟩

@[simp] theorem keep_stackStart (n : Nat) (s : State) :
    keep (stackStart n s) = keep s := by
  unfold stackStart
  simp

@[simp] theorem keep_mecsReset (l : List Nat) (s : State) :
    keep (mecsReset l s) = keep s := by
  unfold mecsReset
  simp

@[simp] theorem keep_quadOn (q : Nat) (s : State) :
    keep (quadOn q s) = keep s := by
  unfold quadOn
  simp

@[simp] theorem keep_quadOff (q : Nat) (s : State) :
    keep (quadOff q s) = keep s := by
  unfold quadOff
  simp

@[simp] theorem keep_linksOff (s : State) :
    keep (linksOff s) = keep s := by
  unfold linksOff
  simp

@[simp] theorem keep_linksOn (s : State) :
    keep (linksOn s) = keep s := by
  unfold linksOn
  simp

@[simp] theorem keep_fieldsOff (s : State) :
    keep (fieldsOff s) = keep s := by
  unfold fieldsOff
  simp

@[simp] theorem keep_configAbandon (s : State) :
    keep (configAbandon s) = keep s := by
  unfold configAbandon
  simp

/-! ## Machine/Governor.lean -/

@[simp] theorem keep_execRegulatorReport (d mv da : Nat) (s : State) :
    Goes (fun t => keep t = keep s) (execRegulatorReport d mv da s) := by
  unfold execRegulatorReport
  repeat' split
  all_goals simp

@[simp] theorem keep_execRegulatorStale (d : Nat) (s : State) :
    Goes (fun t => keep t = keep s) (execRegulatorStale d s) := by
  unfold execRegulatorStale
  repeat' split
  all_goals simp

@[simp] theorem ok_execRegFault (d : Nat) (s : State) (kk : Key) (hk : Ok ch kk (keep s)) :
    Goes (fun t => Ok ch kk (keep t)) (execRegFault d s) := by
  unfold execRegFault
  repeat' split
  all_goals simp [hk]

@[simp] theorem keep_takeReading (r : Reading) (s : State) :
    keep (takeReading r s) = keep s := by
  unfold takeReading
  simp

@[simp] theorem keep_hotCounts (s : State) :
    keep (hotCounts s) = keep s := by
  unfold hotCounts
  simp

@[simp] theorem keep_breachField (f : Nat) (r : Decisions × State) :
    keep (breachField f r).2 = keep r.2 := by
  unfold breachField
  dsimp only
  repeat' split
  all_goals simp

@[simp] theorem keep_decide_ (d : Decisions) (s : State) :
    keep (decide_ d s) = keep s := by
  unfold decide_
  simp

@[simp] theorem keep_governorSample (temps : List Reading) (s : State) :
    keep (governorSample temps s) = keep s := by
  unfold governorSample
  simp

@[simp] theorem keep_thermalMark (before after : Decisions) (s : State) :
    keep (thermalMark before after s) = keep s := by
  unfold thermalMark
  repeat' split
  all_goals simp

theorem keep_breachFold (l : List Nat) (r : Decisions × State) :
    keep (l.foldl (fun r f => breachField f r) r).2 = keep r.2 := by
  induction l generalizing r with
  | nil => rfl
  | cons f l ih => rw [List.foldl_cons, ih, keep_breachField]

@[simp] theorem keep_governorRules (differs : List Decision) (s : State) : keep (governorRules differs s) = keep s := by
  unfold governorRules
  extract_lets d1 d2 s1
  have h1 : keep s1 = keep s := keep_thermalMark _ _ _
  have h2 := keep_breachFold (List.range 64) (d2, s1)
  generalize (List.range 64).foldl (fun r f => breachField f r) (d2, s1) = r at h2 ⊢
  obtain ⟨d3, s2⟩ := r
  dsimp only at h2 ⊢
  rw [keep_decide_]
  split
  · rw [keep_raise, keep_modPower, h2, h1]
  · rw [keep_modPower, h2, h1]

@[simp] theorem keep_governorTick (temps : List Reading) (differs : List Decision) (s : State) :
    keep (governorTick temps differs s) = keep s := by
  unfold governorTick
  simp

/-! ## Machine/Repair.lean -/

@[simp] theorem keep_rowHalts (t : Nat → Bool) (cause : Nat) (s : State) :
    keep (rowHalts t cause s) = keep s := by
  unfold rowHalts
  simp

@[simp] theorem keep_unitFault (u cause addr : Nat) (s : State) :
    keep (unitFault u cause addr s) = keep s := by
  unfold unitFault
  dsimp only
  repeat' split
  all_goals simp

@[simp] theorem keep_execFaultArith (u : Nat) (s : State) :
    Goes (fun t => keep t = keep s) (execFaultArith u s) := by
  unfold execFaultArith
  repeat' split
  all_goals simp

@[simp] theorem keep_stagingAbort (u b : Nat) (s : State) :
    keep (stagingAbort u b s) = keep s := by
  unfold stagingAbort
  simp

@[simp] theorem keep_sramCorrected (u : Nat) (s : State) :
    keep (sramCorrected u s) = keep s := by
  unfold sramCorrected
  simp

@[simp] theorem keep_execFaultSram (u : Nat) (e : SramError) (s : State) :
    Goes (fun t => keep t = keep s) (execFaultSram u e s) := by
  unfold execFaultSram
  repeat' split
  all_goals simp

@[simp] theorem keep_execLogicFault (u : Nat) (s : State) :
    Goes (fun t => keep t = keep s) (execLogicFault u s) := by
  unfold execLogicFault
  repeat' split
  all_goals simp

@[simp] theorem keep_dropInRow (us : List Nat) (s : State) :
    keep (dropInRow us s) = keep s := by
  unfold dropInRow
  simp

theorem keep_execSwitchFault (f prow : Nat) (s : State) : Goes (fun t => keep t = keep s) (execSwitchFault f prow s) := by
  unfold execSwitchFault
  split
  · simp
  split
  · simp
  extract_lets s0 s1 s2
  have h2 : keep s2 = keep s := by simp [s1, s2]
  split
  · simpa using h2
  rename_i j _
  extract_lets hit
  have h3 := keep_takeFree s2
  generalize takeFree s2 = r at h3
  obtain ⟨w, s3⟩ := r
  dsimp only at h3 ⊢
  rw [Goes_next, keep_armDown, ← h2, ← h3]
  refine Eq.trans (keep_forEach _ _ _ (fun u t => keep_forEach _ _ _ (fun d t => keep_forEach _ _ _ (fun n t => ?_)))) ?_
  · split <;> simp
  · rw [keep_dropInRow, keep_rowHalts]
    refine keep_forEach _ _ _ (fun q t => ?_)
    split <;> simp

@[simp] theorem keep_execLivenessProbe (f : Nat) (s : State) :
    Goes (fun t => keep t = keep s) (execLivenessProbe f s) := by
  unfold execLivenessProbe
  dsimp only
  repeat' split
  all_goals simp

@[simp] theorem keep_execProbeTimeout (u : Nat) (s : State) :
    Goes (fun t => keep t = keep s) (execProbeTimeout u s) := by
  unfold execProbeTimeout
  dsimp only
  repeat' split
  all_goals simp

@[simp] theorem keep_fenceOther (l : List Nat) (s : State) :
    keep (fenceOther l s) = keep s := by
  unfold fenceOther
  simp

@[simp] theorem keep_exhausted (f r : Nat) (s : State) :
    keep (exhausted f r s) = keep s := by
  unfold exhausted
  repeat' split
  all_goals simp

@[simp] theorem keep_execRepairDecision (differs : Bool) (other : List Nat) (s : State) :
    Goes (fun t => keep t = keep s) (execRepairDecision differs other s) := by
  unfold execRepairDecision
  repeat' split
  all_goals simp

@[simp] theorem keep_modMem (u : Nat) (f : Bytes → Bytes) (s : State) :
    keep (modMem u f s) = keep s := by
  unfold modMem
  simp

theorem keep_imageFold (a : Nat) (t : Nat → Bool) (l : List Nat) (r : (Nat × List Nat × Bool) × State) :
    keep (l.foldl (fun r i =>
      let x := imageRec r.2 a i
      if !t x.unit then r
      else if imageOk r.2 x then
        ((r.1.1 + 8 * x.lenw, insertNat x.unit r.1.2.1, r.1.2.2),
          modMem x.unit (fun m => wrN m x.off (rdN r.2.dram x.addr (8 * x.lenw))) r.2)
      else ((r.1.1, r.1.2.1, true), r.2)) r).2 = keep r.2 := by
  induction l generalizing r with
  | nil => rfl
  | cons i l ih =>
    rw [List.foldl_cons, ih]
    dsimp only
    split
    · rfl
    · split
      · rw [keep_modMem]
      · rfl

@[simp] theorem keep_imageWrite (p : Nat) (t : Nat → Bool) (s : State) : keep (imageWrite p t s).2 = keep s := by
  unfold imageWrite
  split
  · rfl
  · exact keep_imageFold _ _ _ _

@[simp] theorem ok_unitMoved (l : List FaultRec) (unclean : List Nat) (u : Nat) (s : State) (kk : Key) (hk : Ok ch kk (keep s)) :
    Ok ch kk (keep (unitMoved l unclean u s)) := by
  unfold unitMoved
  repeat' split
  all_goals simp [hk]

@[simp] theorem keep_autoResume (p : Nat) (s : State) :
    keep (autoResume p s) = keep s := by
  unfold autoResume
  simp

@[simp] theorem keep_resolve (r : Repair) (whole imageErr : Bool) (p : Nat) (s : State) :
    keep (resolve r whole imageErr p s) = keep s := by
  unfold resolve
  simp

theorem keep_imageOwners (t : Nat → Bool) (l : List Nat) (r : (List Nat × Bool) × State) :
    keep (l.foldl (fun (a : (List Nat × Bool) × State) p =>
        let w := imageWrite p t a.2
        ((a.1.1 ++ w.1.2.1, a.1.2 || (w.1.2.2 && (getPolder a.2 p).image.isSome)),
          if w.1.2.1.isEmpty then w.2 else weightsInvalid p w.2)) r).2 = keep r.2 := by
  induction l generalizing r with
  | nil => rfl
  | cons p l ih =>
    rw [List.foldl_cons, ih]
    dsimp only
    split <;> simp

theorem ok_execRepairDone (unclean : List Nat) (s : State) (k : Key) (hk : Ok ch k (keep s)) :
    Goes (fun t => Ok ch k (keep t)) (execRepairDone unclean s) := by
  unfold execRepairDone
  split
  · simpa using hk
  split
  · simpa using hk
  rename_i r _ _
  extract_lets moved s1 lost owners real
  have h1 : Ok ch k (keep s1) := Ok_forEach _ _ _ _ (fun u t ht => ok_unitMoved _ _ _ _ _ ht) hk
  have h2 := keep_imageOwners (fun u => lost.contains u) owners (([], false), s1)
  split
  rename_i _ res s2 e
  rw [e] at h2
  dsimp only at h2
  extract_lets s3 whole ps s4 s5 s6
  have h3 : keep s3 = keep s1 := by
    unfold s3
    split <;> simp [h2]
  have h4 : keep s4 = keep s1 := by
    unfold s4
    split <;> simp [h3]
  have h5 : keep s5 = keep s1 := (keep_forEach _ _ _ (fun p t => keep_resolve _ _ _ _ _)).trans h4
  have h6 : keep s6 = keep s1 := by
    unfold s6
    split <;> simp [h5]
  rw [Goes_next, keep_modBoot, h6]
  exact h1

@[simp] theorem keep_mapWrite (ok : Bool) (s : State) :
    keep (mapWrite ok s) = keep s := by
  unfold mapWrite
  simp

@[simp] theorem keep_execFaultMapWrite (ok : Bool) (s : State) :
    Goes (fun t => keep t = keep s) (execFaultMapWrite ok s) := by
  unfold execFaultMapWrite
  repeat' split
  all_goals simp

@[simp] theorem keep_execMapWriteRetry (ok : Bool) (s : State) :
    Goes (fun t => keep t = keep s) (execMapWriteRetry ok s) := by
  unfold execMapWriteRetry
  repeat' split
  all_goals simp

@[simp] theorem keep_execRprFence (q : Nat) (s : State) :
    Goes (fun t => keep t = keep s) (execRprFence q s) := by
  unfold execRprFence
  simp

@[simp] theorem keep_execRprImage (q : Nat) (s : State) :
    Goes (fun t => keep t = keep s) (execRprImage q s) := by
  unfold execRprImage
  simp

@[simp] theorem keep_execRprRestore (q : Nat) (s : State) :
    Goes (fun t => keep t = keep s) (execRprRestore q s) := by
  unfold execRprRestore
  simp

@[simp] theorem keep_execRprClear (q : Nat) (pass : Bool) (s : State) :
    Goes (fun t => keep t = keep s) (execRprClear q pass s) := by
  unfold execRprClear
  simp

@[simp] theorem ok_resetUnit (u : Nat) (s : State) (k : Key) (hk : Ok ch k (keep s)) : Ok ch k (keep (resetUnit u s)) := by
  unfold resetUnit
  extract_lets s1 s2
  have h1 : keep s1 = keep s := by
    unfold s1
    split <;> simp
  rw [keep_keepDramErr, keep_unitReload]
  exact ok_unitOut _ _ _ (by rw [h1]; exact hk)

@[simp] theorem ok_resetUnits (q : Nat) (us : List Nat) (s : State) (kk : Key) (hk : Ok ch kk (keep s)) :
    Ok ch kk (keep (resetUnits q us s)) := by
  unfold resetUnits
  repeat' (first | with_reducible assumption | (simp [hk]; done) | split
                 | refine ok_hostCmd _ _ _ _ _ hk (fun _ _ hk => ?_) | refine ok_replyCmd _ _ _ _ _ hk (fun _ _ _ hk => ?_)
                 | refine Ok_forEach _ _ _ _ (fun _ _ hk => ?_) ?_ | dsimp only | extract_lets)

@[simp] theorem keep_resetsEnd (s : State) :
    keep (resetsEnd s) = keep s := by
  unfold resetsEnd
  simp

@[simp] theorem ok_execRstUnit (q : Nat) (s : State) (kk : Key) (hk : Ok ch kk (keep s)) :
    Goes (fun t => Ok ch kk (keep t)) (execRstUnit q s) := by
  unfold execRstUnit
  refine ok_hostCmd _ _ _ _ _ hk (fun _ _ hk => ?_)
  dsimp only
  repeat' split
  all_goals simp [hk]

theorem ok_execRstCluster (q : Nat) (s : State) (k : Key) (hk : Ok ch k (keep s)) :
    Goes (fun t => Ok ch k (keep t)) (execRstCluster q s) := by
  unfold execRstCluster
  refine ok_hostCmd _ _ _ _ _ hk (fun _ _ hk => ?_)
  dsimp only
  split
  · simpa using hk
  split
  · simpa using hk
  exact ok_resetUnits _ _ _ _ hk

@[simp] theorem ok_execRstField (q : Nat) (s : State) (kk : Key) (hk : Ok ch kk (keep s)) :
    Goes (fun t => Ok ch kk (keep t)) (execRstField q s) := by
  unfold execRstField
  refine ok_hostCmd _ _ _ _ _ hk (fun _ _ hk => ?_)
  dsimp only
  repeat' split
  all_goals simp [hk]

@[simp] theorem keep_fieldLogic (f : Nat) (s : State) :
    keep (fieldLogic f s) = keep s := by
  unfold fieldLogic
  simp

@[simp] theorem keep_execFieldResetDiscard (f : Nat) (s : State) :
    Goes (fun t => keep t = keep s) (execFieldResetDiscard f s) := by
  unfold execFieldResetDiscard
  repeat' split
  all_goals simp

/-! ## Machine/Security.lean -/

@[simp] theorem ok_execSecCertRead (q : Nat) (s : State) (kk : Key) (hk : Ok ch kk (keep s)) :
    Goes (fun t => Ok ch kk (keep t)) (execSecCertRead q s) := by
  unfold execSecCertRead
  refine ok_hostCmd _ _ _ _ _ hk (fun _ _ hk => ?_)
  simp [hk]

@[simp] theorem ok_execSecKeyRead (q : Nat) (s : State) (kk : Key) (hk : Ok ch kk (keep s)) :
    Goes (fun t => Ok ch kk (keep t)) (execSecKeyRead q s) := by
  unfold execSecKeyRead
  refine ok_hostCmd _ _ _ _ _ hk (fun _ _ hk => ?_)
  simp [hk]

@[simp] theorem keep_putImage (toB : Bool) (i : FwImage) (s : State) :
    keep (putImage toB i s) = keep s := by
  unfold putImage
  simp

@[simp] theorem keep_fwBegin (q : Nat) (i : FwImage) (s : State) :
    keep (fwBegin q i s) = keep s := by
  unfold fwBegin
  simp

@[simp] theorem keep_fwEnd (s : State) :
    keep (fwEnd s) = keep s := by
  unfold fwEnd
  repeat' split
  all_goals simp

@[simp] theorem keep_execSecFwUpdate (q : Nat) (s : State) :
    Goes (fun t => keep t = keep s) (execSecFwUpdate q s) := by
  unfold execSecFwUpdate
  repeat' (first | with_reducible rfl | (simp; done) | split
                 | refine keep_hostCmd _ _ _ _ (fun _ _ => ?_) | refine keep_replyCmd _ _ _ _ (fun _ _ _ => ?_)
                 | refine Eq.trans (keep_forEach _ _ _ (fun _ _ => ?_)) ?_ | dsimp only | extract_lets)

@[simp] theorem keep_execSecMeasure (q : Nat) (s : State) :
    Goes (fun t => keep t = keep s) (execSecMeasure q s) := by
  unfold execSecMeasure
  repeat' (first | with_reducible rfl | (simp; done) | split
                 | refine keep_hostCmd _ _ _ _ (fun _ _ => ?_) | refine keep_replyCmd _ _ _ _ (fun _ _ _ => ?_)
                 | refine Eq.trans (keep_forEach _ _ _ (fun _ _ => ?_)) ?_ | dsimp only | extract_lets)

@[simp] theorem keep_execSecJournal (q : Nat) (s : State) :
    Goes (fun t => keep t = keep s) (execSecJournal q s) := by
  unfold execSecJournal
  simp

@[simp] theorem keep_writeJnlHead (v : W64) (s : State) :
    keep (writeJnlHead v s).2 = keep s := by
  unfold writeJnlHead
  dsimp only
  repeat' split
  all_goals simp

@[simp] theorem keep_execSecJnlHeadWrite (h : Req) (v : W64) (s : State) :
    Goes (fun t => keep t = keep s) (execSecJnlHeadWrite h v s) := by
  unfold execSecJnlHeadWrite
  simp

@[simp] theorem keep_execCalWrite (q : Nat) (s : State) :
    Goes (fun t => keep t = keep s) (execCalWrite q s) := by
  unfold execCalWrite
  repeat' (first | with_reducible rfl | (simp; done) | split
                 | refine keep_hostCmd _ _ _ _ (fun _ _ => ?_) | refine keep_replyCmd _ _ _ _ (fun _ _ _ => ?_)
                 | refine Eq.trans (keep_forEach _ _ _ (fun _ _ => ?_)) ?_ | dsimp only | extract_lets)

@[simp] theorem ok_execCalRead (q : Nat) (s : State) (kk : Key) (hk : Ok ch kk (keep s)) :
    Goes (fun t => Ok ch kk (keep t)) (execCalRead q s) := by
  unfold execCalRead
  refine ok_hostCmd _ _ _ _ _ hk (fun _ _ hk => ?_)
  simp [hk]

/-! ## Machine/Load.lean -/

@[simp] theorem keep_confBegin (q op p phase : Nat) (s : State) :
    keep (confBegin q op p phase s) = keep s := by
  unfold confBegin
  simp

@[simp] theorem keep_confEnd (q status : Nat) (s : State) :
    keep (confEnd q status s) = keep s := by
  unfold confEnd
  simp

@[simp] theorem keep_refuse (q : Nat) (p : Option Nat) (code : Nat) (x : Bad) (s : State) :
    keep (refuse q p code x s) = keep s := by
  unfold refuse
  simp

theorem ok_checked (q : Nat) (p : Option Nat) (checks : List (Nat × List Bad)) (f : State → State) (s : State) (k : Key)
    (hk : Ok ch k (keep s)) (h : ∀ t, Ok ch k (keep t) → Ok ch k (keep (f t))) : Ok ch k (keep (checked q p checks f s)) := by
  unfold checked
  split
  · simpa using hk
  · exact h _ hk

@[simp] theorem keep_checked (q : Nat) (p : Option Nat) (checks : List (Nat × List Bad)) (f : State → State) (s : State)
    (h : ∀ t, keep (f t) = keep t) : keep (checked q p checks f s) = keep s := by
  unfold checked
  split <;> simp [h]

@[simp] theorem keep_noteTaken (b : Nat → Byte) (s : State) :
    keep (noteTaken b s) = keep s := by
  unfold noteTaken
  simp

@[simp] theorem ok_archiveCopy (c : PolderCfg) (b : Nat → Byte) (s : State) (kk : Key) (hk : Ok ch kk (keep s)) :
    Ok ch kk (keep (archiveCopy c b s)) := by
  unfold archiveCopy
  repeat' split
  all_goals simp [hk]

@[simp] theorem keep_writeImages (c : PolderCfg) (absent : Nat → Bool) (bank : Nat → Nat) (i : Nat) (valid : Nat → BitVec 4 → BitVec 4) (s : State) :
    keep (writeImages c absent bank i valid s) = keep s := by
  unfold writeImages
  simp

@[simp] theorem keep_storeRefused (q p u a : Nat) (s : State) :
    keep (storeRefused q p u a s) = keep s := by
  unfold storeRefused
  simp

@[simp] theorem keep_freeUsed (s : State) :
    keep (freeUsed s) = keep s := by
  unfold freeUsed
  simp

@[simp] theorem ok_loadStage (p : Nat) (b : Nat → Byte) (s : State) (kk : Key) (hk : Ok ch kk (keep s)) :
    Ok ch kk (keep (loadStage p b s)) := by
  unfold loadStage
  simp [hk]

@[simp] theorem ok_loadWrite (q p : Nat) (b : Nat → Byte) (s : State) (kk : Key) (hk : Ok ch kk (keep s)) :
    Ok ch kk (keep (loadWrite q p b s)) := by
  unfold loadWrite
  repeat' split
  all_goals simp [hk]

theorem ok_execPolderLoad (q : Nat) (s : State) (k : Key) (hk : Ok ch k (keep s)) :
    Goes (fun t => Ok ch k (keep t)) (execPolderLoad q s) := by
  unfold execPolderLoad
  refine ok_hostCmd _ _ _ _ _ hk (fun _ _ hk => ?_)
  dsimp only
  split
  · simpa using hk
  · refine ok_checked _ _ _ _ _ _ (by simpa using hk) (fun _ hk => ok_checked _ _ _ _ _ _ (by simpa using hk) (fun _ hk => ?_))
    simp [hk]

@[simp] theorem ok_stageSlot (p i : Nat) (b : Nat → Byte) (s : State) (kk : Key) (hk : Ok ch kk (keep s)) :
    Ok ch kk (keep (stageSlot p i b s)) := by
  unfold stageSlot
  simp [hk]

@[simp] theorem keep_slotInvalid (p i : Nat) (s : State) :
    keep (slotInvalid p i s) = keep s := by
  unfold slotInvalid
  simp

@[simp] theorem ok_stageWrite (q p i : Nat) (b : Nat → Byte) (s : State) (kk : Key) (hk : Ok ch kk (keep s)) :
    Ok ch kk (keep (stageWrite q p i b s)) := by
  unfold stageWrite
  repeat' split
  all_goals simp [hk]

theorem ok_execPolderStage (q : Nat) (s : State) (k : Key) (hk : Ok ch k (keep s)) :
    Goes (fun t => Ok ch k (keep t)) (execPolderStage q s) := by
  unfold execPolderStage
  refine ok_hostCmd _ _ _ _ _ hk (fun _ _ hk => ?_)
  dsimp only
  split
  · simpa using hk
  · refine ok_checked _ _ _ _ _ _ (by simpa using hk) (fun _ hk => ok_checked _ _ _ _ _ _ (by simpa using hk) (fun _ hk => ?_))
    simp [hk]

@[simp] theorem keep_execPolderSwap (q : Nat) (s : State) :
    Goes (fun t => keep t = keep s) (execPolderSwap q s) := by
  unfold execPolderSwap
  repeat' (first | with_reducible rfl | (simp; done) | split
                 | refine keep_hostCmd _ _ _ _ (fun _ _ => ?_) | refine keep_replyCmd _ _ _ _ (fun _ _ _ => ?_)
                 | refine Eq.trans (keep_forEach _ _ _ (fun _ _ => ?_)) ?_ | dsimp only | extract_lets)

@[simp] theorem keep_noteStaged (c : PolderCfg) (i : BitVec 2) (s : State) :
    keep (noteStaged c i s) = keep s := by
  unfold noteStaged
  simp

@[simp] theorem keep_execStagingDone (p : Nat) (s : State) :
    Goes (fun t => keep t = keep s) (execStagingDone p s) := by
  unfold execStagingDone
  dsimp only
  repeat' split
  all_goals simp

@[simp] theorem keep_routeStage (q : Nat) (b : Nat → Byte) (s : State) :
    keep (routeStage q b s) = keep s := by
  unfold routeStage
  simp

@[simp] theorem keep_execRouteLoad (q : Nat) (s : State) :
    Goes (fun t => keep t = keep s) (execRouteLoad q s) := by
  unfold execRouteLoad
  repeat' (first | with_reducible rfl | (simp; done) | split
                 | refine keep_hostCmd _ _ _ _ (fun _ _ => ?_) | refine keep_replyCmd _ _ _ _ (fun _ _ _ => ?_)
                 | refine Eq.trans (keep_forEach _ _ _ (fun _ _ => ?_)) ?_ | dsimp only | extract_lets)

end Sys2Proof.Machine
end

