-- ==== Sys2Proof/Laws/KeepHost.lean ====
section
/-! SUPPORT. Power, boot, debug, registers and the host: what each leaves of the fixed part of the state. -/

namespace Sys2Proof.Machine

open Sys2Proof

variable {ch : Bool}

/-! ## Machine/PowerCmd.lean -/

@[simp] theorem ok_domainOff (d : Nat) (s : State) (kk : Key) (hk : Ok ch kk (keep s)) :
    Ok ch kk (keep (domainOff d s)) := by
  unfold domainOff
  repeat' split
  all_goals simp [hk]

@[simp] theorem keep_domainOn (d : Nat) (s : State) :
    keep (domainOn d s) = keep s := by
  unfold domainOn
  simp

@[simp] theorem ok_execPwrDomain (q : Nat) (differs : Bool) (s : State) (kk : Key) (hk : Ok ch kk (keep s)) :
    Goes (fun t => Ok ch kk (keep t)) (execPwrDomain q differs s) := by
  unfold execPwrDomain
  refine ok_hostCmd _ _ _ _ _ hk (fun _ _ hk => ?_)
  dsimp only
  repeat' split
  all_goals simp [hk]

@[simp] theorem keep_execPwrCeil (q : Nat) (s : State) :
    Goes (fun t => keep t = keep s) (execPwrCeil q s) := by
  unfold execPwrCeil
  simp

@[simp] theorem keep_execPwrHint (q : Nat) (s : State) :
    Goes (fun t => keep t = keep s) (execPwrHint q s) := by
  unfold execPwrHint
  simp

@[simp] theorem keep_execPwrTrust (q : Nat) (s : State) :
    Goes (fun t => keep t = keep s) (execPwrTrust q s) := by
  unfold execPwrTrust
  simp

@[simp] theorem keep_execBrnClear (q : Nat) (s : State) :
    Goes (fun t => keep t = keep s) (execBrnClear q s) := by
  unfold execBrnClear
  simp

@[simp] theorem keep_writePwrCap (v : W64) (s : State) :
    keep (writePwrCap v s).2 = keep s := by
  unfold writePwrCap
  dsimp only
  repeat' split
  all_goals simp

@[simp] theorem keep_execPwrCapWrite (h : Req) (v : W64) (s : State) :
    Goes (fun t => keep t = keep s) (execPwrCapWrite h v s) := by
  unfold execPwrCapWrite
  simp

@[simp] theorem keep_execCoolantWarn (inlet outlet flow : Nat) (s : State) :
    Goes (fun t => keep t = keep s) (execCoolantWarn inlet outlet flow s) := by
  unfold execCoolantWarn
  dsimp only
  repeat' split
  all_goals simp

@[simp] theorem keep_execCoolantClear (s : State) :
    Goes (fun t => keep t = keep s) (execCoolantClear s) := by
  unfold execCoolantClear
  simp

@[simp] theorem keep_execInputLow (mv : Nat) (s : State) :
    Goes (fun t => keep t = keep s) (execInputLow mv s) := by
  unfold execInputLow
  repeat' split
  all_goals simp

@[simp] theorem keep_execInputOvervoltage (s : State) :
    Goes (fun t => keep t = keep s) (execInputOvervoltage s) := by
  unfold execInputOvervoltage
  repeat' split
  all_goals simp

/-! ## Machine/Boot.lean -/

@[simp] theorem ok_drainEntries (s : State) (kk : Key) (hk : Ok ch kk (keep s)) :
    Ok ch kk (keep (drainEntries s)) := by
  unfold drainEntries
  repeat' (first | with_reducible assumption | (simp [hk]; done) | split
                 | refine ok_hostCmd _ _ _ _ _ hk (fun _ _ hk => ?_) | refine ok_replyCmd _ _ _ _ _ hk (fun _ _ _ hk => ?_)
                 | refine Ok_forEach _ _ _ _ (fun _ _ hk => ?_) ?_ | dsimp only | extract_lets)

@[simp] theorem keep_haltAll (cause : Nat) (s : State) :
    keep (haltAll cause s) = keep s := by
  unfold haltAll
  simp

@[simp] theorem keep_markContexts (typ : Nat) (b : Byte) (s : State) :
    keep (markContexts typ b s) = keep s := by
  unfold markContexts
  simp

@[simp] theorem keep_bootFail (err : Nat) (s : State) :
    keep (bootFail err s) = keep s := by
  unfold bootFail
  simp

@[simp] theorem keep_bootCal (s : State) :
    keep (bootCal s) = keep s := by
  unfold bootCal
  repeat' split
  all_goals simp

@[simp] theorem keep_calApply (t : Nat → Bool) (s : State) :
    keep (calApply t s) = keep s := by
  unfold calApply
  simp

@[simp] theorem keep_fieldBoot (f : Nat) (s : State) :
    keep (fieldBoot f s) = keep s := by
  unfold fieldBoot
  simp

@[simp] theorem keep_stacksStart (s : State) :
    keep (stacksStart s) = keep s := by
  unfold stacksStart
  simp

@[simp] theorem ok_stopTicks (s : State) (k : Key) (hk : Ok true k (keep s)) : Ok true k (keep (stopTicks s)) :=
  Ok_tick _ _ _ hk id

@[simp] theorem keep_memoriesDone (s : State) :
    keep (memoriesDone s) = keep s := by
  unfold memoriesDone
  simp

@[simp] theorem ok_bootNetwork (s : State) (k : Key) (hk : Ok true k (keep s)) : Ok true k (keep (bootNetwork s)) := by
  unfold bootNetwork
  extract_lets s1 s2 s3 s4
  have h1 : Ok true k (keep s1) := by
    show Ok true k (keep (modBoot _ _))
    rw [keep_modBoot]
    exact ok_stopTicks _ _ hk
  split
  · simpa using h1
  have h4 : keep s4 = keep s1 := (keep_forEach _ _ _ (fun f t => keep_fieldBoot f t)).trans (by simp [s3, s2])
  split
  · simpa [h4] using h1
  · rw [h4]
    exact h1

@[simp] theorem keep_bootMemories (s : State) :
    keep (bootMemories s) = keep s := by
  unfold bootMemories
  simp

@[simp] theorem keep_bootWave (s : State) :
    keep (bootWave s) = keep s := by
  unfold bootWave
  simp

@[simp] theorem ok_execStackTraining (n : Nat) (ok : Bool) (s : State) (kk : Key) (hk : Ok ch kk (keep s)) :
    Goes (fun t => Ok ch kk (keep t)) (execStackTraining n ok s) := by
  unfold execStackTraining
  repeat' split
  all_goals simp [hk]

@[simp] theorem keep_execFcStartTimeout (f : Nat) (s : State) :
    Goes (fun t => keep t = keep s) (execFcStartTimeout f s) := by
  unfold execFcStartTimeout
  repeat' split
  all_goals simp

@[simp] theorem keep_bootFault (x : SiteFault) (s : State) :
    keep (bootFault x s) = keep s := by
  unfold bootFault
  simp

@[simp] theorem keep_bootRows (f : Nat) (s : State) :
    keep (bootRows f s) = keep s := by
  unfold bootRows
  simp

@[simp] theorem keep_execBootDone (faults : List SiteFault) (s : State) :
    Goes (fun t => keep t = keep s) (execBootDone faults s) := by
  unfold execBootDone
  repeat' split
  all_goals simp

@[simp] theorem ok_brownout (cause : Nat) (s : State) (k : Key) (hk : Ok true k (keep s)) : Ok true k (keep (brownout cause s)) := by
  unfold brownout
  extract_lets s0 s1 objs ws s2 s3 s4 s5 serial x
  have h1 : Ok true k (keep s1) := by
    unfold s1
    rw [keep_haltAll, keep_forEach _ _ _ keep_frameDue]
    exact ok_countTick _ _ hk
  have h2 : Ok true k (keep s2) := by rw [keep_linksOff, keep_forEach _ _ _ keep_mbxClear]; exact h1
  have h3 : Ok true k (keep s3) := Ok_forEach _ _ _ _ (fun _ _ h => ok_stackOff _ _ _ h) h2
  have h4 : Ok true k (keep s4) := by rw [keep_fieldsOff, keep_spanClear, keep_forEach _ _ _ keep_quadOff]; exact h3
  have h5 : Ok true k (keep s5) := ok_drainEntries _ _ (by rw [keep_markContexts, keep_configAbandon]; exact h4)
  rw [keep_modPower, keep_modBoot]
  exact ok_stopTicks _ _ h5

@[simp] theorem ok_execBrownout (s : State) (kk : Key) (hk : Ok true kk (keep s)) :
    Goes (fun t => Ok true kk (keep t)) (execBrownout s) := by
  unfold execBrownout
  repeat' split
  all_goals simp [hk]

@[simp] theorem ok_tripCheck (s : State) (kk : Key) (hk : Ok true kk (keep s)) :
    Ok true kk (keep (tripCheck s)) := by
  unfold tripCheck
  repeat' split
  all_goals simp [hk]

@[simp] theorem ok_execThermalTrip (s : State) (kk : Key) (hk : Ok true kk (keep s)) :
    Goes (fun t => Ok true kk (keep t)) (execThermalTrip s) := by
  unfold execThermalTrip
  dsimp only
  repeat' split
  all_goals simp [hk]

@[simp] theorem ok_execGovernorTick (temps : List Reading) (differs : List Decision) (s : State) (kk : Key) (hk : Ok true kk (keep s)) :
    Goes (fun t => Ok true kk (keep t)) (execGovernorTick temps differs s) := by
  unfold execGovernorTick
  repeat' split
  all_goals simp [hk]

@[simp] theorem ok_execRefresh (n : Nat) (s : State) (kk : Key) (hk : Ok true kk (keep s)) :
    Goes (fun t => Ok true kk (keep t)) (execRefresh n s) := by
  unfold execRefresh
  repeat' split
  all_goals simp [hk]

@[simp] theorem ok_execMecTelemetry (n : Nat) (t : Telemetry) (s : State) (kk : Key) (hk : Ok true kk (keep s)) :
    Goes (fun t => Ok true kk (keep t)) (execMecTelemetry n t s) := by
  unfold execMecTelemetry
  repeat' split
  all_goals simp [hk]

theorem ok_waferStop (kp : Bool) (s : State) (k : Key) (hk : Ok ch k (keep s)) : Ok ch k (keep (waferStop kp s)) := by
  unfold waferStop
  extract_lets s1 s2 s3
  have h1 : Ok ch k (keep s1) := ok_drainEntries _ _ (by rw [keep_markContexts, keep_haltAll]; exact hk)
  have h2 : Ok ch k (keep s2) := by
    unfold s2
    rw [keep_forEach _ _ _ (fun _ _ => by rw [keep_vacate, keep_weightsInvalid]), keep_configAbandon, keep_closeAll]
    exact h1
  have h3 : Ok ch k (keep s3) := by rw [keep_linksOff, keep_forEach _ _ _ (fun _ _ => keep_mbxClear _ _)]; exact h2
  split
  · rw [keep_mecsReset, keep_spanKeep]; exact h3
  · rw [keep_forEach _ _ _ keep_quadOff, keep_spanClear]; exact h3

@[simp] theorem keep_waferClear (keepSpan : Bool) (s : State) :
    keep (waferClear keepSpan s) = keep s := by
  unfold waferClear
  simp

@[simp] theorem ok_waferReset (kp : Bool) (s : State) (k : Key) (hk : Ok true k (keep s)) : Ok true k (keep (waferReset kp s)) := by
  have h := ok_waferStop kp s k hk
  rw [← keep_waferClear kp] at h
  exact Ok_tick _ _ _ h id

@[simp] theorem keep_examineSaves (s : State) :
    keep (examineSaves s) = keep s := by
  unfold examineSaves
  dsimp only
  repeat' split
  all_goals simp

@[simp] theorem keep_restoreSave (s : State) :
    keep (restoreSave s) = keep s := by
  unfold restoreSave
  repeat' split
  all_goals simp

@[simp] theorem ok_resetInput (s : State) (kk : Key) (hk : Ok true kk (keep s)) :
    Ok true kk (keep (resetInput s)) := by
  unfold resetInput
  dsimp only
  repeat' split
  all_goals simp [hk]

@[simp] theorem ok_execResetInput (s : State) (kk : Key) (hk : Ok true kk (keep s)) :
    Goes (fun t => Ok true kk (keep t)) (execResetInput s) := by
  unfold execResetInput
  repeat' split
  all_goals simp [hk]

@[simp] theorem ok_execRstWafer (q : Nat) (s : State) (kk : Key) (hk : Ok true kk (keep s)) :
    Goes (fun t => Ok true kk (keep t)) (execRstWafer q s) := by
  unfold execRstWafer
  refine ok_hostCmd _ _ _ _ _ hk (fun _ _ hk => ?_)
  simp [hk]

@[simp] theorem ok_execSaveCommit (s : State) (kk : Key) (hk : Ok true kk (keep s)) :
    Goes (fun t => Ok true kk (keep t)) (execSaveCommit s) := by
  unfold execSaveCommit
  dsimp only
  repeat' split
  all_goals simp [hk]

@[simp] theorem ok_powerOff (s : State) (k : Key) (hk : Ok true k (keep s)) : Ok true k (keep (powerOff s)) := by
  have hi : (keep (powerOff s)).ilv = 1 := rfl
  have ht : (keep (powerOff s)).tick = State.reset.tick := rfl
  refine ⟨hk.1, hk.2.1, hk.2.2.1, fun _ => rfl, fun _ => ?_, nofun, fun _ => ?_⟩
  · rw [hi]; decide
  · rw [ht]; decide

@[simp] theorem ok_execAoLockout (s : State) (kk : Key) (hk : Ok true kk (keep s)) :
    Goes (fun t => Ok true kk (keep t)) (execAoLockout s) := by
  unfold execAoLockout
  repeat' split
  all_goals simp [hk]

@[simp] theorem keep_powerBoot (s : State) :
    keep (powerBoot s) = keep s := by
  unfold powerBoot
  simp

@[simp] theorem ok_bootImages (s : State) (kk : Key) (hk : Ok true kk (keep s)) :
    Ok true kk (keep (bootImages s)) := by
  unfold bootImages
  dsimp only
  repeat' split
  all_goals simp [hk]

@[simp] theorem ok_bootIdle (s : State) (kk : Key) (hk : Ok true kk (keep s)) :
    Ok true kk (keep (bootIdle s)) := by
  unfold bootIdle
  repeat' split
  all_goals simp [hk]

@[simp] theorem ok_execPowerUp (s : State) (kk : Key) (hk : Ok true kk (keep s)) :
    Goes (fun t => Ok true kk (keep t)) (execPowerUp s) := by
  unfold execPowerUp
  repeat' split
  all_goals simp [hk]

@[simp] theorem keep_execHeartbeat (s : State) :
    Goes (fun t => keep t = keep s) (execHeartbeat s) := by
  unfold execHeartbeat
  simp

@[simp] theorem keep_execMgcCoreLost (m : Nat) (s : State) :
    Goes (fun t => keep t = keep s) (execMgcCoreLost m s) := by
  unfold execMgcCoreLost
  repeat' split
  all_goals simp

@[simp] theorem keep_execMgcCoreRestart (m : Nat) (s : State) :
    Goes (fun t => keep t = keep s) (execMgcCoreRestart m s) := by
  unfold execMgcCoreRestart
  repeat' split
  all_goals simp

/-! ## Machine/Idle.lean -/

@[simp] theorem keep_stallTick (old s : State) :
    keep (stallTick old s) = keep s := by
  unfold stallTick
  simp

@[simp] theorem ok_idleStep (s : State) (kk : Key) (hk : Ok true kk (keep s)) :
    Ok true kk (keep (idleStep s)) := by
  unfold idleStep
  simp [hk]

/-! ## Machine/Debug.lean -/

@[simp] theorem keep_mecSeen (n w : Nat) (s : State) :
    keep (mecSeen n w s) = keep s := by
  unfold mecSeen
  simp

@[simp] theorem keep_mecPut (n : Nat) (v : W64) (w : Nat) (s : State) :
    keep (mecPut n v w s) = keep s := by
  unfold mecPut
  simp

@[simp] theorem keep_dbgSeen (u : Nat) (k : DbgKind) (space w : Nat) (s : State) :
    keep (dbgSeen u k space w s) = keep s := by
  unfold dbgSeen
  repeat' split
  all_goals simp

@[simp] theorem keep_dbgPut (u : Nat) (k : DbgKind) (space : Nat) (v : W64) (w : Nat) (s : State) :
    keep (dbgPut u k space v w s) = keep s := by
  unfold dbgPut
  repeat' split
  all_goals simp

@[simp] theorem keep_dbgPuts (u : Nat) (k : DbgKind) (space : Nat) (x3 : List W64) (x4 : Nat) (x5 : State) :
    keep (dbgPuts u k space x3 x4 x5) = keep x5 := by
  induction x3 generalizing x4 x5 with
  | nil => rfl
  | cons a l ih =>
    unfold dbgPuts
    simp [ih]

@[simp] theorem keep_dbgServe (u : Nat) (k : DbgKind) (p : Packet) (s : State) :
    keepServe (dbgServe u k p s) = keep s := by
  unfold dbgServe
  dsimp only
  repeat' split
  all_goals simp

@[simp] theorem keep_execDbg (u : Nat) (s : State) : Goes (fun t => keep t = keep s) (execDbg u s) := by
  unfold execDbg
  split
  · simp
  rename_i k _
  split
  · simp
  rename_i p _
  extract_lets gone risk
  have hd := keep_dbgServe u k p s
  generalize dbgServe u k p s = r at hd ⊢
  cases r <;> dsimp only [keepServe] at hd ⊢ <;> (repeat' split) <;> simp [gone, risk, hd]

@[simp] theorem keep_debugAccess (h : Req) (p : Nat) (wr : Bool) (off words : Nat) (data : List W64) (s : State) :
    keep (debugAccess h p wr off words data s) = keep s := by
  unfold debugAccess
  simp

@[simp] theorem keep_execDebugWindowAccess (h : Req) (wr : Bool) (off words : Nat) (data : List W64) (s : State) :
    Goes (fun t => keep t = keep s) (execDebugWindowAccess h wr off words data s) := by
  unfold execDebugWindowAccess
  repeat' split
  all_goals simp

@[simp] theorem ok_execDbgSnapshot (q : Nat) (s : State) (kk : Key) (hk : Ok ch kk (keep s)) :
    Goes (fun t => Ok ch kk (keep t)) (execDbgSnapshot q s) := by
  unfold execDbgSnapshot
  refine ok_hostCmd _ _ _ _ _ hk (fun _ _ hk => ?_)
  dsimp only
  repeat' split
  all_goals simp (maxDischargeDepth := 20) [hk]

/-! ## Machine/Regs.lean -/

@[simp] theorem keep_regSeen (a : Nat) (low high : Bool) (s : State) :
    keep (regSeen a low high s) = keep s := by
  unfold regSeen
  simp

@[simp] theorem keep_regRead (a n : Nat) (s : State) :
    keep (regRead a n s).2.2 = keep s := by
  unfold regRead
  repeat' split
  all_goals simp

@[simp] theorem keep_tlbInv (v : W32) (s : State) :
    keep (tlbInv v s) = keep s := by
  unfold tlbInv
  simp

@[simp] theorem keep_thermCfg (v : W32) (s : State) :
    keep (thermCfg v s).2 = keep s := by
  unfold thermCfg
  dsimp only
  repeat' split
  all_goals simp

@[simp] theorem keep_nlCtrl (p : Nat) (v : W32) (s : State) :
    keep (nlCtrl p v s) = keep s := by
  unfold nlCtrl
  simp

theorem ok_ifs (k : Key) (c : Prop) [Decidable c] (a b : Nat × State) (h : Ok true k (keep a.2)) (h' : Ok true k (keep b.2)) :
    Ok true k (keep (if c then a else b).2) := by
  split
  · exact h
  · exact h'

@[simp] theorem ok_putHalf (a : Nat) (v : W32) (s : State) (k : Key) (hk : Ok true k (keep s)) : Ok true k (keep (putHalf a v s).2) := by
  unfold putHalf
  extract_lets v64 b o
  refine ok_ifs _ _ _ _ (ok_tickPeriod _ _ _ hk) ?_
  repeat' (with_reducible refine ok_ifs _ _ _ _ ?_ ?_)
  all_goals (first | with_reducible exact hk | (simp [hk]; done))

@[simp] theorem keep_putLong (a : Nat) (v : W64) (s : State) :
    keep (putLong a v s).2 = keep s := by
  unfold putLong
  repeat' split
  all_goals simp

@[simp] theorem ok_regWrite (a n : Nat) (v : W64) (s : State) (kk : Key) (hk : Ok true kk (keep s)) :
    Ok true kk (keep (regWrite a n v s).2) := by
  unfold regWrite
  dsimp only
  repeat' split
  all_goals simp [hk]

/-! ## Machine/HostAccess.lean -/

@[simp] theorem keep_mbxRead (sender i r n : Nat) (s : State) :
    keep (mbxRead sender i r n s).2.2 = keep s := by
  unfold mbxRead
  repeat' split
  all_goals simp

@[simp] theorem keep_mbxWrite (sender i r n : Nat) (ws : List W64) (s : State) :
    keep (mbxWrite sender i r n ws s).2 = keep s := by
  unfold mbxWrite
  repeat' split
  all_goals simp

@[simp] theorem keep_bellRead (sender o n : Nat) (s : State) :
    keep (bellRead sender o n s).2.2 = keep s := by
  unfold bellRead
  repeat' split
  all_goals simp

@[simp] theorem keep_qPut (q r : Nat) (v : W32) (s : State) :
    keep (qPut q r v s).2 = keep s := by
  unfold qPut
  repeat' split
  all_goals simp

@[simp] theorem keep_bellWrite (sender o n : Nat) (ws : List W64) (s : State) :
    keep (bellWrite sender o n ws s).2 = keep s := by
  unfold bellWrite
  dsimp only
  repeat' split
  all_goals simp

@[simp] theorem keep_issue (h : Req) (wr : Bool) (n : Nat) (ps : List (Nat × Packet)) (s : State) :
    keep (issue h wr n ps s) = keep s := by
  unfold issue
  simp

@[simp] theorem keep_dramAccess (h : Req) (wr : Bool) (a n : Nat) (ws : List W64) (s : State) :
    keep (dramAccess h wr a n ws s) = keep s := by
  unfold dramAccess
  simp

@[simp] theorem keep_unitAccess (h : Req) (wr : Bool) (a n : Nat) (ws : List W64) (s : State) :
    keep (unitAccess h wr a n ws s) = keep s := by
  unfold unitAccess
  dsimp only
  repeat' split
  all_goals simp

@[simp] theorem ok_hostAccess (h : Req) (wr : Bool) (a n : Nat) (ws : List W64) (s : State) (kk : Key) (hk : Ok true kk (keep s)) :
    Ok true kk (keep (hostAccess h wr a n ws s)) := by
  unfold hostAccess
  repeat' split
  all_goals simp [hk]

theorem ok_reqFrame (fr : LinkFrame) (f : Req → State → State) (s : State) (k : Key) (hk : Ok ch k (keep s))
    (h : ∀ r t, Ok ch k (keep t) → Ok ch k (keep (f r t))) : Goes (fun t => Ok ch k (keep t)) (reqFrame fr f s) := by
  unfold reqFrame
  extract_lets r x y
  have hx : Ok ch k (keep x.2) := by rw [keep_takeSeq]; exact hk
  have hy : Ok ch k (keep y) := by simpa [y] using hx
  split
  · simpa using hk
  split
  · simpa using hx
  split
  · simpa using hy
  · rw [Goes_next]
    exact h _ _ hy

theorem ok_execHostRead (fr : LinkFrame) (s : State) (k : Key) (hk : Ok true k (keep s)) :
    Goes (fun t => Ok true k (keep t)) (execHostRead fr s) := by
  unfold execHostRead
  refine ok_frameIn _ _ _ _ _ hk (fun t hk => ?_)
  split
  · simpa using hk
  · refine ok_reqFrame _ _ _ _ hk (fun h t hk => ?_)
    repeat' split
    all_goals simp [hk]

theorem ok_execHostWrite (fr : LinkFrame) (s : State) (k : Key) (hk : Ok true k (keep s)) :
    Goes (fun t => Ok true k (keep t)) (execHostWrite fr s) := by
  unfold execHostWrite
  refine ok_frameIn _ _ _ _ _ hk (fun t hk => ?_)
  split
  · simpa using hk
  · refine ok_reqFrame _ _ _ _ hk (fun h t hk => ?_)
    repeat' split
    all_goals simp [hk]

@[simp] theorem ok_execRcRead (h : Req) (addr size : Nat) (s : State) (kk : Key) (hk : Ok true kk (keep s)) :
    Goes (fun t => Ok true kk (keep t)) (execRcRead h addr size s) := by
  unfold execRcRead
  simp [hk]

@[simp] theorem ok_execRegisterWrite (h : Req) (addr size : Nat) (v : W64) (s : State) (kk : Key) (hk : Ok true kk (keep s)) :
    Goes (fun t => Ok true kk (keep t)) (execRegisterWrite h addr size v s) := by
  unfold execRegisterWrite
  simp [hk]

@[simp] theorem ok_jtagAccess (wr : Bool) (v : W64) (s : State) (kk : Key) (hk : Ok true kk (keep s)) :
    Ok true kk (keep (jtagAccess wr v s)) := by
  unfold jtagAccess
  simp [hk]

@[simp] theorem ok_execJtagDbgAddr (v : W64) (s : State) (kk : Key) (hk : Ok true kk (keep s)) :
    Goes (fun t => Ok true kk (keep t)) (execJtagDbgAddr v s) := by
  unfold execJtagDbgAddr
  repeat' split
  all_goals simp [hk]

@[simp] theorem ok_execJtagDbgData (v : W64) (s : State) (kk : Key) (hk : Ok true kk (keep s)) :
    Goes (fun t => Ok true kk (keep t)) (execJtagDbgData v s) := by
  unfold execJtagDbgData
  repeat' split
  all_goals simp [hk]

@[simp] theorem keep_execSmbusBlockRead (cmd : Nat) (s : State) :
    Goes (fun t => keep t = keep s) (execSmbusBlockRead cmd s) := by
  unfold execSmbusBlockRead
  repeat' split
  all_goals simp

@[simp] theorem keep_execRequestDatagram (cmd : Nat) (s : State) :
    Goes (fun t => keep t = keep s) (execRequestDatagram cmd s) := by
  unfold execRequestDatagram
  repeat' split
  all_goals simp

/-! ## Machine/Readout.lean -/

@[simp] theorem ok_execRprMapRead (q : Nat) (s : State) (kk : Key) (hk : Ok ch kk (keep s)) :
    Goes (fun t => Ok ch kk (keep t)) (execRprMapRead q s) := by
  unfold execRprMapRead
  refine ok_hostCmd _ _ _ _ _ hk (fun _ _ hk => ?_)
  simp [hk]

@[simp] theorem ok_execBrnRead (q : Nat) (s : State) (kk : Key) (hk : Ok ch kk (keep s)) :
    Goes (fun t => Ok ch kk (keep t)) (execBrnRead q s) := by
  unfold execBrnRead
  refine ok_hostCmd _ _ _ _ _ hk (fun _ _ hk => ?_)
  repeat' (first | split | extract_lets)
  all_goals simp +zetaDelta [hk]

end Sys2Proof.Machine
end

