-- ==== Sys2Proof/Laws/KeepExec.lean ====
section
/-! SUPPORT. What every command leaves of the fixed part of the state: the two that change the owner key slots and the SVN floor
aside, one theorem over all commands. -/

namespace Sys2Proof.Machine

open Sys2Proof

theorem Goes.imp {P Q : State → Prop} {o : Out} (h : Goes P o) (i : ∀ t, P t → Q t) : Goes Q o := fun t e => i t (h t e)

theorem exec_ok (i : Instr) (s : State) (h : keyCommand i = false) : Goes (fun t => Ok (tickCommand i) (keep s) (keep t)) (exec i s) := by
  cases i
  case waferTick => exact ok_execWaferTick _ _ (Ok_refl _)
  case idleTick => exact (keep_execIdleTick _).imp (fun t h => h ▸ Ok_refl _)
  case crossingRetime => exact (keep_execCrossingRetime _ _ _).imp (fun t h => h ▸ Ok_refl _)
  case epochDrainDone => exact (keep_execEpochDrainDone _).imp (fun t h => h ▸ Ok_refl _)
  case epochLate => exact (keep_execEpochLate _).imp (fun t h => h ▸ Ok_refl _)
  case batchListWrite => exact (keep_execBatchListWrite _ _).imp (fun t h => h ▸ Ok_refl _)
  case overrun => exact (keep_execOverrun _ _).imp (fun t h => h ▸ Ok_refl _)
  case frameEndSignal => exact (keep_execFrameEndSignal _ _).imp (fun t h => h ▸ Ok_refl _)
  case frameComplete => exact (keep_execFrameComplete _ _).imp (fun t h => h ▸ Ok_refl _)
  case dikewatch => exact (keep_execDikewatch _ _).imp (fun t h => h ▸ Ok_refl _)
  case nop => exact (keep_execNop _ _).imp (fun t h => h ▸ Ok_refl _)
  case fend => exact (keep_execFend _ _).imp (fun t h => h ▸ Ok_refl _)
  case brk => exact (keep_execBrk _ _).imp (fun t h => h ▸ Ok_refl _)
  case pset => exact (keep_execPset _ _).imp (fun t h => h ▸ Ok_refl _)
  case mfsr => exact (keep_execMfsr _ _).imp (fun t h => h ▸ Ok_refl _)
  case mtsr => exact (keep_execMtsr _ _).imp (fun t h => h ▸ Ok_refl _)
  case add => exact (keep_execAdd _ _).imp (fun t h => h ▸ Ok_refl _)
  case sub => exact (keep_execSub _ _).imp (fun t h => h ▸ Ok_refl _)
  case mul => exact (keep_execMul _ _).imp (fun t h => h ▸ Ok_refl _)
  case and => exact (keep_execAnd _ _).imp (fun t h => h ▸ Ok_refl _)
  case or => exact (keep_execOr _ _).imp (fun t h => h ▸ Ok_refl _)
  case xor => exact (keep_execXor _ _).imp (fun t h => h ▸ Ok_refl _)
  case shl => exact (keep_execShl _ _).imp (fun t h => h ▸ Ok_refl _)
  case shr => exact (keep_execShr _ _).imp (fun t h => h ▸ Ok_refl _)
  case sar => exact (keep_execSar _ _).imp (fun t h => h ▸ Ok_refl _)
  case min => exact (keep_execMin _ _).imp (fun t h => h ▸ Ok_refl _)
  case max => exact (keep_execMax _ _).imp (fun t h => h ▸ Ok_refl _)
  case minu => exact (keep_execMinu _ _).imp (fun t h => h ▸ Ok_refl _)
  case maxu => exact (keep_execMaxu _ _).imp (fun t h => h ▸ Ok_refl _)
  case movh => exact (keep_execMovh _ _).imp (fun t h => h ▸ Ok_refl _)
  case scmp => exact (keep_execScmp _ _).imp (fun t h => h ▸ Ok_refl _)
  case lds => exact (keep_execLds _ _).imp (fun t h => h ▸ Ok_refl _)
  case sts => exact (keep_execSts _ _).imp (fun t h => h ▸ Ok_refl _)
  case ldv => exact (keep_execLdv _ _).imp (fun t h => h ▸ Ok_refl _)
  case stv => exact (keep_execStv _ _).imp (fun t h => h ▸ Ok_refl _)
  case vadd => exact (keep_execVadd _ _).imp (fun t h => h ▸ Ok_refl _)
  case vsub => exact (keep_execVsub _ _).imp (fun t h => h ▸ Ok_refl _)
  case vmul => exact (keep_execVmul _ _).imp (fun t h => h ▸ Ok_refl _)
  case vfma => exact (keep_execVfma _ _).imp (fun t h => h ▸ Ok_refl _)
  case vmin => exact (keep_execVmin _ _).imp (fun t h => h ▸ Ok_refl _)
  case vmax => exact (keep_execVmax _ _).imp (fun t h => h ▸ Ok_refl _)
  case vcmp => exact (keep_execVcmp _ _).imp (fun t h => h ▸ Ok_refl _)
  case vsel => exact (keep_execVsel _ _).imp (fun t h => h ▸ Ok_refl _)
  case vbcst => exact (keep_execVbcst _ _).imp (fun t h => h ▸ Ok_refl _)
  case vred => exact (keep_execVred _ _).imp (fun t h => h ▸ Ok_refl _)
  case vperm => exact (keep_execVperm _ _).imp (fun t h => h ▸ Ok_refl _)
  case vcvt => exact (keep_execVcvt _ _).imp (fun t h => h ▸ Ok_refl _)
  case vcvtmx => exact (keep_execVcvtmx _ _).imp (fun t h => h ▸ Ok_refl _)
  case tmma => exact (keep_execTmma _ _).imp (fun t h => h ▸ Ok_refl _)
  case tzero => exact (keep_execTzero _ _).imp (fun t h => h ▸ Ok_refl _)
  case trd => exact (keep_execTrd _ _).imp (fun t h => h ▸ Ok_refl _)
  case twr => exact (keep_execTwr _ _).imp (fun t h => h ▸ Ok_refl _)
  case tout => exact (keep_execTout _ _).imp (fun t h => h ▸ Ok_refl _)
  case qmovin => exact (keep_execQmovin _ _).imp (fun t h => h ▸ Ok_refl _)
  case qmovout => exact (keep_execQmovout _ _).imp (fun t h => h ▸ Ok_refl _)
  case msend => exact (keep_execMsend _ _).imp (fun t h => h ▸ Ok_refl _)
  case mput => exact (keep_execMput _ _).imp (fun t h => h ▸ Ok_refl _)
  case mget => exact (keep_execMget _ _).imp (fun t h => h ▸ Ok_refl _)
  case sync => exact (keep_execSync _ _).imp (fun t h => h ▸ Ok_refl _)
  case wclaim => exact (keep_execWclaim _ _).imp (fun t h => h ▸ Ok_refl _)
  case wdone => exact (keep_execWdone _ _).imp (fun t h => h ▸ Ok_refl _)
  case faultArith => exact (keep_execFaultArith _ _).imp (fun t h => h ▸ Ok_refl _)
  case faultSram => exact (keep_execFaultSram _ _ _).imp (fun t h => h ▸ Ok_refl _)
  case logicFault => exact (keep_execLogicFault _ _).imp (fun t h => h ▸ Ok_refl _)
  case switchFault => exact (keep_execSwitchFault _ _ _).imp (fun t h => h ▸ Ok_refl _)
  case livenessProbe => exact (keep_execLivenessProbe _ _).imp (fun t h => h ▸ Ok_refl _)
  case probeTimeout => exact (keep_execProbeTimeout _ _).imp (fun t h => h ▸ Ok_refl _)
  case repairDecision => exact (keep_execRepairDecision _ _ _).imp (fun t h => h ▸ Ok_refl _)
  case repairDone => exact ok_execRepairDone _ _ _ (Ok_refl _)
  case seedWrite => exact (keep_execSeedWrite _ _).imp (fun t h => h ▸ Ok_refl _)
  case seedArrival => exact (keep_execSeedArrival _ _).imp (fun t h => h ▸ Ok_refl _)
  case sfuInputEntry => exact (keep_execSfuInputEntry _ _).imp (fun t h => h ▸ Ok_refl _)
  case streamRepetition => exact (keep_execStreamRepetition _ _ _).imp (fun t h => h ▸ Ok_refl _)
  case steeringGroup => exact (keep_execSteeringGroup _ _ _).imp (fun t h => h ▸ Ok_refl _)
  case combiningAdd => exact (keep_execCombiningAdd _ _).imp (fun t h => h ▸ Ok_refl _)
  case reconvStall => exact (keep_execReconvStall _ _ _ _).imp (fun t h => h ▸ Ok_refl _)
  case msg => exact (keep_execMsg _ _).imp (fun t h => h ▸ Ok_refl _)
  case ringToInbox => exact (keep_execRingToInbox _ _).imp (fun t h => h ▸ Ok_refl _)
  case write => exact (keep_execWrite _ _).imp (fun t h => h ▸ Ok_refl _)
  case read => exact (keep_execRead _ _).imp (fun t h => h ▸ Ok_refl _)
  case release => exact (keep_execRelease _ _).imp (fun t h => h ▸ Ok_refl _)
  case wclaimRequest => exact (keep_execWclaimRequest _ _).imp (fun t h => h ▸ Ok_refl _)
  case wdoneRequest => exact (keep_execWdoneRequest _ _).imp (fun t h => h ▸ Ok_refl _)
  case syncAdd => exact (keep_execSyncAdd _ _).imp (fun t h => h ▸ Ok_refl _)
  case syncSub => exact (keep_execSyncSub _ _).imp (fun t h => h ▸ Ok_refl _)
  case syncSet => exact (keep_execSyncSet _ _).imp (fun t h => h ▸ Ok_refl _)
  case syncWaitGe => exact (keep_execSyncWaitGe _ _).imp (fun t h => h ▸ Ok_refl _)
  case syncWaitEq => exact (keep_execSyncWaitEq _ _).imp (fun t h => h ▸ Ok_refl _)
  case dbg => exact (keep_execDbg _ _).imp (fun t h => h ▸ Ok_refl _)
  case dread => exact ok_execDread _ _ _ _ (Ok_refl _)
  case dwrite => exact ok_execDwrite _ _ _ _ (Ok_refl _)
  case ringRequest => exact ok_execRingRequest _ _ _ _ (Ok_refl _)
  case umsg => exact (keep_execUmsg _ _).imp (fun t h => h ▸ Ok_refl _)
  case ack => exact (keep_execAck _ _).imp (fun t h => h ▸ Ok_refl _)
  case rdata => exact ok_execRdata _ _ _ (Ok_refl _)
  case wval => exact (keep_execWval _ _).imp (fun t h => h ▸ Ok_refl _)
  case wsat => exact (keep_execWsat _ _).imp (fun t h => h ▸ Ok_refl _)
  case nack => exact (keep_execNack _ _).imp (fun t h => h ▸ Ok_refl _)
  case mcAck => exact (keep_execMcAck _ _).imp (fun t h => h ▸ Ok_refl _)
  case mcNack => exact (keep_execMcNack _ _).imp (fun t h => h ▸ Ok_refl _)
  case mcDrop => exact (keep_execMcDrop _ _).imp (fun t h => h ▸ Ok_refl _)
  case holdIdle => exact (keep_execHoldIdle _ _ _).imp (fun t h => h ▸ Ok_refl _)
  case replyTimer => exact (keep_execReplyTimer _ _ _).imp (fun t h => h ▸ Ok_refl _)
  case resendDelay => exact (keep_execResendDelay _ _ _).imp (fun t h => h ▸ Ok_refl _)
  case meshLinkDown => exact (keep_execMeshLinkDown _ _ _ _).imp (fun t h => h ▸ Ok_refl _)
  case sendBlk => exact (keep_execSendBlk _ _).imp (fun t h => h ▸ Ok_refl _)
  case recvBlk => exact (keep_execRecvBlk _ _).imp (fun t h => h ▸ Ok_refl _)
  case seIteration => exact (keep_execSeIteration _ _).imp (fun t h => h ▸ Ok_refl _)
  case seIterationDone => exact (keep_execSeIterationDone _ _).imp (fun t h => h ▸ Ok_refl _)
  case stagingDone => exact (keep_execStagingDone _ _).imp (fun t h => h ▸ Ok_refl _)
  case refresh => exact ok_execRefresh _ _ _ (Ok_refl _)
  case calibrationDue => exact (keep_execCalibrationDue _ _).imp (fun t h => h ▸ Ok_refl _)
  case calLate => exact (keep_execCalLate _ _).imp (fun t h => h ▸ Ok_refl _)
  case patrolScrub => exact (keep_execPatrolScrub _ _ _).imp (fun t h => h ▸ Ok_refl _)
  case mecTelemetry => exact ok_execMecTelemetry _ _ _ _ (Ok_refl _)
  case hostRead => exact ok_execHostRead _ _ _ (Ok_refl _)
  case hostWrite => exact ok_execHostWrite _ _ _ (Ok_refl _)
  case ackFrame => exact (keep_execAckFrame _ _ _ _ _).imp (fun t h => h ▸ Ok_refl _)
  case replayTimeout => exact (keep_execReplayTimeout _ _).imp (fun t h => h ▸ Ok_refl _)
  case evt => exact (keep_execEvt _).imp (fun t h => h ▸ Ok_refl _)
  case failover => exact (keep_execFailover _ _ _ _ _).imp (fun t h => h ▸ Ok_refl _)
  case failoverRepeat => exact (keep_execFailoverRepeat _ _).imp (fun t h => h ▸ Ok_refl _)
  case linkDown => exact (keep_execLinkDown _ _).imp (fun t h => h ▸ Ok_refl _)
  case linkUp => exact (keep_execLinkUp _ _).imp (fun t h => h ▸ Ok_refl _)
  case trainRetry => exact (keep_execTrainRetry _ _ _).imp (fun t h => h ▸ Ok_refl _)
  case spanEgress => exact (keep_execSpanEgress _ _).imp (fun t h => h ▸ Ok_refl _)
  case spanData => exact (keep_execSpanData _ _ _ _ _).imp (fun t h => h ▸ Ok_refl _)
  case spanAck => exact (keep_execSpanAck _ _ _ _ _ _).imp (fun t h => h ▸ Ok_refl _)
  case reach => exact (keep_execReach _ _ _ _ _).imp (fun t h => h ▸ Ok_refl _)
  case spanDown => exact (keep_execSpanDown _ _).imp (fun t h => h ▸ Ok_refl _)
  case spanUp => exact (keep_execSpanUp _ _ _ _).imp (fun t h => h ▸ Ok_refl _)
  case relayTimeout => exact (keep_execRelayTimeout _ _ _ _).imp (fun t h => h ▸ Ok_refl _)
  case polderLoad => exact ok_execPolderLoad _ _ _ (Ok_refl _)
  case polderStart => exact (keep_execPolderStart _ _).imp (fun t h => h ▸ Ok_refl _)
  case polderHalt => exact (keep_execPolderHalt _ _).imp (fun t h => h ▸ Ok_refl _)
  case polderResume => exact (keep_execPolderResume _ _).imp (fun t h => h ▸ Ok_refl _)
  case polderReset => exact (keep_execPolderReset _ _).imp (fun t h => h ▸ Ok_refl _)
  case polderRelease => exact (keep_execPolderRelease _ _).imp (fun t h => h ▸ Ok_refl _)
  case polderStage => exact ok_execPolderStage _ _ _ (Ok_refl _)
  case polderSwap => exact (keep_execPolderSwap _ _).imp (fun t h => h ▸ Ok_refl _)
  case routeLoad => exact (keep_execRouteLoad _ _).imp (fun t h => h ▸ Ok_refl _)
  case ctxOpen => exact ok_execCtxOpen _ _ _ (Ok_refl _)
  case ctxSubmit => exact (keep_execCtxSubmit _ _).imp (fun t h => h ▸ Ok_refl _)
  case ctxPark => exact (keep_execCtxPark _ _).imp (fun t h => h ▸ Ok_refl _)
  case ctxUnpark => exact (keep_execCtxUnpark _ _).imp (fun t h => h ▸ Ok_refl _)
  case ctxPrio => exact (keep_execCtxPrio _ _).imp (fun t h => h ▸ Ok_refl _)
  case ctxClose => exact (keep_execCtxClose _ _).imp (fun t h => h ▸ Ok_refl _)
  case ctxRecord => exact ok_execCtxRecord _ _ _ (Ok_refl _)
  case ctxFree => exact (keep_execCtxFree _ _).imp (fun t h => h ▸ Ok_refl _)
  case treatmentEntry => exact ok_execTreatmentEntry _ _ (Ok_refl _)
  case sealRecord => exact ok_execSeal _ _ _ (Ok_refl _)
  case pwrDomain => exact ok_execPwrDomain _ _ _ _ (Ok_refl _)
  case pwrCeil => exact (keep_execPwrCeil _ _).imp (fun t h => h ▸ Ok_refl _)
  case pwrHint => exact (keep_execPwrHint _ _).imp (fun t h => h ▸ Ok_refl _)
  case pwrTrust => exact (keep_execPwrTrust _ _).imp (fun t h => h ▸ Ok_refl _)
  case brnRead => exact ok_execBrnRead _ _ _ (Ok_refl _)
  case brnClear => exact (keep_execBrnClear _ _).imp (fun t h => h ▸ Ok_refl _)
  case rstUnit => exact ok_execRstUnit _ _ _ (Ok_refl _)
  case rstCluster => exact ok_execRstCluster _ _ _ (Ok_refl _)
  case rstField => exact ok_execRstField _ _ _ (Ok_refl _)
  case fieldResetDiscard => exact (keep_execFieldResetDiscard _ _).imp (fun t h => h ▸ Ok_refl _)
  case rstWafer => exact ok_execRstWafer _ _ _ (Ok_refl _)
  case rprImage => exact (keep_execRprImage _ _).imp (fun t h => h ▸ Ok_refl _)
  case rprRestore => exact (keep_execRprRestore _ _).imp (fun t h => h ▸ Ok_refl _)
  case rprFence => exact (keep_execRprFence _ _).imp (fun t h => h ▸ Ok_refl _)
  case rprClear => exact (keep_execRprClear _ _ _).imp (fun t h => h ▸ Ok_refl _)
  case rprMapRead => exact ok_execRprMapRead _ _ _ (Ok_refl _)
  case calWrite => exact (keep_execCalWrite _ _).imp (fun t h => h ▸ Ok_refl _)
  case calRead => exact ok_execCalRead _ _ _ (Ok_refl _)
  case secCertRead => exact ok_execSecCertRead _ _ _ (Ok_refl _)
  case secEnrol => cases h
  case secFwUpdate => exact (keep_execSecFwUpdate _ _).imp (fun t h => h ▸ Ok_refl _)
  case secFwCommit => cases h
  case secMeasure => exact (keep_execSecMeasure _ _).imp (fun t h => h ▸ Ok_refl _)
  case secJournal => exact (keep_execSecJournal _ _).imp (fun t h => h ▸ Ok_refl _)
  case secKeyRead => exact ok_execSecKeyRead _ _ _ (Ok_refl _)
  case spanTable => exact (keep_execSpanTable _ _).imp (fun t h => h ▸ Ok_refl _)
  case spanSluice => exact (keep_execSpanSluice _ _).imp (fun t h => h ▸ Ok_refl _)
  case dbgSnapshot => exact ok_execDbgSnapshot _ _ _ (Ok_refl _)
  case sqTail => exact (keep_execSqTail _ _ _ _).imp (fun t h => h ▸ Ok_refl _)
  case cqHead => exact (keep_execCqHead _ _ _ _).imp (fun t h => h ▸ Ok_refl _)
  case mbxLockRead => exact (keep_execMbxLockRead _ _ _).imp (fun t h => h ▸ Ok_refl _)
  case mbxLockWrite => exact (keep_execMbxLockWrite _ _ _ _).imp (fun t h => h ▸ Ok_refl _)
  case mbxSlotWrite => exact (keep_execMbxSlotWrite _ _ _ _ _).imp (fun t h => h ▸ Ok_refl _)
  case mbxSend => exact (keep_execMbxSend _ _ _ _).imp (fun t h => h ▸ Ok_refl _)
  case mbxEmpty => exact (keep_execMbxEmpty _ _).imp (fun t h => h ▸ Ok_refl _)
  case tickPeriodWrite => exact ok_execTickPeriodWrite _ _ _ _ (Ok_refl _)
  case tickRunSet => exact ok_execTickRunSet _ _ _ (Ok_refl _)
  case tickRunClear => exact ok_execTickRunClear _ _ _ (Ok_refl _)
  case memCfgWrite => exact ok_execMemCfgWrite _ _ _ _ (Ok_refl _)
  case memTlbInvCtx => exact (keep_execMemTlbInvCtx _ _ _).imp (fun t h => h ▸ Ok_refl _)
  case memTlbInvAll => exact (keep_execMemTlbInvAll _ _).imp (fun t h => h ▸ Ok_refl _)
  case nlCtrlEn => exact (keep_execNlCtrlEn _ _ _ _).imp (fun t h => h ▸ Ok_refl _)
  case nlCtrlRetrain => exact (keep_execNlCtrlRetrain _ _ _).imp (fun t h => h ▸ Ok_refl _)
  case nlModeWrite => exact (keep_execNlModeWrite _ _ _).imp (fun t h => h ▸ Ok_refl _)
  case spanCfgWrite => exact (keep_execSpanCfgWrite _ _ _).imp (fun t h => h ▸ Ok_refl _)
  case spCtrlRetrain => exact (keep_execSpCtrlRetrain _ _ _).imp (fun t h => h ▸ Ok_refl _)
  case pwrCapWrite => exact (keep_execPwrCapWrite _ _ _).imp (fun t h => h ▸ Ok_refl _)
  case secJnlHeadWrite => exact (keep_execSecJnlHeadWrite _ _ _).imp (fun t h => h ▸ Ok_refl _)
  case tagcCfgWrite => exact (keep_execTagcCfgWrite _ _ _ _).imp (fun t h => h ▸ Ok_refl _)
  case wcCtlReset => exact (keep_execWcCtlReset _ _ _).imp (fun t h => h ▸ Ok_refl _)
  case winBaseWrite => exact (keep_execWinBaseWrite _ _ _ _).imp (fun t h => h ▸ Ok_refl _)
  case debugWindowAccess => exact (keep_execDebugWindowAccess _ _ _ _ _ _).imp (fun t h => h ▸ Ok_refl _)
  case rcRead => exact ok_execRcRead _ _ _ _ _ (Ok_refl _)
  case registerWrite => exact ok_execRegisterWrite _ _ _ _ _ _ (Ok_refl _)
  case jtagDbgAddr => exact ok_execJtagDbgAddr _ _ _ (Ok_refl _)
  case jtagDbgData => exact ok_execJtagDbgData _ _ _ (Ok_refl _)
  case smbusBlockRead => exact (keep_execSmbusBlockRead _ _).imp (fun t h => h ▸ Ok_refl _)
  case requestDatagram => exact (keep_execRequestDatagram _ _).imp (fun t h => h ▸ Ok_refl _)
  case governorTick => exact ok_execGovernorTick _ _ _ _ (Ok_refl _)
  case regulatorReport => exact (keep_execRegulatorReport _ _ _ _).imp (fun t h => h ▸ Ok_refl _)
  case regulatorStale => exact (keep_execRegulatorStale _ _).imp (fun t h => h ▸ Ok_refl _)
  case regFault => exact ok_execRegFault _ _ _ (Ok_refl _)
  case drainDone => exact (keep_execDrainDone _ _).imp (fun t h => h ▸ Ok_refl _)
  case fieldUp => exact (keep_execFieldUp _ _).imp (fun t h => h ▸ Ok_refl _)
  case thermalRestart => exact (keep_execThermalRestart _ _).imp (fun t h => h ▸ Ok_refl _)
  case thermalTrip => exact ok_execThermalTrip _ _ (Ok_refl _)
  case coolantWarn => exact (keep_execCoolantWarn _ _ _ _).imp (fun t h => h ▸ Ok_refl _)
  case coolantClear => exact (keep_execCoolantClear _).imp (fun t h => h ▸ Ok_refl _)
  case inputLow => exact (keep_execInputLow _ _).imp (fun t h => h ▸ Ok_refl _)
  case brownout => exact ok_execBrownout _ _ (Ok_refl _)
  case saveCommit => exact ok_execSaveCommit _ _ (Ok_refl _)
  case inputOvervoltage => exact (keep_execInputOvervoltage _).imp (fun t h => h ▸ Ok_refl _)
  case aoLockout => exact ok_execAoLockout _ _ (Ok_refl _)
  case powerUp => exact ok_execPowerUp _ _ (Ok_refl _)
  case resetInput => exact ok_execResetInput _ _ (Ok_refl _)
  case stackTraining => exact ok_execStackTraining _ _ _ _ (Ok_refl _)
  case fcStartTimeout => exact (keep_execFcStartTimeout _ _).imp (fun t h => h ▸ Ok_refl _)
  case bootDone => exact (keep_execBootDone _ _).imp (fun t h => h ▸ Ok_refl _)
  case heartbeat => exact (keep_execHeartbeat _).imp (fun t h => h ▸ Ok_refl _)
  case mgcCoreLost => exact (keep_execMgcCoreLost _ _).imp (fun t h => h ▸ Ok_refl _)
  case mgcCoreRestart => exact (keep_execMgcCoreRestart _ _).imp (fun t h => h ▸ Ok_refl _)
  case faultMapWrite => exact (keep_execFaultMapWrite _ _).imp (fun t h => h ▸ Ok_refl _)
  case mapWriteRetry => exact (keep_execMapWriteRetry _ _).imp (fun t h => h ▸ Ok_refl _)
  case laneTransfer => exact (keep_execLaneTransfer _ _ _ _).imp (fun t h => h ▸ Ok_refl _)
  case joinMove => exact (keep_execJoinMove _ _ _).imp (fun t h => h ▸ Ok_refl _)
  case routerHead => exact (keep_execRouterHead _ _ _).imp (fun t h => h ▸ Ok_refl _)
  case tmmaStep => exact (keep_execTmmaStep _ _).imp (fun t h => h ▸ Ok_refl _)
  case queueMoverEntry => exact (keep_execQueueMoverEntry _ _ _).imp (fun t h => h ▸ Ok_refl _)
  case descriptorEntry => exact (keep_execDescriptorEntry _ _ _).imp (fun t h => h ▸ Ok_refl _)
  case ringReply => exact ok_execRingReply _ _ _ (Ok_refl _)

end Sys2Proof.Machine
end

