-- ==== Sys2Proof/Laws/Readout.lean ====
section
/-! SUPPORT. Lengths of the byte strings that the read-out commands copy. -/

namespace Sys2Proof.Machine

open Sys2Proof

/-- The n low bytes are n bytes. -/
theorem toLe_length : ∀ n x, (toLe n x).length = n
  | 0, _ => rfl
  | n + 1, x => by simp [toLe, toLe_length n]

/-- Records of one length, one after the other. -/
theorem records_length {α : Type} (l : List α) (f : α → List Byte) (k : Nat) (h : ∀ a, (f a).length = k) :
    (l.flatMap f).length = k * l.length := by
  induction l with
  | nil => rfl
  | cons a l ih => simp [ih, h, Nat.mul_add, Nat.add_comm]

/-- The fault map has the length that its header states (15 R504). -/
theorem mapBytes_length (m : FaultMap) : (mapBytes m).length = mapLength := by
  have h1 : ∀ x, (rowBytes x).length = 32 := fun x => by simp [rowBytes, toLe_length, zeros]
  have h2 : ∀ f, (fieldRecord m f).length = 3208 := fun f => by
    simp only [fieldRecord, List.length_append, toLe_length]; rw [records_length _ _ 32 (fun r => h1 _)]; simp
  simp only [mapBytes, mapBody, List.length_append, toLe_length, digestBytes]
  rw [records_length _ _ 3208 h2, records_length _ _ 8 (fun _ => toLe_length _ _), records_length _ _ 8 (fun _ => toLe_length _ _)]
  simp [zeros, mapLength]

end Sys2Proof.Machine
end

