-- ==== Sys2Proof/Laws/State.lean ====
section
/-! SUPPORT. Reading one object of the state after another was written. -/

namespace Sys2Proof.Machine

open Sys2Proof

/-! ## Sparse maps -/

@[simp] theorem mget_mput_self {α : Type} (d v : α) (m : Map α) (k : Nat) : mget d (mput m k v) k = v := by
  induction m with
  | nil => simp [mput, mget]
  | cons e m ih =>
    obtain ⟨k', v'⟩ := e
    unfold mput
    split
    · simp [mget]
    · split
      · simp [mget]
      · rename_i h
        simp [mget, h, ih]

theorem mget_mput_ne {α : Type} (d v : α) (m : Map α) (k j : Nat) (h : j ≠ k) : mget d (mput m k v) j = mget d m j := by
  induction m with
  | nil => simp [mput, mget, Ne.symm h]
  | cons e m ih =>
    obtain ⟨k', v'⟩ := e
    unfold mput
    split
    · simp [mget, Ne.symm h]
    · split
      · rename_i e
        simp [mget, Ne.symm h, e]
      · simp [mget, ih]

@[simp] theorem mput_mput {α : Type} (m : Map α) (k : Nat) (v w : α) : mput (mput m k v) k w = mput m k w := by
  induction m with
  | nil => simp [mput]
  | cons e m ih =>
    obtain ⟨k', v'⟩ := e
    by_cases h : k < k'
    · simp [mput, h]
    · by_cases h' : k' = k
      · simp [mput, h']
      · simp [mput, h, h', ih]

/-! ## Objects -/

@[simp] theorem getCore_setCore (s : State) (u : Nat) (x : Core) : getCore (setCore s u x) u = x := mget_mput_self _ _ _ _

theorem getCore_setCore_ne (s : State) (u j : Nat) (x : Core) (h : j ≠ u) : getCore (setCore s u x) j = getCore s j :=
  mget_mput_ne _ _ _ _ _ h

@[simp] theorem setCore_setCore (s : State) (u : Nat) (x y : Core) : setCore (setCore s u x) u y = setCore s u y := by
  simp [setCore]

@[simp] theorem getSfu_setSfu (s : State) (u : Nat) (x : Sfu) : getSfu (setSfu s u x) u = x := mget_mput_self _ _ _ _

theorem getSfu_setSfu_ne (s : State) (u j : Nat) (x : Sfu) (h : j ≠ u) : getSfu (setSfu s u x) j = getSfu s j :=
  mget_mput_ne _ _ _ _ _ h

@[simp] theorem setSfu_setSfu (s : State) (u : Nat) (x y : Sfu) : setSfu (setSfu s u x) u y = setSfu s u y := by
  simp [setSfu]

@[simp] theorem getMu_setMu (s : State) (u : Nat) (x : Mu) : getMu (setMu s u x) u = x := mget_mput_self _ _ _ _

theorem getMu_setMu_ne (s : State) (u j : Nat) (x : Mu) (h : j ≠ u) : getMu (setMu s u x) j = getMu s j :=
  mget_mput_ne _ _ _ _ _ h

@[simp] theorem setMu_setMu (s : State) (u : Nat) (x y : Mu) : setMu (setMu s u x) u y = setMu s u y := by
  simp [setMu]

@[simp] theorem getSw_setSw (s : State) (u : Nat) (x : Switch) : getSw (setSw s u x) u = x := mget_mput_self _ _ _ _

theorem getSw_setSw_ne (s : State) (u j : Nat) (x : Switch) (h : j ≠ u) : getSw (setSw s u x) j = getSw s j :=
  mget_mput_ne _ _ _ _ _ h

@[simp] theorem setSw_setSw (s : State) (u : Nat) (x y : Switch) : setSw (setSw s u x) u y = setSw s u y := by
  simp [setSw]

@[simp] theorem getRouter_setRouter (s : State) (u : Nat) (x : Router) : getRouter (setRouter s u x) u = x := mget_mput_self _ _ _ _

theorem getRouter_setRouter_ne (s : State) (u j : Nat) (x : Router) (h : j ≠ u) : getRouter (setRouter s u x) j = getRouter s j :=
  mget_mput_ne _ _ _ _ _ h

@[simp] theorem setRouter_setRouter (s : State) (u : Nat) (x y : Router) : setRouter (setRouter s u x) u y = setRouter s u y := by
  simp [setRouter]

@[simp] theorem getMif_setMif (s : State) (u : Nat) (x : MeshIf) : getMif (setMif s u x) u = x := mget_mput_self _ _ _ _

theorem getMif_setMif_ne (s : State) (u j : Nat) (x : MeshIf) (h : j ≠ u) : getMif (setMif s u x) j = getMif s j :=
  mget_mput_ne _ _ _ _ _ h

@[simp] theorem setMif_setMif (s : State) (u : Nat) (x y : MeshIf) : setMif (setMif s u x) u y = setMif s u y := by
  simp [setMif]

@[simp] theorem getField_setField (s : State) (f : Nat) (x : Field) : getField (setField s f x) f = x := mget_mput_self _ _ _ _

theorem getField_setField_ne (s : State) (f j : Nat) (x : Field) (h : j ≠ f) : getField (setField s f x) j = getField s j :=
  mget_mput_ne _ _ _ _ _ h

@[simp] theorem setField_setField (s : State) (f : Nat) (x y : Field) : setField (setField s f x) f y = setField s f y := by
  simp [setField]

@[simp] theorem getPolder_setPolder (s : State) (p : Nat) (x : Polder) : getPolder (setPolder s p x) p = x := mget_mput_self _ _ _ _

theorem getPolder_setPolder_ne (s : State) (p j : Nat) (x : Polder) (h : j ≠ p) : getPolder (setPolder s p x) j = getPolder s j :=
  mget_mput_ne _ _ _ _ _ h

@[simp] theorem setPolder_setPolder (s : State) (p : Nat) (x y : Polder) : setPolder (setPolder s p x) p y = setPolder s p y := by
  simp [setPolder]

@[simp] theorem getCtx_setCtx (s : State) (c : Nat) (x : Ctx) : getCtx (setCtx s c x) c = x := mget_mput_self _ _ _ _

theorem getCtx_setCtx_ne (s : State) (c j : Nat) (x : Ctx) (h : j ≠ c) : getCtx (setCtx s c x) j = getCtx s j :=
  mget_mput_ne _ _ _ _ _ h

@[simp] theorem setCtx_setCtx (s : State) (c : Nat) (x y : Ctx) : setCtx (setCtx s c x) c y = setCtx s c y := by
  simp [setCtx]

@[simp] theorem getObj_setObj (s : State) (o : Nat) (x : SyncObj) : getObj (setObj s o x) o = x := mget_mput_self _ _ _ _

theorem getObj_setObj_ne (s : State) (o j : Nat) (x : SyncObj) (h : j ≠ o) : getObj (setObj s o x) j = getObj s j :=
  mget_mput_ne _ _ _ _ _ h

@[simp] theorem setObj_setObj (s : State) (o : Nat) (x y : SyncObj) : setObj (setObj s o x) o y = setObj s o y := by
  simp [setObj]

@[simp] theorem getMec_setMec (s : State) (n : Nat) (x : Mec) : getMec (setMec s n x) n = x := mget_mput_self _ _ _ _

theorem getMec_setMec_ne (s : State) (n j : Nat) (x : Mec) (h : j ≠ n) : getMec (setMec s n x) j = getMec s j :=
  mget_mput_ne _ _ _ _ _ h

@[simp] theorem setMec_setMec (s : State) (n : Nat) (x y : Mec) : setMec (setMec s n x) n y = setMec s n y := by
  simp [setMec]

@[simp] theorem getSe_setSe (s : State) (e : Nat) (x : Se) : getSe (setSe s e x) e = x := mget_mput_self _ _ _ _

theorem getSe_setSe_ne (s : State) (e j : Nat) (x : Se) (h : j ≠ e) : getSe (setSe s e x) j = getSe s j :=
  mget_mput_ne _ _ _ _ _ h

@[simp] theorem setSe_setSe (s : State) (e : Nat) (x y : Se) : setSe (setSe s e x) e y = setSe s e y := by
  simp [setSe]

@[simp] theorem getDom_setDom (s : State) (d : Nat) (x : Dom) : getDom (setDom s d x) d = x := mget_mput_self _ _ _ _

theorem getDom_setDom_ne (s : State) (d j : Nat) (x : Dom) (h : j ≠ d) : getDom (setDom s d x) j = getDom s j :=
  mget_mput_ne _ _ _ _ _ h

@[simp] theorem setDom_setDom (s : State) (d : Nat) (x y : Dom) : setDom (setDom s d x) d y = setDom s d y := by
  simp [setDom]

@[simp] theorem getQ_setQ (s : State) (q : Nat) (x : CmdQ) : getQ (setQ s q x) q = x := mget_mput_self _ _ _ _

theorem getQ_setQ_ne (s : State) (q j : Nat) (x : CmdQ) (h : j ≠ q) : getQ (setQ s q x) j = getQ s j :=
  mget_mput_ne _ _ _ _ _ h

@[simp] theorem setQ_setQ (s : State) (q : Nat) (x y : CmdQ) : setQ (setQ s q x) q y = setQ s q y := by
  simp [setQ]

@[simp] theorem getMbx_setMbx (s : State) (n : Nat) (x : Mbx) : getMbx (setMbx s n x) n = x := mget_mput_self _ _ _ _

theorem getMbx_setMbx_ne (s : State) (n j : Nat) (x : Mbx) (h : j ≠ n) : getMbx (setMbx s n x) j = getMbx s j :=
  mget_mput_ne _ _ _ _ _ h

@[simp] theorem setMbx_setMbx (s : State) (n : Nat) (x y : Mbx) : setMbx (setMbx s n x) n y = setMbx s n y := by
  simp [setMbx]

@[simp] theorem getSpan_setSpan (s : State) (p : Nat) (x : SpanPort) : getSpan (setSpan s p x) p = x := mget_mput_self _ _ _ _

theorem getSpan_setSpan_ne (s : State) (p j : Nat) (x : SpanPort) (h : j ≠ p) : getSpan (setSpan s p x) j = getSpan s j :=
  mget_mput_ne _ _ _ _ _ h

@[simp] theorem setSpan_setSpan (s : State) (p : Nat) (x y : SpanPort) : setSpan (setSpan s p x) p y = setSpan s p y := by
  simp [setSpan]

/-! ## The other fields -/

@[simp] theorem setCore_pending (s : State) (u : Nat) (x : Core) : (setCore s u x).pending = s.pending := rfl
@[simp] theorem setCore_free (s : State) (u : Nat) (x : Core) : (setCore s u x).free = s.free := rfl
@[simp] theorem setCore_now (s : State) (u : Nat) (x : Core) : (setCore s u x).now = s.now := rfl
@[simp] theorem setCore_tick (s : State) (u : Nat) (x : Core) : (setCore s u x).tick = s.tick := rfl
@[simp] theorem setCore_fields (s : State) (u : Nat) (x : Core) : (setCore s u x).fields = s.fields := rfl
@[simp] theorem setCore_crossings (s : State) (u : Nat) (x : Core) : (setCore s u x).crossings = s.crossings := rfl
@[simp] theorem setCore_polders (s : State) (u : Nat) (x : Core) : (setCore s u x).polders = s.polders := rfl
@[simp] theorem setCore_ctxs (s : State) (u : Nat) (x : Core) : (setCore s u x).ctxs = s.ctxs := rfl
@[simp] theorem setCore_seeds (s : State) (u : Nat) (x : Core) : (setCore s u x).seeds = s.seeds := rfl
@[simp] theorem setCore_sfus (s : State) (u : Nat) (x : Core) : (setCore s u x).sfus = s.sfus := rfl
@[simp] theorem setCore_mus (s : State) (u : Nat) (x : Core) : (setCore s u x).mus = s.mus := rfl
@[simp] theorem setCore_switches (s : State) (u : Nat) (x : Core) : (setCore s u x).switches = s.switches := rfl
@[simp] theorem setCore_routers (s : State) (u : Nat) (x : Core) : (setCore s u x).routers = s.routers := rfl
@[simp] theorem setCore_mifs (s : State) (u : Nat) (x : Core) : (setCore s u x).mifs = s.mifs := rfl
@[simp] theorem setCore_flights (s : State) (u : Nat) (x : Core) : (setCore s u x).flights = s.flights := rfl
@[simp] theorem setCore_mcRows (s : State) (u : Nat) (x : Core) : (setCore s u x).mcRows = s.mcRows := rfl
@[simp] theorem setCore_epoch (s : State) (u : Nat) (x : Core) : (setCore s u x).epoch = s.epoch := rfl
@[simp] theorem setCore_mgcGroups (s : State) (u : Nat) (x : Core) : (setCore s u x).mgcGroups = s.mgcGroups := rfl
@[simp] theorem setCore_objs (s : State) (u : Nat) (x : Core) : (setCore s u x).objs = s.objs := rfl
@[simp] theorem setCore_dram (s : State) (u : Nat) (x : Core) : (setCore s u x).dram = s.dram := rfl
@[simp] theorem setCore_badGranules (s : State) (u : Nat) (x : Core) : (setCore s u x).badGranules = s.badGranules := rfl
@[simp] theorem setCore_ilv (s : State) (u : Nat) (x : Core) : (setCore s u x).ilv = s.ilv := rfl
@[simp] theorem setCore_stackBits (s : State) (u : Nat) (x : Core) : (setCore s u x).stackBits = s.stackBits := rfl
@[simp] theorem setCore_tlbBusy (s : State) (u : Nat) (x : Core) : (setCore s u x).tlbBusy = s.tlbBusy := rfl
@[simp] theorem setCore_mecs (s : State) (u : Nat) (x : Core) : (setCore s u x).mecs = s.mecs := rfl
@[simp] theorem setCore_ses (s : State) (u : Nat) (x : Core) : (setCore s u x).ses = s.ses := rfl
@[simp] theorem setCore_ring (s : State) (u : Nat) (x : Core) : (setCore s u x).ring = s.ring := rfl
@[simp] theorem setCore_conf (s : State) (u : Nat) (x : Core) : (setCore s u x).conf = s.conf := rfl
@[simp] theorem setCore_host (s : State) (u : Nat) (x : Core) : (setCore s u x).host = s.host := rfl
@[simp] theorem setCore_span (s : State) (u : Nat) (x : Core) : (setCore s u x).span = s.span := rfl
@[simp] theorem setCore_power (s : State) (u : Nat) (x : Core) : (setCore s u x).power = s.power := rfl
@[simp] theorem setCore_boot (s : State) (u : Nat) (x : Core) : (setCore s u x).boot = s.boot := rfl
@[simp] theorem setCore_sec (s : State) (u : Nat) (x : Core) : (setCore s u x).sec = s.sec := rfl
@[simp] theorem setCore_dbg (s : State) (u : Nat) (x : Core) : (setCore s u x).dbg = s.dbg := rfl

@[simp] theorem setSfu_pending (s : State) (u : Nat) (x : Sfu) : (setSfu s u x).pending = s.pending := rfl
@[simp] theorem setSfu_free (s : State) (u : Nat) (x : Sfu) : (setSfu s u x).free = s.free := rfl
@[simp] theorem setSfu_now (s : State) (u : Nat) (x : Sfu) : (setSfu s u x).now = s.now := rfl
@[simp] theorem setSfu_tick (s : State) (u : Nat) (x : Sfu) : (setSfu s u x).tick = s.tick := rfl
@[simp] theorem setSfu_fields (s : State) (u : Nat) (x : Sfu) : (setSfu s u x).fields = s.fields := rfl
@[simp] theorem setSfu_crossings (s : State) (u : Nat) (x : Sfu) : (setSfu s u x).crossings = s.crossings := rfl
@[simp] theorem setSfu_polders (s : State) (u : Nat) (x : Sfu) : (setSfu s u x).polders = s.polders := rfl
@[simp] theorem setSfu_ctxs (s : State) (u : Nat) (x : Sfu) : (setSfu s u x).ctxs = s.ctxs := rfl
@[simp] theorem setSfu_seeds (s : State) (u : Nat) (x : Sfu) : (setSfu s u x).seeds = s.seeds := rfl
@[simp] theorem setSfu_cores (s : State) (u : Nat) (x : Sfu) : (setSfu s u x).cores = s.cores := rfl
@[simp] theorem setSfu_mus (s : State) (u : Nat) (x : Sfu) : (setSfu s u x).mus = s.mus := rfl
@[simp] theorem setSfu_switches (s : State) (u : Nat) (x : Sfu) : (setSfu s u x).switches = s.switches := rfl
@[simp] theorem setSfu_routers (s : State) (u : Nat) (x : Sfu) : (setSfu s u x).routers = s.routers := rfl
@[simp] theorem setSfu_mifs (s : State) (u : Nat) (x : Sfu) : (setSfu s u x).mifs = s.mifs := rfl
@[simp] theorem setSfu_flights (s : State) (u : Nat) (x : Sfu) : (setSfu s u x).flights = s.flights := rfl
@[simp] theorem setSfu_mcRows (s : State) (u : Nat) (x : Sfu) : (setSfu s u x).mcRows = s.mcRows := rfl
@[simp] theorem setSfu_epoch (s : State) (u : Nat) (x : Sfu) : (setSfu s u x).epoch = s.epoch := rfl
@[simp] theorem setSfu_mgcGroups (s : State) (u : Nat) (x : Sfu) : (setSfu s u x).mgcGroups = s.mgcGroups := rfl
@[simp] theorem setSfu_objs (s : State) (u : Nat) (x : Sfu) : (setSfu s u x).objs = s.objs := rfl
@[simp] theorem setSfu_dram (s : State) (u : Nat) (x : Sfu) : (setSfu s u x).dram = s.dram := rfl
@[simp] theorem setSfu_badGranules (s : State) (u : Nat) (x : Sfu) : (setSfu s u x).badGranules = s.badGranules := rfl
@[simp] theorem setSfu_ilv (s : State) (u : Nat) (x : Sfu) : (setSfu s u x).ilv = s.ilv := rfl
@[simp] theorem setSfu_stackBits (s : State) (u : Nat) (x : Sfu) : (setSfu s u x).stackBits = s.stackBits := rfl
@[simp] theorem setSfu_tlbBusy (s : State) (u : Nat) (x : Sfu) : (setSfu s u x).tlbBusy = s.tlbBusy := rfl
@[simp] theorem setSfu_mecs (s : State) (u : Nat) (x : Sfu) : (setSfu s u x).mecs = s.mecs := rfl
@[simp] theorem setSfu_ses (s : State) (u : Nat) (x : Sfu) : (setSfu s u x).ses = s.ses := rfl
@[simp] theorem setSfu_ring (s : State) (u : Nat) (x : Sfu) : (setSfu s u x).ring = s.ring := rfl
@[simp] theorem setSfu_conf (s : State) (u : Nat) (x : Sfu) : (setSfu s u x).conf = s.conf := rfl
@[simp] theorem setSfu_host (s : State) (u : Nat) (x : Sfu) : (setSfu s u x).host = s.host := rfl
@[simp] theorem setSfu_span (s : State) (u : Nat) (x : Sfu) : (setSfu s u x).span = s.span := rfl
@[simp] theorem setSfu_power (s : State) (u : Nat) (x : Sfu) : (setSfu s u x).power = s.power := rfl
@[simp] theorem setSfu_boot (s : State) (u : Nat) (x : Sfu) : (setSfu s u x).boot = s.boot := rfl
@[simp] theorem setSfu_sec (s : State) (u : Nat) (x : Sfu) : (setSfu s u x).sec = s.sec := rfl
@[simp] theorem setSfu_dbg (s : State) (u : Nat) (x : Sfu) : (setSfu s u x).dbg = s.dbg := rfl

@[simp] theorem setMu_pending (s : State) (u : Nat) (x : Mu) : (setMu s u x).pending = s.pending := rfl
@[simp] theorem setMu_free (s : State) (u : Nat) (x : Mu) : (setMu s u x).free = s.free := rfl
@[simp] theorem setMu_now (s : State) (u : Nat) (x : Mu) : (setMu s u x).now = s.now := rfl
@[simp] theorem setMu_tick (s : State) (u : Nat) (x : Mu) : (setMu s u x).tick = s.tick := rfl
@[simp] theorem setMu_fields (s : State) (u : Nat) (x : Mu) : (setMu s u x).fields = s.fields := rfl
@[simp] theorem setMu_crossings (s : State) (u : Nat) (x : Mu) : (setMu s u x).crossings = s.crossings := rfl
@[simp] theorem setMu_polders (s : State) (u : Nat) (x : Mu) : (setMu s u x).polders = s.polders := rfl
@[simp] theorem setMu_ctxs (s : State) (u : Nat) (x : Mu) : (setMu s u x).ctxs = s.ctxs := rfl
@[simp] theorem setMu_seeds (s : State) (u : Nat) (x : Mu) : (setMu s u x).seeds = s.seeds := rfl
@[simp] theorem setMu_cores (s : State) (u : Nat) (x : Mu) : (setMu s u x).cores = s.cores := rfl
@[simp] theorem setMu_sfus (s : State) (u : Nat) (x : Mu) : (setMu s u x).sfus = s.sfus := rfl
@[simp] theorem setMu_switches (s : State) (u : Nat) (x : Mu) : (setMu s u x).switches = s.switches := rfl
@[simp] theorem setMu_routers (s : State) (u : Nat) (x : Mu) : (setMu s u x).routers = s.routers := rfl
@[simp] theorem setMu_mifs (s : State) (u : Nat) (x : Mu) : (setMu s u x).mifs = s.mifs := rfl
@[simp] theorem setMu_flights (s : State) (u : Nat) (x : Mu) : (setMu s u x).flights = s.flights := rfl
@[simp] theorem setMu_mcRows (s : State) (u : Nat) (x : Mu) : (setMu s u x).mcRows = s.mcRows := rfl
@[simp] theorem setMu_epoch (s : State) (u : Nat) (x : Mu) : (setMu s u x).epoch = s.epoch := rfl
@[simp] theorem setMu_mgcGroups (s : State) (u : Nat) (x : Mu) : (setMu s u x).mgcGroups = s.mgcGroups := rfl
@[simp] theorem setMu_objs (s : State) (u : Nat) (x : Mu) : (setMu s u x).objs = s.objs := rfl
@[simp] theorem setMu_dram (s : State) (u : Nat) (x : Mu) : (setMu s u x).dram = s.dram := rfl
@[simp] theorem setMu_badGranules (s : State) (u : Nat) (x : Mu) : (setMu s u x).badGranules = s.badGranules := rfl
@[simp] theorem setMu_ilv (s : State) (u : Nat) (x : Mu) : (setMu s u x).ilv = s.ilv := rfl
@[simp] theorem setMu_stackBits (s : State) (u : Nat) (x : Mu) : (setMu s u x).stackBits = s.stackBits := rfl
@[simp] theorem setMu_tlbBusy (s : State) (u : Nat) (x : Mu) : (setMu s u x).tlbBusy = s.tlbBusy := rfl
@[simp] theorem setMu_mecs (s : State) (u : Nat) (x : Mu) : (setMu s u x).mecs = s.mecs := rfl
@[simp] theorem setMu_ses (s : State) (u : Nat) (x : Mu) : (setMu s u x).ses = s.ses := rfl
@[simp] theorem setMu_ring (s : State) (u : Nat) (x : Mu) : (setMu s u x).ring = s.ring := rfl
@[simp] theorem setMu_conf (s : State) (u : Nat) (x : Mu) : (setMu s u x).conf = s.conf := rfl
@[simp] theorem setMu_host (s : State) (u : Nat) (x : Mu) : (setMu s u x).host = s.host := rfl
@[simp] theorem setMu_span (s : State) (u : Nat) (x : Mu) : (setMu s u x).span = s.span := rfl
@[simp] theorem setMu_power (s : State) (u : Nat) (x : Mu) : (setMu s u x).power = s.power := rfl
@[simp] theorem setMu_boot (s : State) (u : Nat) (x : Mu) : (setMu s u x).boot = s.boot := rfl
@[simp] theorem setMu_sec (s : State) (u : Nat) (x : Mu) : (setMu s u x).sec = s.sec := rfl
@[simp] theorem setMu_dbg (s : State) (u : Nat) (x : Mu) : (setMu s u x).dbg = s.dbg := rfl

@[simp] theorem setSw_pending (s : State) (u : Nat) (x : Switch) : (setSw s u x).pending = s.pending := rfl
@[simp] theorem setSw_free (s : State) (u : Nat) (x : Switch) : (setSw s u x).free = s.free := rfl
@[simp] theorem setSw_now (s : State) (u : Nat) (x : Switch) : (setSw s u x).now = s.now := rfl
@[simp] theorem setSw_tick (s : State) (u : Nat) (x : Switch) : (setSw s u x).tick = s.tick := rfl
@[simp] theorem setSw_fields (s : State) (u : Nat) (x : Switch) : (setSw s u x).fields = s.fields := rfl
@[simp] theorem setSw_crossings (s : State) (u : Nat) (x : Switch) : (setSw s u x).crossings = s.crossings := rfl
@[simp] theorem setSw_polders (s : State) (u : Nat) (x : Switch) : (setSw s u x).polders = s.polders := rfl
@[simp] theorem setSw_ctxs (s : State) (u : Nat) (x : Switch) : (setSw s u x).ctxs = s.ctxs := rfl
@[simp] theorem setSw_seeds (s : State) (u : Nat) (x : Switch) : (setSw s u x).seeds = s.seeds := rfl
@[simp] theorem setSw_cores (s : State) (u : Nat) (x : Switch) : (setSw s u x).cores = s.cores := rfl
@[simp] theorem setSw_sfus (s : State) (u : Nat) (x : Switch) : (setSw s u x).sfus = s.sfus := rfl
@[simp] theorem setSw_mus (s : State) (u : Nat) (x : Switch) : (setSw s u x).mus = s.mus := rfl
@[simp] theorem setSw_routers (s : State) (u : Nat) (x : Switch) : (setSw s u x).routers = s.routers := rfl
@[simp] theorem setSw_mifs (s : State) (u : Nat) (x : Switch) : (setSw s u x).mifs = s.mifs := rfl
@[simp] theorem setSw_flights (s : State) (u : Nat) (x : Switch) : (setSw s u x).flights = s.flights := rfl
@[simp] theorem setSw_mcRows (s : State) (u : Nat) (x : Switch) : (setSw s u x).mcRows = s.mcRows := rfl
@[simp] theorem setSw_epoch (s : State) (u : Nat) (x : Switch) : (setSw s u x).epoch = s.epoch := rfl
@[simp] theorem setSw_mgcGroups (s : State) (u : Nat) (x : Switch) : (setSw s u x).mgcGroups = s.mgcGroups := rfl
@[simp] theorem setSw_objs (s : State) (u : Nat) (x : Switch) : (setSw s u x).objs = s.objs := rfl
@[simp] theorem setSw_dram (s : State) (u : Nat) (x : Switch) : (setSw s u x).dram = s.dram := rfl
@[simp] theorem setSw_badGranules (s : State) (u : Nat) (x : Switch) : (setSw s u x).badGranules = s.badGranules := rfl
@[simp] theorem setSw_ilv (s : State) (u : Nat) (x : Switch) : (setSw s u x).ilv = s.ilv := rfl
@[simp] theorem setSw_stackBits (s : State) (u : Nat) (x : Switch) : (setSw s u x).stackBits = s.stackBits := rfl
@[simp] theorem setSw_tlbBusy (s : State) (u : Nat) (x : Switch) : (setSw s u x).tlbBusy = s.tlbBusy := rfl
@[simp] theorem setSw_mecs (s : State) (u : Nat) (x : Switch) : (setSw s u x).mecs = s.mecs := rfl
@[simp] theorem setSw_ses (s : State) (u : Nat) (x : Switch) : (setSw s u x).ses = s.ses := rfl
@[simp] theorem setSw_ring (s : State) (u : Nat) (x : Switch) : (setSw s u x).ring = s.ring := rfl
@[simp] theorem setSw_conf (s : State) (u : Nat) (x : Switch) : (setSw s u x).conf = s.conf := rfl
@[simp] theorem setSw_host (s : State) (u : Nat) (x : Switch) : (setSw s u x).host = s.host := rfl
@[simp] theorem setSw_span (s : State) (u : Nat) (x : Switch) : (setSw s u x).span = s.span := rfl
@[simp] theorem setSw_power (s : State) (u : Nat) (x : Switch) : (setSw s u x).power = s.power := rfl
@[simp] theorem setSw_boot (s : State) (u : Nat) (x : Switch) : (setSw s u x).boot = s.boot := rfl
@[simp] theorem setSw_sec (s : State) (u : Nat) (x : Switch) : (setSw s u x).sec = s.sec := rfl
@[simp] theorem setSw_dbg (s : State) (u : Nat) (x : Switch) : (setSw s u x).dbg = s.dbg := rfl

@[simp] theorem setRouter_pending (s : State) (u : Nat) (x : Router) : (setRouter s u x).pending = s.pending := rfl
@[simp] theorem setRouter_free (s : State) (u : Nat) (x : Router) : (setRouter s u x).free = s.free := rfl
@[simp] theorem setRouter_now (s : State) (u : Nat) (x : Router) : (setRouter s u x).now = s.now := rfl
@[simp] theorem setRouter_tick (s : State) (u : Nat) (x : Router) : (setRouter s u x).tick = s.tick := rfl
@[simp] theorem setRouter_fields (s : State) (u : Nat) (x : Router) : (setRouter s u x).fields = s.fields := rfl
@[simp] theorem setRouter_crossings (s : State) (u : Nat) (x : Router) : (setRouter s u x).crossings = s.crossings := rfl
@[simp] theorem setRouter_polders (s : State) (u : Nat) (x : Router) : (setRouter s u x).polders = s.polders := rfl
@[simp] theorem setRouter_ctxs (s : State) (u : Nat) (x : Router) : (setRouter s u x).ctxs = s.ctxs := rfl
@[simp] theorem setRouter_seeds (s : State) (u : Nat) (x : Router) : (setRouter s u x).seeds = s.seeds := rfl
@[simp] theorem setRouter_cores (s : State) (u : Nat) (x : Router) : (setRouter s u x).cores = s.cores := rfl
@[simp] theorem setRouter_sfus (s : State) (u : Nat) (x : Router) : (setRouter s u x).sfus = s.sfus := rfl
@[simp] theorem setRouter_mus (s : State) (u : Nat) (x : Router) : (setRouter s u x).mus = s.mus := rfl
@[simp] theorem setRouter_switches (s : State) (u : Nat) (x : Router) : (setRouter s u x).switches = s.switches := rfl
@[simp] theorem setRouter_mifs (s : State) (u : Nat) (x : Router) : (setRouter s u x).mifs = s.mifs := rfl
@[simp] theorem setRouter_flights (s : State) (u : Nat) (x : Router) : (setRouter s u x).flights = s.flights := rfl
@[simp] theorem setRouter_mcRows (s : State) (u : Nat) (x : Router) : (setRouter s u x).mcRows = s.mcRows := rfl
@[simp] theorem setRouter_epoch (s : State) (u : Nat) (x : Router) : (setRouter s u x).epoch = s.epoch := rfl
@[simp] theorem setRouter_mgcGroups (s : State) (u : Nat) (x : Router) : (setRouter s u x).mgcGroups = s.mgcGroups := rfl
@[simp] theorem setRouter_objs (s : State) (u : Nat) (x : Router) : (setRouter s u x).objs = s.objs := rfl
@[simp] theorem setRouter_dram (s : State) (u : Nat) (x : Router) : (setRouter s u x).dram = s.dram := rfl
@[simp] theorem setRouter_badGranules (s : State) (u : Nat) (x : Router) : (setRouter s u x).badGranules = s.badGranules := rfl
@[simp] theorem setRouter_ilv (s : State) (u : Nat) (x : Router) : (setRouter s u x).ilv = s.ilv := rfl
@[simp] theorem setRouter_stackBits (s : State) (u : Nat) (x : Router) : (setRouter s u x).stackBits = s.stackBits := rfl
@[simp] theorem setRouter_tlbBusy (s : State) (u : Nat) (x : Router) : (setRouter s u x).tlbBusy = s.tlbBusy := rfl
@[simp] theorem setRouter_mecs (s : State) (u : Nat) (x : Router) : (setRouter s u x).mecs = s.mecs := rfl
@[simp] theorem setRouter_ses (s : State) (u : Nat) (x : Router) : (setRouter s u x).ses = s.ses := rfl
@[simp] theorem setRouter_ring (s : State) (u : Nat) (x : Router) : (setRouter s u x).ring = s.ring := rfl
@[simp] theorem setRouter_conf (s : State) (u : Nat) (x : Router) : (setRouter s u x).conf = s.conf := rfl
@[simp] theorem setRouter_host (s : State) (u : Nat) (x : Router) : (setRouter s u x).host = s.host := rfl
@[simp] theorem setRouter_span (s : State) (u : Nat) (x : Router) : (setRouter s u x).span = s.span := rfl
@[simp] theorem setRouter_power (s : State) (u : Nat) (x : Router) : (setRouter s u x).power = s.power := rfl
@[simp] theorem setRouter_boot (s : State) (u : Nat) (x : Router) : (setRouter s u x).boot = s.boot := rfl
@[simp] theorem setRouter_sec (s : State) (u : Nat) (x : Router) : (setRouter s u x).sec = s.sec := rfl
@[simp] theorem setRouter_dbg (s : State) (u : Nat) (x : Router) : (setRouter s u x).dbg = s.dbg := rfl

@[simp] theorem setMif_pending (s : State) (u : Nat) (x : MeshIf) : (setMif s u x).pending = s.pending := rfl
@[simp] theorem setMif_free (s : State) (u : Nat) (x : MeshIf) : (setMif s u x).free = s.free := rfl
@[simp] theorem setMif_now (s : State) (u : Nat) (x : MeshIf) : (setMif s u x).now = s.now := rfl
@[simp] theorem setMif_tick (s : State) (u : Nat) (x : MeshIf) : (setMif s u x).tick = s.tick := rfl
@[simp] theorem setMif_fields (s : State) (u : Nat) (x : MeshIf) : (setMif s u x).fields = s.fields := rfl
@[simp] theorem setMif_crossings (s : State) (u : Nat) (x : MeshIf) : (setMif s u x).crossings = s.crossings := rfl
@[simp] theorem setMif_polders (s : State) (u : Nat) (x : MeshIf) : (setMif s u x).polders = s.polders := rfl
@[simp] theorem setMif_ctxs (s : State) (u : Nat) (x : MeshIf) : (setMif s u x).ctxs = s.ctxs := rfl
@[simp] theorem setMif_seeds (s : State) (u : Nat) (x : MeshIf) : (setMif s u x).seeds = s.seeds := rfl
@[simp] theorem setMif_cores (s : State) (u : Nat) (x : MeshIf) : (setMif s u x).cores = s.cores := rfl
@[simp] theorem setMif_sfus (s : State) (u : Nat) (x : MeshIf) : (setMif s u x).sfus = s.sfus := rfl
@[simp] theorem setMif_mus (s : State) (u : Nat) (x : MeshIf) : (setMif s u x).mus = s.mus := rfl
@[simp] theorem setMif_switches (s : State) (u : Nat) (x : MeshIf) : (setMif s u x).switches = s.switches := rfl
@[simp] theorem setMif_routers (s : State) (u : Nat) (x : MeshIf) : (setMif s u x).routers = s.routers := rfl
@[simp] theorem setMif_flights (s : State) (u : Nat) (x : MeshIf) : (setMif s u x).flights = s.flights := rfl
@[simp] theorem setMif_mcRows (s : State) (u : Nat) (x : MeshIf) : (setMif s u x).mcRows = s.mcRows := rfl
@[simp] theorem setMif_epoch (s : State) (u : Nat) (x : MeshIf) : (setMif s u x).epoch = s.epoch := rfl
@[simp] theorem setMif_mgcGroups (s : State) (u : Nat) (x : MeshIf) : (setMif s u x).mgcGroups = s.mgcGroups := rfl
@[simp] theorem setMif_objs (s : State) (u : Nat) (x : MeshIf) : (setMif s u x).objs = s.objs := rfl
@[simp] theorem setMif_dram (s : State) (u : Nat) (x : MeshIf) : (setMif s u x).dram = s.dram := rfl
@[simp] theorem setMif_badGranules (s : State) (u : Nat) (x : MeshIf) : (setMif s u x).badGranules = s.badGranules := rfl
@[simp] theorem setMif_ilv (s : State) (u : Nat) (x : MeshIf) : (setMif s u x).ilv = s.ilv := rfl
@[simp] theorem setMif_stackBits (s : State) (u : Nat) (x : MeshIf) : (setMif s u x).stackBits = s.stackBits := rfl
@[simp] theorem setMif_tlbBusy (s : State) (u : Nat) (x : MeshIf) : (setMif s u x).tlbBusy = s.tlbBusy := rfl
@[simp] theorem setMif_mecs (s : State) (u : Nat) (x : MeshIf) : (setMif s u x).mecs = s.mecs := rfl
@[simp] theorem setMif_ses (s : State) (u : Nat) (x : MeshIf) : (setMif s u x).ses = s.ses := rfl
@[simp] theorem setMif_ring (s : State) (u : Nat) (x : MeshIf) : (setMif s u x).ring = s.ring := rfl
@[simp] theorem setMif_conf (s : State) (u : Nat) (x : MeshIf) : (setMif s u x).conf = s.conf := rfl
@[simp] theorem setMif_host (s : State) (u : Nat) (x : MeshIf) : (setMif s u x).host = s.host := rfl
@[simp] theorem setMif_span (s : State) (u : Nat) (x : MeshIf) : (setMif s u x).span = s.span := rfl
@[simp] theorem setMif_power (s : State) (u : Nat) (x : MeshIf) : (setMif s u x).power = s.power := rfl
@[simp] theorem setMif_boot (s : State) (u : Nat) (x : MeshIf) : (setMif s u x).boot = s.boot := rfl
@[simp] theorem setMif_sec (s : State) (u : Nat) (x : MeshIf) : (setMif s u x).sec = s.sec := rfl
@[simp] theorem setMif_dbg (s : State) (u : Nat) (x : MeshIf) : (setMif s u x).dbg = s.dbg := rfl

@[simp] theorem setField_pending (s : State) (f : Nat) (x : Field) : (setField s f x).pending = s.pending := rfl
@[simp] theorem setField_free (s : State) (f : Nat) (x : Field) : (setField s f x).free = s.free := rfl
@[simp] theorem setField_now (s : State) (f : Nat) (x : Field) : (setField s f x).now = s.now := rfl
@[simp] theorem setField_tick (s : State) (f : Nat) (x : Field) : (setField s f x).tick = s.tick := rfl
@[simp] theorem setField_crossings (s : State) (f : Nat) (x : Field) : (setField s f x).crossings = s.crossings := rfl
@[simp] theorem setField_polders (s : State) (f : Nat) (x : Field) : (setField s f x).polders = s.polders := rfl
@[simp] theorem setField_ctxs (s : State) (f : Nat) (x : Field) : (setField s f x).ctxs = s.ctxs := rfl
@[simp] theorem setField_seeds (s : State) (f : Nat) (x : Field) : (setField s f x).seeds = s.seeds := rfl
@[simp] theorem setField_cores (s : State) (f : Nat) (x : Field) : (setField s f x).cores = s.cores := rfl
@[simp] theorem setField_sfus (s : State) (f : Nat) (x : Field) : (setField s f x).sfus = s.sfus := rfl
@[simp] theorem setField_mus (s : State) (f : Nat) (x : Field) : (setField s f x).mus = s.mus := rfl
@[simp] theorem setField_switches (s : State) (f : Nat) (x : Field) : (setField s f x).switches = s.switches := rfl
@[simp] theorem setField_routers (s : State) (f : Nat) (x : Field) : (setField s f x).routers = s.routers := rfl
@[simp] theorem setField_mifs (s : State) (f : Nat) (x : Field) : (setField s f x).mifs = s.mifs := rfl
@[simp] theorem setField_flights (s : State) (f : Nat) (x : Field) : (setField s f x).flights = s.flights := rfl
@[simp] theorem setField_mcRows (s : State) (f : Nat) (x : Field) : (setField s f x).mcRows = s.mcRows := rfl
@[simp] theorem setField_epoch (s : State) (f : Nat) (x : Field) : (setField s f x).epoch = s.epoch := rfl
@[simp] theorem setField_mgcGroups (s : State) (f : Nat) (x : Field) : (setField s f x).mgcGroups = s.mgcGroups := rfl
@[simp] theorem setField_objs (s : State) (f : Nat) (x : Field) : (setField s f x).objs = s.objs := rfl
@[simp] theorem setField_dram (s : State) (f : Nat) (x : Field) : (setField s f x).dram = s.dram := rfl
@[simp] theorem setField_badGranules (s : State) (f : Nat) (x : Field) : (setField s f x).badGranules = s.badGranules := rfl
@[simp] theorem setField_ilv (s : State) (f : Nat) (x : Field) : (setField s f x).ilv = s.ilv := rfl
@[simp] theorem setField_stackBits (s : State) (f : Nat) (x : Field) : (setField s f x).stackBits = s.stackBits := rfl
@[simp] theorem setField_tlbBusy (s : State) (f : Nat) (x : Field) : (setField s f x).tlbBusy = s.tlbBusy := rfl
@[simp] theorem setField_mecs (s : State) (f : Nat) (x : Field) : (setField s f x).mecs = s.mecs := rfl
@[simp] theorem setField_ses (s : State) (f : Nat) (x : Field) : (setField s f x).ses = s.ses := rfl
@[simp] theorem setField_ring (s : State) (f : Nat) (x : Field) : (setField s f x).ring = s.ring := rfl
@[simp] theorem setField_conf (s : State) (f : Nat) (x : Field) : (setField s f x).conf = s.conf := rfl
@[simp] theorem setField_host (s : State) (f : Nat) (x : Field) : (setField s f x).host = s.host := rfl
@[simp] theorem setField_span (s : State) (f : Nat) (x : Field) : (setField s f x).span = s.span := rfl
@[simp] theorem setField_power (s : State) (f : Nat) (x : Field) : (setField s f x).power = s.power := rfl
@[simp] theorem setField_boot (s : State) (f : Nat) (x : Field) : (setField s f x).boot = s.boot := rfl
@[simp] theorem setField_sec (s : State) (f : Nat) (x : Field) : (setField s f x).sec = s.sec := rfl
@[simp] theorem setField_dbg (s : State) (f : Nat) (x : Field) : (setField s f x).dbg = s.dbg := rfl

@[simp] theorem setPolder_pending (s : State) (p : Nat) (x : Polder) : (setPolder s p x).pending = s.pending := rfl
@[simp] theorem setPolder_free (s : State) (p : Nat) (x : Polder) : (setPolder s p x).free = s.free := rfl
@[simp] theorem setPolder_now (s : State) (p : Nat) (x : Polder) : (setPolder s p x).now = s.now := rfl
@[simp] theorem setPolder_tick (s : State) (p : Nat) (x : Polder) : (setPolder s p x).tick = s.tick := rfl
@[simp] theorem setPolder_fields (s : State) (p : Nat) (x : Polder) : (setPolder s p x).fields = s.fields := rfl
@[simp] theorem setPolder_crossings (s : State) (p : Nat) (x : Polder) : (setPolder s p x).crossings = s.crossings := rfl
@[simp] theorem setPolder_ctxs (s : State) (p : Nat) (x : Polder) : (setPolder s p x).ctxs = s.ctxs := rfl
@[simp] theorem setPolder_seeds (s : State) (p : Nat) (x : Polder) : (setPolder s p x).seeds = s.seeds := rfl
@[simp] theorem setPolder_cores (s : State) (p : Nat) (x : Polder) : (setPolder s p x).cores = s.cores := rfl
@[simp] theorem setPolder_sfus (s : State) (p : Nat) (x : Polder) : (setPolder s p x).sfus = s.sfus := rfl
@[simp] theorem setPolder_mus (s : State) (p : Nat) (x : Polder) : (setPolder s p x).mus = s.mus := rfl
@[simp] theorem setPolder_switches (s : State) (p : Nat) (x : Polder) : (setPolder s p x).switches = s.switches := rfl
@[simp] theorem setPolder_routers (s : State) (p : Nat) (x : Polder) : (setPolder s p x).routers = s.routers := rfl
@[simp] theorem setPolder_mifs (s : State) (p : Nat) (x : Polder) : (setPolder s p x).mifs = s.mifs := rfl
@[simp] theorem setPolder_flights (s : State) (p : Nat) (x : Polder) : (setPolder s p x).flights = s.flights := rfl
@[simp] theorem setPolder_mcRows (s : State) (p : Nat) (x : Polder) : (setPolder s p x).mcRows = s.mcRows := rfl
@[simp] theorem setPolder_epoch (s : State) (p : Nat) (x : Polder) : (setPolder s p x).epoch = s.epoch := rfl
@[simp] theorem setPolder_mgcGroups (s : State) (p : Nat) (x : Polder) : (setPolder s p x).mgcGroups = s.mgcGroups := rfl
@[simp] theorem setPolder_objs (s : State) (p : Nat) (x : Polder) : (setPolder s p x).objs = s.objs := rfl
@[simp] theorem setPolder_dram (s : State) (p : Nat) (x : Polder) : (setPolder s p x).dram = s.dram := rfl
@[simp] theorem setPolder_badGranules (s : State) (p : Nat) (x : Polder) : (setPolder s p x).badGranules = s.badGranules := rfl
@[simp] theorem setPolder_ilv (s : State) (p : Nat) (x : Polder) : (setPolder s p x).ilv = s.ilv := rfl
@[simp] theorem setPolder_stackBits (s : State) (p : Nat) (x : Polder) : (setPolder s p x).stackBits = s.stackBits := rfl
@[simp] theorem setPolder_tlbBusy (s : State) (p : Nat) (x : Polder) : (setPolder s p x).tlbBusy = s.tlbBusy := rfl
@[simp] theorem setPolder_mecs (s : State) (p : Nat) (x : Polder) : (setPolder s p x).mecs = s.mecs := rfl
@[simp] theorem setPolder_ses (s : State) (p : Nat) (x : Polder) : (setPolder s p x).ses = s.ses := rfl
@[simp] theorem setPolder_ring (s : State) (p : Nat) (x : Polder) : (setPolder s p x).ring = s.ring := rfl
@[simp] theorem setPolder_conf (s : State) (p : Nat) (x : Polder) : (setPolder s p x).conf = s.conf := rfl
@[simp] theorem setPolder_host (s : State) (p : Nat) (x : Polder) : (setPolder s p x).host = s.host := rfl
@[simp] theorem setPolder_span (s : State) (p : Nat) (x : Polder) : (setPolder s p x).span = s.span := rfl
@[simp] theorem setPolder_power (s : State) (p : Nat) (x : Polder) : (setPolder s p x).power = s.power := rfl
@[simp] theorem setPolder_boot (s : State) (p : Nat) (x : Polder) : (setPolder s p x).boot = s.boot := rfl
@[simp] theorem setPolder_sec (s : State) (p : Nat) (x : Polder) : (setPolder s p x).sec = s.sec := rfl
@[simp] theorem setPolder_dbg (s : State) (p : Nat) (x : Polder) : (setPolder s p x).dbg = s.dbg := rfl

@[simp] theorem setCtx_pending (s : State) (c : Nat) (x : Ctx) : (setCtx s c x).pending = s.pending := rfl
@[simp] theorem setCtx_free (s : State) (c : Nat) (x : Ctx) : (setCtx s c x).free = s.free := rfl
@[simp] theorem setCtx_now (s : State) (c : Nat) (x : Ctx) : (setCtx s c x).now = s.now := rfl
@[simp] theorem setCtx_tick (s : State) (c : Nat) (x : Ctx) : (setCtx s c x).tick = s.tick := rfl
@[simp] theorem setCtx_fields (s : State) (c : Nat) (x : Ctx) : (setCtx s c x).fields = s.fields := rfl
@[simp] theorem setCtx_crossings (s : State) (c : Nat) (x : Ctx) : (setCtx s c x).crossings = s.crossings := rfl
@[simp] theorem setCtx_polders (s : State) (c : Nat) (x : Ctx) : (setCtx s c x).polders = s.polders := rfl
@[simp] theorem setCtx_seeds (s : State) (c : Nat) (x : Ctx) : (setCtx s c x).seeds = s.seeds := rfl
@[simp] theorem setCtx_cores (s : State) (c : Nat) (x : Ctx) : (setCtx s c x).cores = s.cores := rfl
@[simp] theorem setCtx_sfus (s : State) (c : Nat) (x : Ctx) : (setCtx s c x).sfus = s.sfus := rfl
@[simp] theorem setCtx_mus (s : State) (c : Nat) (x : Ctx) : (setCtx s c x).mus = s.mus := rfl
@[simp] theorem setCtx_switches (s : State) (c : Nat) (x : Ctx) : (setCtx s c x).switches = s.switches := rfl
@[simp] theorem setCtx_routers (s : State) (c : Nat) (x : Ctx) : (setCtx s c x).routers = s.routers := rfl
@[simp] theorem setCtx_mifs (s : State) (c : Nat) (x : Ctx) : (setCtx s c x).mifs = s.mifs := rfl
@[simp] theorem setCtx_flights (s : State) (c : Nat) (x : Ctx) : (setCtx s c x).flights = s.flights := rfl
@[simp] theorem setCtx_mcRows (s : State) (c : Nat) (x : Ctx) : (setCtx s c x).mcRows = s.mcRows := rfl
@[simp] theorem setCtx_epoch (s : State) (c : Nat) (x : Ctx) : (setCtx s c x).epoch = s.epoch := rfl
@[simp] theorem setCtx_mgcGroups (s : State) (c : Nat) (x : Ctx) : (setCtx s c x).mgcGroups = s.mgcGroups := rfl
@[simp] theorem setCtx_objs (s : State) (c : Nat) (x : Ctx) : (setCtx s c x).objs = s.objs := rfl
@[simp] theorem setCtx_dram (s : State) (c : Nat) (x : Ctx) : (setCtx s c x).dram = s.dram := rfl
@[simp] theorem setCtx_badGranules (s : State) (c : Nat) (x : Ctx) : (setCtx s c x).badGranules = s.badGranules := rfl
@[simp] theorem setCtx_ilv (s : State) (c : Nat) (x : Ctx) : (setCtx s c x).ilv = s.ilv := rfl
@[simp] theorem setCtx_stackBits (s : State) (c : Nat) (x : Ctx) : (setCtx s c x).stackBits = s.stackBits := rfl
@[simp] theorem setCtx_tlbBusy (s : State) (c : Nat) (x : Ctx) : (setCtx s c x).tlbBusy = s.tlbBusy := rfl
@[simp] theorem setCtx_mecs (s : State) (c : Nat) (x : Ctx) : (setCtx s c x).mecs = s.mecs := rfl
@[simp] theorem setCtx_ses (s : State) (c : Nat) (x : Ctx) : (setCtx s c x).ses = s.ses := rfl
@[simp] theorem setCtx_ring (s : State) (c : Nat) (x : Ctx) : (setCtx s c x).ring = s.ring := rfl
@[simp] theorem setCtx_conf (s : State) (c : Nat) (x : Ctx) : (setCtx s c x).conf = s.conf := rfl
@[simp] theorem setCtx_host (s : State) (c : Nat) (x : Ctx) : (setCtx s c x).host = s.host := rfl
@[simp] theorem setCtx_span (s : State) (c : Nat) (x : Ctx) : (setCtx s c x).span = s.span := rfl
@[simp] theorem setCtx_power (s : State) (c : Nat) (x : Ctx) : (setCtx s c x).power = s.power := rfl
@[simp] theorem setCtx_boot (s : State) (c : Nat) (x : Ctx) : (setCtx s c x).boot = s.boot := rfl
@[simp] theorem setCtx_sec (s : State) (c : Nat) (x : Ctx) : (setCtx s c x).sec = s.sec := rfl
@[simp] theorem setCtx_dbg (s : State) (c : Nat) (x : Ctx) : (setCtx s c x).dbg = s.dbg := rfl

@[simp] theorem setObj_pending (s : State) (o : Nat) (x : SyncObj) : (setObj s o x).pending = s.pending := rfl
@[simp] theorem setObj_free (s : State) (o : Nat) (x : SyncObj) : (setObj s o x).free = s.free := rfl
@[simp] theorem setObj_now (s : State) (o : Nat) (x : SyncObj) : (setObj s o x).now = s.now := rfl
@[simp] theorem setObj_tick (s : State) (o : Nat) (x : SyncObj) : (setObj s o x).tick = s.tick := rfl
@[simp] theorem setObj_fields (s : State) (o : Nat) (x : SyncObj) : (setObj s o x).fields = s.fields := rfl
@[simp] theorem setObj_crossings (s : State) (o : Nat) (x : SyncObj) : (setObj s o x).crossings = s.crossings := rfl
@[simp] theorem setObj_polders (s : State) (o : Nat) (x : SyncObj) : (setObj s o x).polders = s.polders := rfl
@[simp] theorem setObj_ctxs (s : State) (o : Nat) (x : SyncObj) : (setObj s o x).ctxs = s.ctxs := rfl
@[simp] theorem setObj_seeds (s : State) (o : Nat) (x : SyncObj) : (setObj s o x).seeds = s.seeds := rfl
@[simp] theorem setObj_cores (s : State) (o : Nat) (x : SyncObj) : (setObj s o x).cores = s.cores := rfl
@[simp] theorem setObj_sfus (s : State) (o : Nat) (x : SyncObj) : (setObj s o x).sfus = s.sfus := rfl
@[simp] theorem setObj_mus (s : State) (o : Nat) (x : SyncObj) : (setObj s o x).mus = s.mus := rfl
@[simp] theorem setObj_switches (s : State) (o : Nat) (x : SyncObj) : (setObj s o x).switches = s.switches := rfl
@[simp] theorem setObj_routers (s : State) (o : Nat) (x : SyncObj) : (setObj s o x).routers = s.routers := rfl
@[simp] theorem setObj_mifs (s : State) (o : Nat) (x : SyncObj) : (setObj s o x).mifs = s.mifs := rfl
@[simp] theorem setObj_flights (s : State) (o : Nat) (x : SyncObj) : (setObj s o x).flights = s.flights := rfl
@[simp] theorem setObj_mcRows (s : State) (o : Nat) (x : SyncObj) : (setObj s o x).mcRows = s.mcRows := rfl
@[simp] theorem setObj_epoch (s : State) (o : Nat) (x : SyncObj) : (setObj s o x).epoch = s.epoch := rfl
@[simp] theorem setObj_mgcGroups (s : State) (o : Nat) (x : SyncObj) : (setObj s o x).mgcGroups = s.mgcGroups := rfl
@[simp] theorem setObj_dram (s : State) (o : Nat) (x : SyncObj) : (setObj s o x).dram = s.dram := rfl
@[simp] theorem setObj_badGranules (s : State) (o : Nat) (x : SyncObj) : (setObj s o x).badGranules = s.badGranules := rfl
@[simp] theorem setObj_ilv (s : State) (o : Nat) (x : SyncObj) : (setObj s o x).ilv = s.ilv := rfl
@[simp] theorem setObj_stackBits (s : State) (o : Nat) (x : SyncObj) : (setObj s o x).stackBits = s.stackBits := rfl
@[simp] theorem setObj_tlbBusy (s : State) (o : Nat) (x : SyncObj) : (setObj s o x).tlbBusy = s.tlbBusy := rfl
@[simp] theorem setObj_mecs (s : State) (o : Nat) (x : SyncObj) : (setObj s o x).mecs = s.mecs := rfl
@[simp] theorem setObj_ses (s : State) (o : Nat) (x : SyncObj) : (setObj s o x).ses = s.ses := rfl
@[simp] theorem setObj_ring (s : State) (o : Nat) (x : SyncObj) : (setObj s o x).ring = s.ring := rfl
@[simp] theorem setObj_conf (s : State) (o : Nat) (x : SyncObj) : (setObj s o x).conf = s.conf := rfl
@[simp] theorem setObj_host (s : State) (o : Nat) (x : SyncObj) : (setObj s o x).host = s.host := rfl
@[simp] theorem setObj_span (s : State) (o : Nat) (x : SyncObj) : (setObj s o x).span = s.span := rfl
@[simp] theorem setObj_power (s : State) (o : Nat) (x : SyncObj) : (setObj s o x).power = s.power := rfl
@[simp] theorem setObj_boot (s : State) (o : Nat) (x : SyncObj) : (setObj s o x).boot = s.boot := rfl
@[simp] theorem setObj_sec (s : State) (o : Nat) (x : SyncObj) : (setObj s o x).sec = s.sec := rfl
@[simp] theorem setObj_dbg (s : State) (o : Nat) (x : SyncObj) : (setObj s o x).dbg = s.dbg := rfl

@[simp] theorem setMec_pending (s : State) (n : Nat) (x : Mec) : (setMec s n x).pending = s.pending := rfl
@[simp] theorem setMec_free (s : State) (n : Nat) (x : Mec) : (setMec s n x).free = s.free := rfl
@[simp] theorem setMec_now (s : State) (n : Nat) (x : Mec) : (setMec s n x).now = s.now := rfl
@[simp] theorem setMec_tick (s : State) (n : Nat) (x : Mec) : (setMec s n x).tick = s.tick := rfl
@[simp] theorem setMec_fields (s : State) (n : Nat) (x : Mec) : (setMec s n x).fields = s.fields := rfl
@[simp] theorem setMec_crossings (s : State) (n : Nat) (x : Mec) : (setMec s n x).crossings = s.crossings := rfl
@[simp] theorem setMec_polders (s : State) (n : Nat) (x : Mec) : (setMec s n x).polders = s.polders := rfl
@[simp] theorem setMec_ctxs (s : State) (n : Nat) (x : Mec) : (setMec s n x).ctxs = s.ctxs := rfl
@[simp] theorem setMec_seeds (s : State) (n : Nat) (x : Mec) : (setMec s n x).seeds = s.seeds := rfl
@[simp] theorem setMec_cores (s : State) (n : Nat) (x : Mec) : (setMec s n x).cores = s.cores := rfl
@[simp] theorem setMec_sfus (s : State) (n : Nat) (x : Mec) : (setMec s n x).sfus = s.sfus := rfl
@[simp] theorem setMec_mus (s : State) (n : Nat) (x : Mec) : (setMec s n x).mus = s.mus := rfl
@[simp] theorem setMec_switches (s : State) (n : Nat) (x : Mec) : (setMec s n x).switches = s.switches := rfl
@[simp] theorem setMec_routers (s : State) (n : Nat) (x : Mec) : (setMec s n x).routers = s.routers := rfl
@[simp] theorem setMec_mifs (s : State) (n : Nat) (x : Mec) : (setMec s n x).mifs = s.mifs := rfl
@[simp] theorem setMec_flights (s : State) (n : Nat) (x : Mec) : (setMec s n x).flights = s.flights := rfl
@[simp] theorem setMec_mcRows (s : State) (n : Nat) (x : Mec) : (setMec s n x).mcRows = s.mcRows := rfl
@[simp] theorem setMec_epoch (s : State) (n : Nat) (x : Mec) : (setMec s n x).epoch = s.epoch := rfl
@[simp] theorem setMec_mgcGroups (s : State) (n : Nat) (x : Mec) : (setMec s n x).mgcGroups = s.mgcGroups := rfl
@[simp] theorem setMec_objs (s : State) (n : Nat) (x : Mec) : (setMec s n x).objs = s.objs := rfl
@[simp] theorem setMec_dram (s : State) (n : Nat) (x : Mec) : (setMec s n x).dram = s.dram := rfl
@[simp] theorem setMec_badGranules (s : State) (n : Nat) (x : Mec) : (setMec s n x).badGranules = s.badGranules := rfl
@[simp] theorem setMec_ilv (s : State) (n : Nat) (x : Mec) : (setMec s n x).ilv = s.ilv := rfl
@[simp] theorem setMec_stackBits (s : State) (n : Nat) (x : Mec) : (setMec s n x).stackBits = s.stackBits := rfl
@[simp] theorem setMec_tlbBusy (s : State) (n : Nat) (x : Mec) : (setMec s n x).tlbBusy = s.tlbBusy := rfl
@[simp] theorem setMec_ses (s : State) (n : Nat) (x : Mec) : (setMec s n x).ses = s.ses := rfl
@[simp] theorem setMec_ring (s : State) (n : Nat) (x : Mec) : (setMec s n x).ring = s.ring := rfl
@[simp] theorem setMec_conf (s : State) (n : Nat) (x : Mec) : (setMec s n x).conf = s.conf := rfl
@[simp] theorem setMec_host (s : State) (n : Nat) (x : Mec) : (setMec s n x).host = s.host := rfl
@[simp] theorem setMec_span (s : State) (n : Nat) (x : Mec) : (setMec s n x).span = s.span := rfl
@[simp] theorem setMec_power (s : State) (n : Nat) (x : Mec) : (setMec s n x).power = s.power := rfl
@[simp] theorem setMec_boot (s : State) (n : Nat) (x : Mec) : (setMec s n x).boot = s.boot := rfl
@[simp] theorem setMec_sec (s : State) (n : Nat) (x : Mec) : (setMec s n x).sec = s.sec := rfl
@[simp] theorem setMec_dbg (s : State) (n : Nat) (x : Mec) : (setMec s n x).dbg = s.dbg := rfl

@[simp] theorem setSe_pending (s : State) (e : Nat) (x : Se) : (setSe s e x).pending = s.pending := rfl
@[simp] theorem setSe_free (s : State) (e : Nat) (x : Se) : (setSe s e x).free = s.free := rfl
@[simp] theorem setSe_now (s : State) (e : Nat) (x : Se) : (setSe s e x).now = s.now := rfl
@[simp] theorem setSe_tick (s : State) (e : Nat) (x : Se) : (setSe s e x).tick = s.tick := rfl
@[simp] theorem setSe_fields (s : State) (e : Nat) (x : Se) : (setSe s e x).fields = s.fields := rfl
@[simp] theorem setSe_crossings (s : State) (e : Nat) (x : Se) : (setSe s e x).crossings = s.crossings := rfl
@[simp] theorem setSe_polders (s : State) (e : Nat) (x : Se) : (setSe s e x).polders = s.polders := rfl
@[simp] theorem setSe_ctxs (s : State) (e : Nat) (x : Se) : (setSe s e x).ctxs = s.ctxs := rfl
@[simp] theorem setSe_seeds (s : State) (e : Nat) (x : Se) : (setSe s e x).seeds = s.seeds := rfl
@[simp] theorem setSe_cores (s : State) (e : Nat) (x : Se) : (setSe s e x).cores = s.cores := rfl
@[simp] theorem setSe_sfus (s : State) (e : Nat) (x : Se) : (setSe s e x).sfus = s.sfus := rfl
@[simp] theorem setSe_mus (s : State) (e : Nat) (x : Se) : (setSe s e x).mus = s.mus := rfl
@[simp] theorem setSe_switches (s : State) (e : Nat) (x : Se) : (setSe s e x).switches = s.switches := rfl
@[simp] theorem setSe_routers (s : State) (e : Nat) (x : Se) : (setSe s e x).routers = s.routers := rfl
@[simp] theorem setSe_mifs (s : State) (e : Nat) (x : Se) : (setSe s e x).mifs = s.mifs := rfl
@[simp] theorem setSe_flights (s : State) (e : Nat) (x : Se) : (setSe s e x).flights = s.flights := rfl
@[simp] theorem setSe_mcRows (s : State) (e : Nat) (x : Se) : (setSe s e x).mcRows = s.mcRows := rfl
@[simp] theorem setSe_epoch (s : State) (e : Nat) (x : Se) : (setSe s e x).epoch = s.epoch := rfl
@[simp] theorem setSe_mgcGroups (s : State) (e : Nat) (x : Se) : (setSe s e x).mgcGroups = s.mgcGroups := rfl
@[simp] theorem setSe_objs (s : State) (e : Nat) (x : Se) : (setSe s e x).objs = s.objs := rfl
@[simp] theorem setSe_dram (s : State) (e : Nat) (x : Se) : (setSe s e x).dram = s.dram := rfl
@[simp] theorem setSe_badGranules (s : State) (e : Nat) (x : Se) : (setSe s e x).badGranules = s.badGranules := rfl
@[simp] theorem setSe_ilv (s : State) (e : Nat) (x : Se) : (setSe s e x).ilv = s.ilv := rfl
@[simp] theorem setSe_stackBits (s : State) (e : Nat) (x : Se) : (setSe s e x).stackBits = s.stackBits := rfl
@[simp] theorem setSe_tlbBusy (s : State) (e : Nat) (x : Se) : (setSe s e x).tlbBusy = s.tlbBusy := rfl
@[simp] theorem setSe_mecs (s : State) (e : Nat) (x : Se) : (setSe s e x).mecs = s.mecs := rfl
@[simp] theorem setSe_ring (s : State) (e : Nat) (x : Se) : (setSe s e x).ring = s.ring := rfl
@[simp] theorem setSe_conf (s : State) (e : Nat) (x : Se) : (setSe s e x).conf = s.conf := rfl
@[simp] theorem setSe_host (s : State) (e : Nat) (x : Se) : (setSe s e x).host = s.host := rfl
@[simp] theorem setSe_span (s : State) (e : Nat) (x : Se) : (setSe s e x).span = s.span := rfl
@[simp] theorem setSe_power (s : State) (e : Nat) (x : Se) : (setSe s e x).power = s.power := rfl
@[simp] theorem setSe_boot (s : State) (e : Nat) (x : Se) : (setSe s e x).boot = s.boot := rfl
@[simp] theorem setSe_sec (s : State) (e : Nat) (x : Se) : (setSe s e x).sec = s.sec := rfl
@[simp] theorem setSe_dbg (s : State) (e : Nat) (x : Se) : (setSe s e x).dbg = s.dbg := rfl

@[simp] theorem setDom_pending (s : State) (d : Nat) (x : Dom) : (setDom s d x).pending = s.pending := rfl
@[simp] theorem setDom_free (s : State) (d : Nat) (x : Dom) : (setDom s d x).free = s.free := rfl
@[simp] theorem setDom_now (s : State) (d : Nat) (x : Dom) : (setDom s d x).now = s.now := rfl
@[simp] theorem setDom_tick (s : State) (d : Nat) (x : Dom) : (setDom s d x).tick = s.tick := rfl
@[simp] theorem setDom_fields (s : State) (d : Nat) (x : Dom) : (setDom s d x).fields = s.fields := rfl
@[simp] theorem setDom_crossings (s : State) (d : Nat) (x : Dom) : (setDom s d x).crossings = s.crossings := rfl
@[simp] theorem setDom_polders (s : State) (d : Nat) (x : Dom) : (setDom s d x).polders = s.polders := rfl
@[simp] theorem setDom_ctxs (s : State) (d : Nat) (x : Dom) : (setDom s d x).ctxs = s.ctxs := rfl
@[simp] theorem setDom_seeds (s : State) (d : Nat) (x : Dom) : (setDom s d x).seeds = s.seeds := rfl
@[simp] theorem setDom_cores (s : State) (d : Nat) (x : Dom) : (setDom s d x).cores = s.cores := rfl
@[simp] theorem setDom_sfus (s : State) (d : Nat) (x : Dom) : (setDom s d x).sfus = s.sfus := rfl
@[simp] theorem setDom_mus (s : State) (d : Nat) (x : Dom) : (setDom s d x).mus = s.mus := rfl
@[simp] theorem setDom_switches (s : State) (d : Nat) (x : Dom) : (setDom s d x).switches = s.switches := rfl
@[simp] theorem setDom_routers (s : State) (d : Nat) (x : Dom) : (setDom s d x).routers = s.routers := rfl
@[simp] theorem setDom_mifs (s : State) (d : Nat) (x : Dom) : (setDom s d x).mifs = s.mifs := rfl
@[simp] theorem setDom_flights (s : State) (d : Nat) (x : Dom) : (setDom s d x).flights = s.flights := rfl
@[simp] theorem setDom_mcRows (s : State) (d : Nat) (x : Dom) : (setDom s d x).mcRows = s.mcRows := rfl
@[simp] theorem setDom_epoch (s : State) (d : Nat) (x : Dom) : (setDom s d x).epoch = s.epoch := rfl
@[simp] theorem setDom_mgcGroups (s : State) (d : Nat) (x : Dom) : (setDom s d x).mgcGroups = s.mgcGroups := rfl
@[simp] theorem setDom_objs (s : State) (d : Nat) (x : Dom) : (setDom s d x).objs = s.objs := rfl
@[simp] theorem setDom_dram (s : State) (d : Nat) (x : Dom) : (setDom s d x).dram = s.dram := rfl
@[simp] theorem setDom_badGranules (s : State) (d : Nat) (x : Dom) : (setDom s d x).badGranules = s.badGranules := rfl
@[simp] theorem setDom_ilv (s : State) (d : Nat) (x : Dom) : (setDom s d x).ilv = s.ilv := rfl
@[simp] theorem setDom_stackBits (s : State) (d : Nat) (x : Dom) : (setDom s d x).stackBits = s.stackBits := rfl
@[simp] theorem setDom_tlbBusy (s : State) (d : Nat) (x : Dom) : (setDom s d x).tlbBusy = s.tlbBusy := rfl
@[simp] theorem setDom_mecs (s : State) (d : Nat) (x : Dom) : (setDom s d x).mecs = s.mecs := rfl
@[simp] theorem setDom_ses (s : State) (d : Nat) (x : Dom) : (setDom s d x).ses = s.ses := rfl
@[simp] theorem setDom_ring (s : State) (d : Nat) (x : Dom) : (setDom s d x).ring = s.ring := rfl
@[simp] theorem setDom_conf (s : State) (d : Nat) (x : Dom) : (setDom s d x).conf = s.conf := rfl
@[simp] theorem setDom_host (s : State) (d : Nat) (x : Dom) : (setDom s d x).host = s.host := rfl
@[simp] theorem setDom_span (s : State) (d : Nat) (x : Dom) : (setDom s d x).span = s.span := rfl
@[simp] theorem setDom_boot (s : State) (d : Nat) (x : Dom) : (setDom s d x).boot = s.boot := rfl
@[simp] theorem setDom_sec (s : State) (d : Nat) (x : Dom) : (setDom s d x).sec = s.sec := rfl
@[simp] theorem setDom_dbg (s : State) (d : Nat) (x : Dom) : (setDom s d x).dbg = s.dbg := rfl

@[simp] theorem setQ_pending (s : State) (q : Nat) (x : CmdQ) : (setQ s q x).pending = s.pending := rfl
@[simp] theorem setQ_free (s : State) (q : Nat) (x : CmdQ) : (setQ s q x).free = s.free := rfl
@[simp] theorem setQ_now (s : State) (q : Nat) (x : CmdQ) : (setQ s q x).now = s.now := rfl
@[simp] theorem setQ_tick (s : State) (q : Nat) (x : CmdQ) : (setQ s q x).tick = s.tick := rfl
@[simp] theorem setQ_fields (s : State) (q : Nat) (x : CmdQ) : (setQ s q x).fields = s.fields := rfl
@[simp] theorem setQ_crossings (s : State) (q : Nat) (x : CmdQ) : (setQ s q x).crossings = s.crossings := rfl
@[simp] theorem setQ_polders (s : State) (q : Nat) (x : CmdQ) : (setQ s q x).polders = s.polders := rfl
@[simp] theorem setQ_ctxs (s : State) (q : Nat) (x : CmdQ) : (setQ s q x).ctxs = s.ctxs := rfl
@[simp] theorem setQ_seeds (s : State) (q : Nat) (x : CmdQ) : (setQ s q x).seeds = s.seeds := rfl
@[simp] theorem setQ_cores (s : State) (q : Nat) (x : CmdQ) : (setQ s q x).cores = s.cores := rfl
@[simp] theorem setQ_sfus (s : State) (q : Nat) (x : CmdQ) : (setQ s q x).sfus = s.sfus := rfl
@[simp] theorem setQ_mus (s : State) (q : Nat) (x : CmdQ) : (setQ s q x).mus = s.mus := rfl
@[simp] theorem setQ_switches (s : State) (q : Nat) (x : CmdQ) : (setQ s q x).switches = s.switches := rfl
@[simp] theorem setQ_routers (s : State) (q : Nat) (x : CmdQ) : (setQ s q x).routers = s.routers := rfl
@[simp] theorem setQ_mifs (s : State) (q : Nat) (x : CmdQ) : (setQ s q x).mifs = s.mifs := rfl
@[simp] theorem setQ_flights (s : State) (q : Nat) (x : CmdQ) : (setQ s q x).flights = s.flights := rfl
@[simp] theorem setQ_mcRows (s : State) (q : Nat) (x : CmdQ) : (setQ s q x).mcRows = s.mcRows := rfl
@[simp] theorem setQ_epoch (s : State) (q : Nat) (x : CmdQ) : (setQ s q x).epoch = s.epoch := rfl
@[simp] theorem setQ_mgcGroups (s : State) (q : Nat) (x : CmdQ) : (setQ s q x).mgcGroups = s.mgcGroups := rfl
@[simp] theorem setQ_objs (s : State) (q : Nat) (x : CmdQ) : (setQ s q x).objs = s.objs := rfl
@[simp] theorem setQ_dram (s : State) (q : Nat) (x : CmdQ) : (setQ s q x).dram = s.dram := rfl
@[simp] theorem setQ_badGranules (s : State) (q : Nat) (x : CmdQ) : (setQ s q x).badGranules = s.badGranules := rfl
@[simp] theorem setQ_ilv (s : State) (q : Nat) (x : CmdQ) : (setQ s q x).ilv = s.ilv := rfl
@[simp] theorem setQ_stackBits (s : State) (q : Nat) (x : CmdQ) : (setQ s q x).stackBits = s.stackBits := rfl
@[simp] theorem setQ_tlbBusy (s : State) (q : Nat) (x : CmdQ) : (setQ s q x).tlbBusy = s.tlbBusy := rfl
@[simp] theorem setQ_mecs (s : State) (q : Nat) (x : CmdQ) : (setQ s q x).mecs = s.mecs := rfl
@[simp] theorem setQ_ses (s : State) (q : Nat) (x : CmdQ) : (setQ s q x).ses = s.ses := rfl
@[simp] theorem setQ_ring (s : State) (q : Nat) (x : CmdQ) : (setQ s q x).ring = s.ring := rfl
@[simp] theorem setQ_conf (s : State) (q : Nat) (x : CmdQ) : (setQ s q x).conf = s.conf := rfl
@[simp] theorem setQ_span (s : State) (q : Nat) (x : CmdQ) : (setQ s q x).span = s.span := rfl
@[simp] theorem setQ_power (s : State) (q : Nat) (x : CmdQ) : (setQ s q x).power = s.power := rfl
@[simp] theorem setQ_boot (s : State) (q : Nat) (x : CmdQ) : (setQ s q x).boot = s.boot := rfl
@[simp] theorem setQ_sec (s : State) (q : Nat) (x : CmdQ) : (setQ s q x).sec = s.sec := rfl
@[simp] theorem setQ_dbg (s : State) (q : Nat) (x : CmdQ) : (setQ s q x).dbg = s.dbg := rfl

@[simp] theorem setMbx_pending (s : State) (n : Nat) (x : Mbx) : (setMbx s n x).pending = s.pending := rfl
@[simp] theorem setMbx_free (s : State) (n : Nat) (x : Mbx) : (setMbx s n x).free = s.free := rfl
@[simp] theorem setMbx_now (s : State) (n : Nat) (x : Mbx) : (setMbx s n x).now = s.now := rfl
@[simp] theorem setMbx_tick (s : State) (n : Nat) (x : Mbx) : (setMbx s n x).tick = s.tick := rfl
@[simp] theorem setMbx_fields (s : State) (n : Nat) (x : Mbx) : (setMbx s n x).fields = s.fields := rfl
@[simp] theorem setMbx_crossings (s : State) (n : Nat) (x : Mbx) : (setMbx s n x).crossings = s.crossings := rfl
@[simp] theorem setMbx_polders (s : State) (n : Nat) (x : Mbx) : (setMbx s n x).polders = s.polders := rfl
@[simp] theorem setMbx_ctxs (s : State) (n : Nat) (x : Mbx) : (setMbx s n x).ctxs = s.ctxs := rfl
@[simp] theorem setMbx_seeds (s : State) (n : Nat) (x : Mbx) : (setMbx s n x).seeds = s.seeds := rfl
@[simp] theorem setMbx_cores (s : State) (n : Nat) (x : Mbx) : (setMbx s n x).cores = s.cores := rfl
@[simp] theorem setMbx_sfus (s : State) (n : Nat) (x : Mbx) : (setMbx s n x).sfus = s.sfus := rfl
@[simp] theorem setMbx_mus (s : State) (n : Nat) (x : Mbx) : (setMbx s n x).mus = s.mus := rfl
@[simp] theorem setMbx_switches (s : State) (n : Nat) (x : Mbx) : (setMbx s n x).switches = s.switches := rfl
@[simp] theorem setMbx_routers (s : State) (n : Nat) (x : Mbx) : (setMbx s n x).routers = s.routers := rfl
@[simp] theorem setMbx_mifs (s : State) (n : Nat) (x : Mbx) : (setMbx s n x).mifs = s.mifs := rfl
@[simp] theorem setMbx_flights (s : State) (n : Nat) (x : Mbx) : (setMbx s n x).flights = s.flights := rfl
@[simp] theorem setMbx_mcRows (s : State) (n : Nat) (x : Mbx) : (setMbx s n x).mcRows = s.mcRows := rfl
@[simp] theorem setMbx_epoch (s : State) (n : Nat) (x : Mbx) : (setMbx s n x).epoch = s.epoch := rfl
@[simp] theorem setMbx_mgcGroups (s : State) (n : Nat) (x : Mbx) : (setMbx s n x).mgcGroups = s.mgcGroups := rfl
@[simp] theorem setMbx_objs (s : State) (n : Nat) (x : Mbx) : (setMbx s n x).objs = s.objs := rfl
@[simp] theorem setMbx_dram (s : State) (n : Nat) (x : Mbx) : (setMbx s n x).dram = s.dram := rfl
@[simp] theorem setMbx_badGranules (s : State) (n : Nat) (x : Mbx) : (setMbx s n x).badGranules = s.badGranules := rfl
@[simp] theorem setMbx_ilv (s : State) (n : Nat) (x : Mbx) : (setMbx s n x).ilv = s.ilv := rfl
@[simp] theorem setMbx_stackBits (s : State) (n : Nat) (x : Mbx) : (setMbx s n x).stackBits = s.stackBits := rfl
@[simp] theorem setMbx_tlbBusy (s : State) (n : Nat) (x : Mbx) : (setMbx s n x).tlbBusy = s.tlbBusy := rfl
@[simp] theorem setMbx_mecs (s : State) (n : Nat) (x : Mbx) : (setMbx s n x).mecs = s.mecs := rfl
@[simp] theorem setMbx_ses (s : State) (n : Nat) (x : Mbx) : (setMbx s n x).ses = s.ses := rfl
@[simp] theorem setMbx_ring (s : State) (n : Nat) (x : Mbx) : (setMbx s n x).ring = s.ring := rfl
@[simp] theorem setMbx_conf (s : State) (n : Nat) (x : Mbx) : (setMbx s n x).conf = s.conf := rfl
@[simp] theorem setMbx_span (s : State) (n : Nat) (x : Mbx) : (setMbx s n x).span = s.span := rfl
@[simp] theorem setMbx_power (s : State) (n : Nat) (x : Mbx) : (setMbx s n x).power = s.power := rfl
@[simp] theorem setMbx_boot (s : State) (n : Nat) (x : Mbx) : (setMbx s n x).boot = s.boot := rfl
@[simp] theorem setMbx_sec (s : State) (n : Nat) (x : Mbx) : (setMbx s n x).sec = s.sec := rfl
@[simp] theorem setMbx_dbg (s : State) (n : Nat) (x : Mbx) : (setMbx s n x).dbg = s.dbg := rfl

@[simp] theorem setPort_pending (s : State) (p : Nat) (x : NPort) : (setPort s p x).pending = s.pending := by unfold setPort; split <;> rfl
@[simp] theorem setPort_free (s : State) (p : Nat) (x : NPort) : (setPort s p x).free = s.free := by unfold setPort; split <;> rfl
@[simp] theorem setPort_now (s : State) (p : Nat) (x : NPort) : (setPort s p x).now = s.now := by unfold setPort; split <;> rfl
@[simp] theorem setPort_tick (s : State) (p : Nat) (x : NPort) : (setPort s p x).tick = s.tick := by unfold setPort; split <;> rfl
@[simp] theorem setPort_fields (s : State) (p : Nat) (x : NPort) : (setPort s p x).fields = s.fields := by unfold setPort; split <;> rfl
@[simp] theorem setPort_crossings (s : State) (p : Nat) (x : NPort) : (setPort s p x).crossings = s.crossings := by unfold setPort; split <;> rfl
@[simp] theorem setPort_polders (s : State) (p : Nat) (x : NPort) : (setPort s p x).polders = s.polders := by unfold setPort; split <;> rfl
@[simp] theorem setPort_ctxs (s : State) (p : Nat) (x : NPort) : (setPort s p x).ctxs = s.ctxs := by unfold setPort; split <;> rfl
@[simp] theorem setPort_seeds (s : State) (p : Nat) (x : NPort) : (setPort s p x).seeds = s.seeds := by unfold setPort; split <;> rfl
@[simp] theorem setPort_cores (s : State) (p : Nat) (x : NPort) : (setPort s p x).cores = s.cores := by unfold setPort; split <;> rfl
@[simp] theorem setPort_sfus (s : State) (p : Nat) (x : NPort) : (setPort s p x).sfus = s.sfus := by unfold setPort; split <;> rfl
@[simp] theorem setPort_mus (s : State) (p : Nat) (x : NPort) : (setPort s p x).mus = s.mus := by unfold setPort; split <;> rfl
@[simp] theorem setPort_switches (s : State) (p : Nat) (x : NPort) : (setPort s p x).switches = s.switches := by unfold setPort; split <;> rfl
@[simp] theorem setPort_routers (s : State) (p : Nat) (x : NPort) : (setPort s p x).routers = s.routers := by unfold setPort; split <;> rfl
@[simp] theorem setPort_mifs (s : State) (p : Nat) (x : NPort) : (setPort s p x).mifs = s.mifs := by unfold setPort; split <;> rfl
@[simp] theorem setPort_flights (s : State) (p : Nat) (x : NPort) : (setPort s p x).flights = s.flights := by unfold setPort; split <;> rfl
@[simp] theorem setPort_mcRows (s : State) (p : Nat) (x : NPort) : (setPort s p x).mcRows = s.mcRows := by unfold setPort; split <;> rfl
@[simp] theorem setPort_epoch (s : State) (p : Nat) (x : NPort) : (setPort s p x).epoch = s.epoch := by unfold setPort; split <;> rfl
@[simp] theorem setPort_mgcGroups (s : State) (p : Nat) (x : NPort) : (setPort s p x).mgcGroups = s.mgcGroups := by unfold setPort; split <;> rfl
@[simp] theorem setPort_objs (s : State) (p : Nat) (x : NPort) : (setPort s p x).objs = s.objs := by unfold setPort; split <;> rfl
@[simp] theorem setPort_dram (s : State) (p : Nat) (x : NPort) : (setPort s p x).dram = s.dram := by unfold setPort; split <;> rfl
@[simp] theorem setPort_badGranules (s : State) (p : Nat) (x : NPort) : (setPort s p x).badGranules = s.badGranules := by unfold setPort; split <;> rfl
@[simp] theorem setPort_ilv (s : State) (p : Nat) (x : NPort) : (setPort s p x).ilv = s.ilv := by unfold setPort; split <;> rfl
@[simp] theorem setPort_stackBits (s : State) (p : Nat) (x : NPort) : (setPort s p x).stackBits = s.stackBits := by unfold setPort; split <;> rfl
@[simp] theorem setPort_tlbBusy (s : State) (p : Nat) (x : NPort) : (setPort s p x).tlbBusy = s.tlbBusy := by unfold setPort; split <;> rfl
@[simp] theorem setPort_mecs (s : State) (p : Nat) (x : NPort) : (setPort s p x).mecs = s.mecs := by unfold setPort; split <;> rfl
@[simp] theorem setPort_ses (s : State) (p : Nat) (x : NPort) : (setPort s p x).ses = s.ses := by unfold setPort; split <;> rfl
@[simp] theorem setPort_ring (s : State) (p : Nat) (x : NPort) : (setPort s p x).ring = s.ring := by unfold setPort; split <;> rfl
@[simp] theorem setPort_conf (s : State) (p : Nat) (x : NPort) : (setPort s p x).conf = s.conf := by unfold setPort; split <;> rfl
@[simp] theorem setPort_span (s : State) (p : Nat) (x : NPort) : (setPort s p x).span = s.span := by unfold setPort; split <;> rfl
@[simp] theorem setPort_power (s : State) (p : Nat) (x : NPort) : (setPort s p x).power = s.power := by unfold setPort; split <;> rfl
@[simp] theorem setPort_boot (s : State) (p : Nat) (x : NPort) : (setPort s p x).boot = s.boot := by unfold setPort; split <;> rfl
@[simp] theorem setPort_sec (s : State) (p : Nat) (x : NPort) : (setPort s p x).sec = s.sec := by unfold setPort; split <;> rfl
@[simp] theorem setPort_dbg (s : State) (p : Nat) (x : NPort) : (setPort s p x).dbg = s.dbg := by unfold setPort; split <;> rfl

@[simp] theorem setSpan_pending (s : State) (p : Nat) (x : SpanPort) : (setSpan s p x).pending = s.pending := rfl
@[simp] theorem setSpan_free (s : State) (p : Nat) (x : SpanPort) : (setSpan s p x).free = s.free := rfl
@[simp] theorem setSpan_now (s : State) (p : Nat) (x : SpanPort) : (setSpan s p x).now = s.now := rfl
@[simp] theorem setSpan_tick (s : State) (p : Nat) (x : SpanPort) : (setSpan s p x).tick = s.tick := rfl
@[simp] theorem setSpan_fields (s : State) (p : Nat) (x : SpanPort) : (setSpan s p x).fields = s.fields := rfl
@[simp] theorem setSpan_crossings (s : State) (p : Nat) (x : SpanPort) : (setSpan s p x).crossings = s.crossings := rfl
@[simp] theorem setSpan_polders (s : State) (p : Nat) (x : SpanPort) : (setSpan s p x).polders = s.polders := rfl
@[simp] theorem setSpan_ctxs (s : State) (p : Nat) (x : SpanPort) : (setSpan s p x).ctxs = s.ctxs := rfl
@[simp] theorem setSpan_seeds (s : State) (p : Nat) (x : SpanPort) : (setSpan s p x).seeds = s.seeds := rfl
@[simp] theorem setSpan_cores (s : State) (p : Nat) (x : SpanPort) : (setSpan s p x).cores = s.cores := rfl
@[simp] theorem setSpan_sfus (s : State) (p : Nat) (x : SpanPort) : (setSpan s p x).sfus = s.sfus := rfl
@[simp] theorem setSpan_mus (s : State) (p : Nat) (x : SpanPort) : (setSpan s p x).mus = s.mus := rfl
@[simp] theorem setSpan_switches (s : State) (p : Nat) (x : SpanPort) : (setSpan s p x).switches = s.switches := rfl
@[simp] theorem setSpan_routers (s : State) (p : Nat) (x : SpanPort) : (setSpan s p x).routers = s.routers := rfl
@[simp] theorem setSpan_mifs (s : State) (p : Nat) (x : SpanPort) : (setSpan s p x).mifs = s.mifs := rfl
@[simp] theorem setSpan_flights (s : State) (p : Nat) (x : SpanPort) : (setSpan s p x).flights = s.flights := rfl
@[simp] theorem setSpan_mcRows (s : State) (p : Nat) (x : SpanPort) : (setSpan s p x).mcRows = s.mcRows := rfl
@[simp] theorem setSpan_epoch (s : State) (p : Nat) (x : SpanPort) : (setSpan s p x).epoch = s.epoch := rfl
@[simp] theorem setSpan_mgcGroups (s : State) (p : Nat) (x : SpanPort) : (setSpan s p x).mgcGroups = s.mgcGroups := rfl
@[simp] theorem setSpan_objs (s : State) (p : Nat) (x : SpanPort) : (setSpan s p x).objs = s.objs := rfl
@[simp] theorem setSpan_dram (s : State) (p : Nat) (x : SpanPort) : (setSpan s p x).dram = s.dram := rfl
@[simp] theorem setSpan_badGranules (s : State) (p : Nat) (x : SpanPort) : (setSpan s p x).badGranules = s.badGranules := rfl
@[simp] theorem setSpan_ilv (s : State) (p : Nat) (x : SpanPort) : (setSpan s p x).ilv = s.ilv := rfl
@[simp] theorem setSpan_stackBits (s : State) (p : Nat) (x : SpanPort) : (setSpan s p x).stackBits = s.stackBits := rfl
@[simp] theorem setSpan_tlbBusy (s : State) (p : Nat) (x : SpanPort) : (setSpan s p x).tlbBusy = s.tlbBusy := rfl
@[simp] theorem setSpan_mecs (s : State) (p : Nat) (x : SpanPort) : (setSpan s p x).mecs = s.mecs := rfl
@[simp] theorem setSpan_ses (s : State) (p : Nat) (x : SpanPort) : (setSpan s p x).ses = s.ses := rfl
@[simp] theorem setSpan_ring (s : State) (p : Nat) (x : SpanPort) : (setSpan s p x).ring = s.ring := rfl
@[simp] theorem setSpan_conf (s : State) (p : Nat) (x : SpanPort) : (setSpan s p x).conf = s.conf := rfl
@[simp] theorem setSpan_host (s : State) (p : Nat) (x : SpanPort) : (setSpan s p x).host = s.host := rfl
@[simp] theorem setSpan_power (s : State) (p : Nat) (x : SpanPort) : (setSpan s p x).power = s.power := rfl
@[simp] theorem setSpan_boot (s : State) (p : Nat) (x : SpanPort) : (setSpan s p x).boot = s.boot := rfl
@[simp] theorem setSpan_sec (s : State) (p : Nat) (x : SpanPort) : (setSpan s p x).sec = s.sec := rfl
@[simp] theorem setSpan_dbg (s : State) (p : Nat) (x : SpanPort) : (setSpan s p x).dbg = s.dbg := rfl

@[simp] theorem modPower_pending (s : State) (f : Power → _) : (modPower s f).pending = s.pending := rfl
@[simp] theorem modPower_free (s : State) (f : Power → _) : (modPower s f).free = s.free := rfl
@[simp] theorem modPower_now (s : State) (f : Power → _) : (modPower s f).now = s.now := rfl
@[simp] theorem modPower_tick (s : State) (f : Power → _) : (modPower s f).tick = s.tick := rfl
@[simp] theorem modPower_fields (s : State) (f : Power → _) : (modPower s f).fields = s.fields := rfl
@[simp] theorem modPower_crossings (s : State) (f : Power → _) : (modPower s f).crossings = s.crossings := rfl
@[simp] theorem modPower_polders (s : State) (f : Power → _) : (modPower s f).polders = s.polders := rfl
@[simp] theorem modPower_ctxs (s : State) (f : Power → _) : (modPower s f).ctxs = s.ctxs := rfl
@[simp] theorem modPower_seeds (s : State) (f : Power → _) : (modPower s f).seeds = s.seeds := rfl
@[simp] theorem modPower_cores (s : State) (f : Power → _) : (modPower s f).cores = s.cores := rfl
@[simp] theorem modPower_sfus (s : State) (f : Power → _) : (modPower s f).sfus = s.sfus := rfl
@[simp] theorem modPower_mus (s : State) (f : Power → _) : (modPower s f).mus = s.mus := rfl
@[simp] theorem modPower_switches (s : State) (f : Power → _) : (modPower s f).switches = s.switches := rfl
@[simp] theorem modPower_routers (s : State) (f : Power → _) : (modPower s f).routers = s.routers := rfl
@[simp] theorem modPower_mifs (s : State) (f : Power → _) : (modPower s f).mifs = s.mifs := rfl
@[simp] theorem modPower_flights (s : State) (f : Power → _) : (modPower s f).flights = s.flights := rfl
@[simp] theorem modPower_mcRows (s : State) (f : Power → _) : (modPower s f).mcRows = s.mcRows := rfl
@[simp] theorem modPower_epoch (s : State) (f : Power → _) : (modPower s f).epoch = s.epoch := rfl
@[simp] theorem modPower_mgcGroups (s : State) (f : Power → _) : (modPower s f).mgcGroups = s.mgcGroups := rfl
@[simp] theorem modPower_objs (s : State) (f : Power → _) : (modPower s f).objs = s.objs := rfl
@[simp] theorem modPower_dram (s : State) (f : Power → _) : (modPower s f).dram = s.dram := rfl
@[simp] theorem modPower_badGranules (s : State) (f : Power → _) : (modPower s f).badGranules = s.badGranules := rfl
@[simp] theorem modPower_ilv (s : State) (f : Power → _) : (modPower s f).ilv = s.ilv := rfl
@[simp] theorem modPower_stackBits (s : State) (f : Power → _) : (modPower s f).stackBits = s.stackBits := rfl
@[simp] theorem modPower_tlbBusy (s : State) (f : Power → _) : (modPower s f).tlbBusy = s.tlbBusy := rfl
@[simp] theorem modPower_mecs (s : State) (f : Power → _) : (modPower s f).mecs = s.mecs := rfl
@[simp] theorem modPower_ses (s : State) (f : Power → _) : (modPower s f).ses = s.ses := rfl
@[simp] theorem modPower_ring (s : State) (f : Power → _) : (modPower s f).ring = s.ring := rfl
@[simp] theorem modPower_conf (s : State) (f : Power → _) : (modPower s f).conf = s.conf := rfl
@[simp] theorem modPower_host (s : State) (f : Power → _) : (modPower s f).host = s.host := rfl
@[simp] theorem modPower_span (s : State) (f : Power → _) : (modPower s f).span = s.span := rfl
@[simp] theorem modPower_boot (s : State) (f : Power → _) : (modPower s f).boot = s.boot := rfl
@[simp] theorem modPower_sec (s : State) (f : Power → _) : (modPower s f).sec = s.sec := rfl
@[simp] theorem modPower_dbg (s : State) (f : Power → _) : (modPower s f).dbg = s.dbg := rfl

@[simp] theorem modBoot_pending (s : State) (f : Boot → _) : (modBoot s f).pending = s.pending := rfl
@[simp] theorem modBoot_free (s : State) (f : Boot → _) : (modBoot s f).free = s.free := rfl
@[simp] theorem modBoot_now (s : State) (f : Boot → _) : (modBoot s f).now = s.now := rfl
@[simp] theorem modBoot_tick (s : State) (f : Boot → _) : (modBoot s f).tick = s.tick := rfl
@[simp] theorem modBoot_fields (s : State) (f : Boot → _) : (modBoot s f).fields = s.fields := rfl
@[simp] theorem modBoot_crossings (s : State) (f : Boot → _) : (modBoot s f).crossings = s.crossings := rfl
@[simp] theorem modBoot_polders (s : State) (f : Boot → _) : (modBoot s f).polders = s.polders := rfl
@[simp] theorem modBoot_ctxs (s : State) (f : Boot → _) : (modBoot s f).ctxs = s.ctxs := rfl
@[simp] theorem modBoot_seeds (s : State) (f : Boot → _) : (modBoot s f).seeds = s.seeds := rfl
@[simp] theorem modBoot_cores (s : State) (f : Boot → _) : (modBoot s f).cores = s.cores := rfl
@[simp] theorem modBoot_sfus (s : State) (f : Boot → _) : (modBoot s f).sfus = s.sfus := rfl
@[simp] theorem modBoot_mus (s : State) (f : Boot → _) : (modBoot s f).mus = s.mus := rfl
@[simp] theorem modBoot_switches (s : State) (f : Boot → _) : (modBoot s f).switches = s.switches := rfl
@[simp] theorem modBoot_routers (s : State) (f : Boot → _) : (modBoot s f).routers = s.routers := rfl
@[simp] theorem modBoot_mifs (s : State) (f : Boot → _) : (modBoot s f).mifs = s.mifs := rfl
@[simp] theorem modBoot_flights (s : State) (f : Boot → _) : (modBoot s f).flights = s.flights := rfl
@[simp] theorem modBoot_mcRows (s : State) (f : Boot → _) : (modBoot s f).mcRows = s.mcRows := rfl
@[simp] theorem modBoot_epoch (s : State) (f : Boot → _) : (modBoot s f).epoch = s.epoch := rfl
@[simp] theorem modBoot_mgcGroups (s : State) (f : Boot → _) : (modBoot s f).mgcGroups = s.mgcGroups := rfl
@[simp] theorem modBoot_objs (s : State) (f : Boot → _) : (modBoot s f).objs = s.objs := rfl
@[simp] theorem modBoot_dram (s : State) (f : Boot → _) : (modBoot s f).dram = s.dram := rfl
@[simp] theorem modBoot_badGranules (s : State) (f : Boot → _) : (modBoot s f).badGranules = s.badGranules := rfl
@[simp] theorem modBoot_ilv (s : State) (f : Boot → _) : (modBoot s f).ilv = s.ilv := rfl
@[simp] theorem modBoot_stackBits (s : State) (f : Boot → _) : (modBoot s f).stackBits = s.stackBits := rfl
@[simp] theorem modBoot_tlbBusy (s : State) (f : Boot → _) : (modBoot s f).tlbBusy = s.tlbBusy := rfl
@[simp] theorem modBoot_mecs (s : State) (f : Boot → _) : (modBoot s f).mecs = s.mecs := rfl
@[simp] theorem modBoot_ses (s : State) (f : Boot → _) : (modBoot s f).ses = s.ses := rfl
@[simp] theorem modBoot_ring (s : State) (f : Boot → _) : (modBoot s f).ring = s.ring := rfl
@[simp] theorem modBoot_conf (s : State) (f : Boot → _) : (modBoot s f).conf = s.conf := rfl
@[simp] theorem modBoot_host (s : State) (f : Boot → _) : (modBoot s f).host = s.host := rfl
@[simp] theorem modBoot_span (s : State) (f : Boot → _) : (modBoot s f).span = s.span := rfl
@[simp] theorem modBoot_power (s : State) (f : Boot → _) : (modBoot s f).power = s.power := rfl
@[simp] theorem modBoot_sec (s : State) (f : Boot → _) : (modBoot s f).sec = s.sec := rfl
@[simp] theorem modBoot_dbg (s : State) (f : Boot → _) : (modBoot s f).dbg = s.dbg := rfl

@[simp] theorem modConf_pending (s : State) (f : Conf → _) : (modConf s f).pending = s.pending := rfl
@[simp] theorem modConf_free (s : State) (f : Conf → _) : (modConf s f).free = s.free := rfl
@[simp] theorem modConf_now (s : State) (f : Conf → _) : (modConf s f).now = s.now := rfl
@[simp] theorem modConf_tick (s : State) (f : Conf → _) : (modConf s f).tick = s.tick := rfl
@[simp] theorem modConf_fields (s : State) (f : Conf → _) : (modConf s f).fields = s.fields := rfl
@[simp] theorem modConf_crossings (s : State) (f : Conf → _) : (modConf s f).crossings = s.crossings := rfl
@[simp] theorem modConf_polders (s : State) (f : Conf → _) : (modConf s f).polders = s.polders := rfl
@[simp] theorem modConf_ctxs (s : State) (f : Conf → _) : (modConf s f).ctxs = s.ctxs := rfl
@[simp] theorem modConf_seeds (s : State) (f : Conf → _) : (modConf s f).seeds = s.seeds := rfl
@[simp] theorem modConf_cores (s : State) (f : Conf → _) : (modConf s f).cores = s.cores := rfl
@[simp] theorem modConf_sfus (s : State) (f : Conf → _) : (modConf s f).sfus = s.sfus := rfl
@[simp] theorem modConf_mus (s : State) (f : Conf → _) : (modConf s f).mus = s.mus := rfl
@[simp] theorem modConf_switches (s : State) (f : Conf → _) : (modConf s f).switches = s.switches := rfl
@[simp] theorem modConf_routers (s : State) (f : Conf → _) : (modConf s f).routers = s.routers := rfl
@[simp] theorem modConf_mifs (s : State) (f : Conf → _) : (modConf s f).mifs = s.mifs := rfl
@[simp] theorem modConf_flights (s : State) (f : Conf → _) : (modConf s f).flights = s.flights := rfl
@[simp] theorem modConf_mcRows (s : State) (f : Conf → _) : (modConf s f).mcRows = s.mcRows := rfl
@[simp] theorem modConf_epoch (s : State) (f : Conf → _) : (modConf s f).epoch = s.epoch := rfl
@[simp] theorem modConf_mgcGroups (s : State) (f : Conf → _) : (modConf s f).mgcGroups = s.mgcGroups := rfl
@[simp] theorem modConf_objs (s : State) (f : Conf → _) : (modConf s f).objs = s.objs := rfl
@[simp] theorem modConf_dram (s : State) (f : Conf → _) : (modConf s f).dram = s.dram := rfl
@[simp] theorem modConf_badGranules (s : State) (f : Conf → _) : (modConf s f).badGranules = s.badGranules := rfl
@[simp] theorem modConf_ilv (s : State) (f : Conf → _) : (modConf s f).ilv = s.ilv := rfl
@[simp] theorem modConf_stackBits (s : State) (f : Conf → _) : (modConf s f).stackBits = s.stackBits := rfl
@[simp] theorem modConf_tlbBusy (s : State) (f : Conf → _) : (modConf s f).tlbBusy = s.tlbBusy := rfl
@[simp] theorem modConf_mecs (s : State) (f : Conf → _) : (modConf s f).mecs = s.mecs := rfl
@[simp] theorem modConf_ses (s : State) (f : Conf → _) : (modConf s f).ses = s.ses := rfl
@[simp] theorem modConf_ring (s : State) (f : Conf → _) : (modConf s f).ring = s.ring := rfl
@[simp] theorem modConf_host (s : State) (f : Conf → _) : (modConf s f).host = s.host := rfl
@[simp] theorem modConf_span (s : State) (f : Conf → _) : (modConf s f).span = s.span := rfl
@[simp] theorem modConf_power (s : State) (f : Conf → _) : (modConf s f).power = s.power := rfl
@[simp] theorem modConf_boot (s : State) (f : Conf → _) : (modConf s f).boot = s.boot := rfl
@[simp] theorem modConf_sec (s : State) (f : Conf → _) : (modConf s f).sec = s.sec := rfl
@[simp] theorem modConf_dbg (s : State) (f : Conf → _) : (modConf s f).dbg = s.dbg := rfl

@[simp] theorem modHost_pending (s : State) (f : HostIf → _) : (modHost s f).pending = s.pending := rfl
@[simp] theorem modHost_free (s : State) (f : HostIf → _) : (modHost s f).free = s.free := rfl
@[simp] theorem modHost_now (s : State) (f : HostIf → _) : (modHost s f).now = s.now := rfl
@[simp] theorem modHost_tick (s : State) (f : HostIf → _) : (modHost s f).tick = s.tick := rfl
@[simp] theorem modHost_fields (s : State) (f : HostIf → _) : (modHost s f).fields = s.fields := rfl
@[simp] theorem modHost_crossings (s : State) (f : HostIf → _) : (modHost s f).crossings = s.crossings := rfl
@[simp] theorem modHost_polders (s : State) (f : HostIf → _) : (modHost s f).polders = s.polders := rfl
@[simp] theorem modHost_ctxs (s : State) (f : HostIf → _) : (modHost s f).ctxs = s.ctxs := rfl
@[simp] theorem modHost_seeds (s : State) (f : HostIf → _) : (modHost s f).seeds = s.seeds := rfl
@[simp] theorem modHost_cores (s : State) (f : HostIf → _) : (modHost s f).cores = s.cores := rfl
@[simp] theorem modHost_sfus (s : State) (f : HostIf → _) : (modHost s f).sfus = s.sfus := rfl
@[simp] theorem modHost_mus (s : State) (f : HostIf → _) : (modHost s f).mus = s.mus := rfl
@[simp] theorem modHost_switches (s : State) (f : HostIf → _) : (modHost s f).switches = s.switches := rfl
@[simp] theorem modHost_routers (s : State) (f : HostIf → _) : (modHost s f).routers = s.routers := rfl
@[simp] theorem modHost_mifs (s : State) (f : HostIf → _) : (modHost s f).mifs = s.mifs := rfl
@[simp] theorem modHost_flights (s : State) (f : HostIf → _) : (modHost s f).flights = s.flights := rfl
@[simp] theorem modHost_mcRows (s : State) (f : HostIf → _) : (modHost s f).mcRows = s.mcRows := rfl
@[simp] theorem modHost_epoch (s : State) (f : HostIf → _) : (modHost s f).epoch = s.epoch := rfl
@[simp] theorem modHost_mgcGroups (s : State) (f : HostIf → _) : (modHost s f).mgcGroups = s.mgcGroups := rfl
@[simp] theorem modHost_objs (s : State) (f : HostIf → _) : (modHost s f).objs = s.objs := rfl
@[simp] theorem modHost_dram (s : State) (f : HostIf → _) : (modHost s f).dram = s.dram := rfl
@[simp] theorem modHost_badGranules (s : State) (f : HostIf → _) : (modHost s f).badGranules = s.badGranules := rfl
@[simp] theorem modHost_ilv (s : State) (f : HostIf → _) : (modHost s f).ilv = s.ilv := rfl
@[simp] theorem modHost_stackBits (s : State) (f : HostIf → _) : (modHost s f).stackBits = s.stackBits := rfl
@[simp] theorem modHost_tlbBusy (s : State) (f : HostIf → _) : (modHost s f).tlbBusy = s.tlbBusy := rfl
@[simp] theorem modHost_mecs (s : State) (f : HostIf → _) : (modHost s f).mecs = s.mecs := rfl
@[simp] theorem modHost_ses (s : State) (f : HostIf → _) : (modHost s f).ses = s.ses := rfl
@[simp] theorem modHost_ring (s : State) (f : HostIf → _) : (modHost s f).ring = s.ring := rfl
@[simp] theorem modHost_conf (s : State) (f : HostIf → _) : (modHost s f).conf = s.conf := rfl
@[simp] theorem modHost_span (s : State) (f : HostIf → _) : (modHost s f).span = s.span := rfl
@[simp] theorem modHost_power (s : State) (f : HostIf → _) : (modHost s f).power = s.power := rfl
@[simp] theorem modHost_boot (s : State) (f : HostIf → _) : (modHost s f).boot = s.boot := rfl
@[simp] theorem modHost_sec (s : State) (f : HostIf → _) : (modHost s f).sec = s.sec := rfl
@[simp] theorem modHost_dbg (s : State) (f : HostIf → _) : (modHost s f).dbg = s.dbg := rfl

@[simp] theorem modSec_pending (s : State) (f : Sec → _) : (modSec s f).pending = s.pending := rfl
@[simp] theorem modSec_free (s : State) (f : Sec → _) : (modSec s f).free = s.free := rfl
@[simp] theorem modSec_now (s : State) (f : Sec → _) : (modSec s f).now = s.now := rfl
@[simp] theorem modSec_tick (s : State) (f : Sec → _) : (modSec s f).tick = s.tick := rfl
@[simp] theorem modSec_fields (s : State) (f : Sec → _) : (modSec s f).fields = s.fields := rfl
@[simp] theorem modSec_crossings (s : State) (f : Sec → _) : (modSec s f).crossings = s.crossings := rfl
@[simp] theorem modSec_polders (s : State) (f : Sec → _) : (modSec s f).polders = s.polders := rfl
@[simp] theorem modSec_ctxs (s : State) (f : Sec → _) : (modSec s f).ctxs = s.ctxs := rfl
@[simp] theorem modSec_seeds (s : State) (f : Sec → _) : (modSec s f).seeds = s.seeds := rfl
@[simp] theorem modSec_cores (s : State) (f : Sec → _) : (modSec s f).cores = s.cores := rfl
@[simp] theorem modSec_sfus (s : State) (f : Sec → _) : (modSec s f).sfus = s.sfus := rfl
@[simp] theorem modSec_mus (s : State) (f : Sec → _) : (modSec s f).mus = s.mus := rfl
@[simp] theorem modSec_switches (s : State) (f : Sec → _) : (modSec s f).switches = s.switches := rfl
@[simp] theorem modSec_routers (s : State) (f : Sec → _) : (modSec s f).routers = s.routers := rfl
@[simp] theorem modSec_mifs (s : State) (f : Sec → _) : (modSec s f).mifs = s.mifs := rfl
@[simp] theorem modSec_flights (s : State) (f : Sec → _) : (modSec s f).flights = s.flights := rfl
@[simp] theorem modSec_mcRows (s : State) (f : Sec → _) : (modSec s f).mcRows = s.mcRows := rfl
@[simp] theorem modSec_epoch (s : State) (f : Sec → _) : (modSec s f).epoch = s.epoch := rfl
@[simp] theorem modSec_mgcGroups (s : State) (f : Sec → _) : (modSec s f).mgcGroups = s.mgcGroups := rfl
@[simp] theorem modSec_objs (s : State) (f : Sec → _) : (modSec s f).objs = s.objs := rfl
@[simp] theorem modSec_dram (s : State) (f : Sec → _) : (modSec s f).dram = s.dram := rfl
@[simp] theorem modSec_badGranules (s : State) (f : Sec → _) : (modSec s f).badGranules = s.badGranules := rfl
@[simp] theorem modSec_ilv (s : State) (f : Sec → _) : (modSec s f).ilv = s.ilv := rfl
@[simp] theorem modSec_stackBits (s : State) (f : Sec → _) : (modSec s f).stackBits = s.stackBits := rfl
@[simp] theorem modSec_tlbBusy (s : State) (f : Sec → _) : (modSec s f).tlbBusy = s.tlbBusy := rfl
@[simp] theorem modSec_mecs (s : State) (f : Sec → _) : (modSec s f).mecs = s.mecs := rfl
@[simp] theorem modSec_ses (s : State) (f : Sec → _) : (modSec s f).ses = s.ses := rfl
@[simp] theorem modSec_ring (s : State) (f : Sec → _) : (modSec s f).ring = s.ring := rfl
@[simp] theorem modSec_conf (s : State) (f : Sec → _) : (modSec s f).conf = s.conf := rfl
@[simp] theorem modSec_host (s : State) (f : Sec → _) : (modSec s f).host = s.host := rfl
@[simp] theorem modSec_span (s : State) (f : Sec → _) : (modSec s f).span = s.span := rfl
@[simp] theorem modSec_power (s : State) (f : Sec → _) : (modSec s f).power = s.power := rfl
@[simp] theorem modSec_boot (s : State) (f : Sec → _) : (modSec s f).boot = s.boot := rfl
@[simp] theorem modSec_dbg (s : State) (f : Sec → _) : (modSec s f).dbg = s.dbg := rfl

end Sys2Proof.Machine
end

