-- ==== Sys2Proof/Tests/Slice0.lean ====
section
/-! SUPPORT. Tests: the checks of WellFormed, single commands on small states, and a state that meets the hypotheses of each
statement. -/

set_option Elab.async false

namespace Sys2Proof.Tests

open Sys2Proof Sys2Proof.Machine

/-- Polder 1 runs a frame on the cluster of units 0 to 11; core 0 holds the slots ws. -/
def coreState (ws : List W64) : State :=
  { State.reset with
    polders := [(1, { state := 2, cfg := some { rects := [⟨0, 0, 0, 0⟩] },
                      frame := some { num := 0, start := 0, effDiv := 1, deadline := 1, dwTick := 4 } })]
    fields := [(0, { up := true, rowMap := [0] })]
    cores := [(0, { cfg := { slots := ws } })] }

/-- A bare instruction word of an opcode. -/
def opWord (o : Nat) : W64 := BitVec.ofNat 64 (o * 2 ^ 58)

/-- An instruction word of an opcode with the operand bits n. -/
def opWith (o n : Nat) : W64 := BitVec.ofNat 64 (o * 2 ^ 58 + n)

/-- A frame with one context in its batch. -/
def testFrame : Frame :=
  { num := 3, start := 0, effDiv := 1, deadline := 1, dwTick := 4, base := [(0, 0)], listed := false,
    batch := [{ ctx := 7, left := 1, pos := 0 }] }

/-- Polder 1, of no units, runs that frame. -/
def frameState : State := { State.reset with polders := [(1, { state := 2, frame := some testFrame, cfg := some {}, budget := 1000 })] }

/-- Each check of WellFormed refuses a term just beyond what it admits. -/
theorem test_wf_refuses : ∀ c ∈ ([.crossingRetime 64 .n, .crossingRetime 0 .n, .batchListWrite 256, .frameEndSignal 0xFFFFF, .nop 5,
    .faultSram 0 ⟨0xC000, false⟩, .faultSram 5 ⟨0xC0000, false⟩, .faultSram 6 ⟨0, true⟩, .switchFault 64 0, .switchFault 0 100, .livenessProbe 64, .seedWrite 8192,
    .seedArrival 5, .sfuInputEntry 5, .streamRepetition 6 0, .streamRepetition 5 8, .steeringGroup 0xFFFFF 0, .steeringGroup 0 4,
    .reconvStall 0xFFFFF 0 0, .reconvStall 0 5 0, .reconvStall 0 0 2, .write 0xFFFFF, .wclaimRequest 6, .dbg 0xFFFFF, .dread 32 ⟨.clean, .clean⟩] : List Instr),
    c.wf = false := by decide +kernel

theorem test_wf_refuses_rest : ∀ c ∈ ([.umsg 3, .ack 0xFFFFF, .seIteration ⟨512, ⟨.clean, .clean⟩⟩, .hostRead ⟨2, 0, [], 0, .clean⟩, .linkDown 2, .failover 2 0 ⟨[], 0⟩ .clean,
    .ackFrame 0 0 ⟨List.replicate 128 0, 0⟩ .clean, .spanDown 16, .polderLoad 8, .mbxEmpty 64, .tagcCfgWrite 5 0 0, .tagcCfgWrite 0 16 0, .wcCtlReset 0 0, .wcCtlReset 5 64,
    .winBaseWrite 0 0 0, .winBaseWrite 5 4 0, .debugWindowAccess ⟨3, 0, 0⟩ false 0 1 [], .smbusBlockRead 256, .governorTick [⟨64, 0, 0⟩] [],
    .governorTick [⟨0, 17, 0⟩] [], .regulatorReport 102 0 0, .regFault 101, .mgcCoreLost 2, .laneTransfer 0xFFFFF .scl 0,
    .laneTransfer 0 .scl (selCount .scl), .joinMove 0xFFFFF 0, .joinMove 0 4] : List Instr), c.wf = false := by decide +kernel

/-- And admits one at its bound. -/
theorem test_wf_admits : ∀ c ∈ ([.crossingRetime 63 .n, .batchListWrite 255, .nop 0, .faultSram 0 ⟨0xBFFF, false⟩, .faultSram 5 ⟨0xBFFFF, true⟩, .switchFault 63 99,
    .seedWrite 8191, .seedArrival 6, .streamRepetition 5 7, .steeringGroup 6 3, .reconvStall 5 4 1, .write (fcId 63), .dbg (mecId 31), .dread 31 ⟨.clean, .clean⟩,
    .umsg 2, .ack mgcId, .seIteration ⟨511, ⟨.clean, .clean⟩⟩, .hostWrite ⟨1, 0, List.replicate 127 0, 0, .clean⟩, .spanDown 15, .polderLoad 7, .mbxEmpty 63, .tagcCfgWrite 0 15 0, .wcCtlReset 5 63,
    .winBaseWrite 5 3 0, .debugWindowAccess ⟨2, 0, 0⟩ false 0 1 [], .smbusBlockRead 255, .governorTick [⟨63, 16, 0⟩] [], .regulatorReport 101 0 0,
    .regFault 100, .mgcCoreLost 1, .joinMove 0 3] : List Instr), c.wf = true := by decide +kernel

/-- EmptyQueueIdles. -/
theorem witness_emptyQueue : State.reset.pending = [] := rfl

/-- StepKeepsInv, KeySlotsMove, StepTakesOne: a state whose step goes on. -/
theorem witness_step : BlockInv State.reset ∧ ∃ t, step State.reset = .next t := by
  refine ⟨?_, _, rfl⟩
  unfold BlockInv; decide

/-- TickGeneratorFrame, DramFrame. -/
theorem witness_frames : tickCommand (.waferTick) = true ∧ tickCommand (.idleTick) = false ∧ dramCommand (.nop 0) = false ∧
    tickCommand (.nop 0) = false ∧ exec (.nop 0) State.reset = .next State.reset := ⟨rfl, rfl, rfl, rfl, rfl⟩

/-- CoreSequencerRuns, CoreScalarRuns, CoreVectorRuns, CoreMeshRuns and the other statements about issuing: for every opcode a
core that issues it. -/
theorem witness_issues_scalar : ∀ o ∈ [0x01, 0x02, 0x03, 0x04, 0x05, 0x06, 0x08, 0x09, 0x0A, 0x0B, 0x0C, 0x0D, 0x0E, 0x0F, 0x10,
    0x11, 0x12, 0x13, 0x14, 0x15, 0x16, 0x18, 0x19, 0x1A, 0x1B], Issues (coreState [opWord o]) 0 o 0 (opWord o) := by
  unfold Issues; decide

theorem witness_issues_vector : ∀ o ∈ [0x20, 0x21, 0x22, 0x23, 0x24, 0x25, 0x26, 0x27, 0x28, 0x29, 0x2A, 0x2B, 0x2C, 0x30, 0x31,
    0x32, 0x33, 0x36, 0x37, 0x38, 0x39, 0x3A, 0x3B, 0x3C, 0x3D], Issues (coreState [opWord o]) 0 o 0 (opWord o) := by
  unfold Issues; decide

/-- CoreMemoryRuns: accesses that draw no trap, and each that does. -/
theorem witness_memory : ∀ o ∈ [(0x18, 4, false), (0x19, 4, true), (0x1A, 64, false), (0x1B, 64, true)],
    (let s := coreState [opWord o.1]
     Issues s 0 o.1 0 (opWord o.1) ∧ accessTrap (getCore s 0) (memAddr (getCore s 0) (opWord o.1)) o.2.1 o.2.1 o.2.2 = none) ∧
    (let w := opWith o.1 (2)
     let s := coreState [w]
     Issues s 0 o.1 0 w ∧ accessTrap (getCore s 0) (memAddr (getCore s 0) w) o.2.1 o.2.1 o.2.2 = some (2, 2)) := by
  unfold Issues; decide

theorem test_access_edges : (let c := getCore (coreState []) 0
    accessTrap c 0xBFFC 4 4 true = none ∧ accessTrap c 0xC000 4 4 true = some (1, 0xC000) ∧ accessTrap c 32 64 64 true = some (2, 32) ∧
    accessTrap { c with cfg := { splBase := 0, splSize := 1024 } } 64 64 64 true = some (3, 64)) := by decide

/-- CoreTensorRuns: TMMA without a trap and with each cause that it can draw, TOUT to a queue and to local SRAM with and without a trap. -/
theorem witness_tensor :
    tmmaTrap (tmmaOf (getCore (coreState []) 0) (opWith 0x30 (2 ^ 16))) = none ∧
    (let w := opWith 0x30 (2 ^ 21 * 9 + 2 ^ 17 * 9 + 2 ^ 16 + 2 ^ 6 + 2 ^ 1 * 2)
     let s := { coreState [w] with cores := [(0, { cfg := { slots := [w] }, s := [0, 4, 8] ++ List.replicate 29 0 })] }
     Issues s 0 0x30 0 w ∧ tmmaTrap (tmmaOf (getCore s 0) w) = some (2, 4)) ∧
    (let w := opWith 0x34 (2 ^ 18)
     let s := coreState [w]
     Issues s 0 0x34 0 w ∧ fld w 18 18 = 1 ∧ accessTrap (getCore s 0) ((getCore s 0).s.getD (fld w 17 13) 0).toNat 256 64 true = none) ∧
    (let w := opWith 0x34 (2 ^ 18)
     let s := { coreState [w] with cores := [(0, { cfg := { slots := [w] }, s := 8 :: List.replicate 31 0 })] }
     Issues s 0 0x34 0 w ∧ accessTrap (getCore s 0) ((getCore s 0).s.getD (fld w 17 13) 0).toNat 256 64 true = some (2, 8)) ∧
    (let w := opWord 0x34
     let s := { coreState [w] with cores := [(0, { cfg := { slots := [w], qkind := 0x100 } })] }
     Issues s 0 0x34 0 w ∧ fld w 18 18 = 0) := by
  unfold Issues; decide

/-- TmmaStepRuns: a TMMA with its operands in local SRAM, and one whose stream is empty. -/
theorem witness_tmmaStep :
    (let t : Tmma := { acc := 0, sp := false, afmt := 9, wfmt := 9, asram := true, aq := 0, abase := 0, ascale := 0, wbase := 64, wscale := 0, wmeta := 0, k := 2 }
     let s := { coreState [] with cores := [(0, { tensor := [t] })] }
     isCc 0 = true ∧ (getCore s 0).tensor = [t] ∧ enginesRun s 0 = true ∧ stepReady (getCore s 0) t = true) ∧
    (let t : Tmma := { acc := 0, sp := false, afmt := 9, wfmt := 9, asram := false, aq := 0, abase := 0, ascale := 0, wbase := 64, wscale := 0, wmeta := 0, k := 2 }
     let s := { coreState [] with cores := [(0, { tensor := [t] })] }
     (getCore s 0).tensor = [t] ∧ stepReady (getCore s 0) t = false) := by decide

/-- Int8Accumulate: a sum within the range, one at each bound, one beyond each. -/
theorem witness_int8 : accumulateInt 0x7FFFFFF0 [15] = (0x7FFFFFFF, 0) ∧ accumulateInt 0x7FFFFFF0 [16] = (0x7FFFFFFF, 0x40) ∧
    accumulateInt 0x80000001 [-1] = (0x80000000, 0) ∧ accumulateInt 0x80000001 [-2] = (0x80000000, 0x40) := by decide

/-- NarrowE4M3, NarrowE5M2: 480.0, 65536.0, infinity, a quiet and a signalling NaN. -/
theorem witness_narrow : rd32 0x43F00000 = .fin false 15728640 (-15) ∧
    magGt (roundMag e4m3 15728640 (-15) none).n (roundMag e4m3 15728640 (-15) none).q 448 0 = true ∧
    rd32 0x47800000 = .fin false 8388608 (-7) ∧
    magGt (roundMag e5m2 8388608 (-7) none).n (roundMag e5m2 8388608 (-7) none).q 57344 0 = true ∧
    rd32 0xFF800000 = .inf true ∧ rd32 0x7FC00000 = .nan false ∧ rd32 0x7F800001 = .nan true := by decide

theorem test_narrow_max : narrow false 0 none 0x43E00000 = (0x7E, 0) ∧ narrow false 1 none 0xC7600000 = (0xFB, 0) := by decide

/-- CoreConvertRuns: VCVT from FP32 to nearest, from INT32 to INT8, widening; a conversion that waits for its seed, and one that
does not. -/
theorem witness_convert :
    ∀ n ∈ [0x1E000, 0x15200, 0x1E00, 0x1E100], Issues (coreState [opWith 0x2B n]) 0 0x2B 0 (opWith 0x2B n) := by
  unfold Issues; decide

theorem witness_convertWords :
    fld (opWith 0x2B (15 * 2 ^ 13)) 16 13 = 15 ∧ fld (opWith 0x2B (15 * 2 ^ 13)) 8 8 = 0 ∧
    fld (opWith 0x2B (10 * 2 ^ 13 + 9 * 2 ^ 9)) 12 9 = 9 ∧ fld (opWith 0x2B (10 * 2 ^ 13 + 9 * 2 ^ 9)) 16 13 = 10 ∧
    fld (opWith 0x2B (15 * 2 ^ 9)) 16 13 = 0 ∧ fld (opWith 0x2B (15 * 2 ^ 13 + 2 ^ 8)) 8 8 = 1 := by decide

theorem witness_convertSeed :
    (∀ b : Bool, let w := opWith 0x2C (2 ^ 6 + 2 * 2 ^ 7)
      let s := { coreState [w] with cores := [(0, { cfg := { slots := [w] }, srSet := true, srValid := b })] }
      Issues s 0 0x2C 0 w ∧ fld w 6 6 = 1 ∧ (getCore s 0).srSet = true ∧ (getCore s 0).srValid = b) ∧
    (∀ b : Bool, let w := opWith 0x2B (15 * 2 ^ 13 + 2 ^ 8)
      let s := { coreState [w] with cores := [(0, { cfg := { slots := [w] }, srSet := true, srValid := b })] }
      Issues s 0 0x2B 0 w ∧ fld w 8 8 = 1 ∧ fld w 16 13 = 15 ∧ (getCore s 0).srSet = true ∧ (getCore s 0).srValid = b) := by
  unfold Issues; decide

/-- SeedArrives. -/
theorem witness_seed :
    (let s := { coreState [] with cores := [(0, { srSet := true })] }
     isCc 0 = true ∧ (getCore s 0).srSet = true ∧ (getCore s 0).srValid = false) ∧
    (let s := { coreState [] with sfus := [(6, { sfetch := true })] }
     isSfu 6 = true ∧ isCc 6 = false ∧ (getSfu s 6).sfetch = true) := by decide

/-- MoversRun: a count of 64 and one of 0; movers with and without an entry to move. -/
theorem witness_movers :
    (∀ o ∈ [0x36, 0x37], let w := opWith o (2 ^ 17)
      let s := { coreState [w] with cores := [(0, { cfg := { slots := [w] }, s := [0, 64] ++ List.replicate 30 0 })] }
      Issues s 0 o 0 w ∧ moverTrap (getCore s 0) (moverOf (getCore s 0) w).addr (moverOf (getCore s 0) w).left true = none ∧
      moverTrap (getCore (coreState []) 0) 0 0 true = some (5, 0)) ∧
    (let k : Mover := { q := 0, addr := 0, left := 64 }
     let full : Queue := { ents := List.replicate 4 { bits := 1 } }
     let s := { coreState [] with cores := [(0, { inMover := some k, outMover := some k, iq := full :: List.replicate 3 {} })] }
     let s' := { coreState [] with cores := [(0, { inMover := some k, outMover := some k, oq := full :: List.replicate 3 {} })] }
     isCc 0 = true ∧ enginesRun s 0 = true ∧ enginesRun s' 0 = true ∧ (getCore s 0).inMover = some k ∧
     64 ≤ streamAvail (qAt (getCore s 0).iq 0) ∧ streamAvail (qAt (getCore s' 0).iq 0) < 64 ∧
     (qAt (getCore s 0).oq 0).ents.length + heldPlaces s 0 0 < 4 ∧ 4 ≤ (qAt (getCore s' 0).oq 0).ents.length + heldPlaces s' 0 0) := by
  unfold Issues; decide

/-- CoreMeshRuns: MPUT and MGET of 8 bytes, a multicast, and a count of 0. -/
theorem witness_coreMesh :
    (∀ x ∈ [(0x39, 0), (0x39, 0x80000000), (0x3A, 0)], let w := opWith x.1 (2 ^ 24 + 2 * 2 ^ 9)
      let s := { coreState [w] with cores := [(0, { cfg := { slots := [w] }, s := [0, BitVec.ofNat 32 x.2, 8] ++ List.replicate 29 0 })] }
      Issues s 0 x.1 0 w ∧ bitsOf ((getCore s 0).s.getD (fld w 28 24) 0).toNat 31 31 = x.2 / 0x80000000 ∧
      meshTrap (getCore s 0) 0 ((getCore s 0).s.getD (fld w 13 9) 0).toNat 248 true = none) ∧
    (∀ o ∈ [0x39, 0x3A], Issues (coreState [opWord o]) 0 o 0 (opWord o)) ∧
    meshTrap (getCore (coreState []) 0) 0 0 256 true = some (5, 0) := by
  unfold Issues; decide

/-- LowestReadySlotIssues: a void slot below two ready ones; a core that has ended, and one that holds a trap. -/
theorem witness_issueSlot : issueSlot (coreState [0, opWord 1, opWord 2]) 0 = some (1, opWord 1) ∧
    coreLive (coreState [0, opWord 1, opWord 2]) 0 = true ∧ slotReady (coreState [0, opWord 1, opWord 2]) 0 (opWord 2) = true ∧
    (getCore { coreState [] with cores := [(0, { fended := true })] } 0).fended = true ∧
    (getCore { coreState [] with cores := [(0, { trapCause := 4 })] } 0).trapCause ≠ 0 := by decide

/-- CoreFrame: an instruction that issues. -/
theorem witness_coreFrame : Issues (coreState [opWord 0x08]) 0 0x08 0 (opWord 0x08) := by unfold Issues; decide

/-- TickPeriodWhileRunning: polder 1 is RUNNING and ticks run. -/
theorem witness_tickRunning : (let s := { coreState [] with tick := { run := true } }
    (∃ x, (1, x) ∈ s.polders ∧ x.state = 2) ∧ s.tick.run = true) := by
  refine ⟨⟨_, List.mem_singleton.mpr rfl, rfl⟩, rfl⟩

/-- TickRegisters: no polder is RUNNING at reset. -/
theorem witness_tickRegisters : anyRunning State.reset = false ∧ State.reset.boot.ready = false ∧
    { State.reset.boot with ready := true }.ready = true := ⟨rfl, rfl, rfl⟩

/-- WaferTickCounts. -/
theorem witness_waferTick : ({ State.reset with tick := { run := true } }).tick.run = true ∧ State.reset.tick.run = false := ⟨rfl, rfl⟩

/-- FrameEndSignals: a core, an MU with and without a dirty line, an SFU. -/
theorem witness_frameEnd : ∀ u ∈ [0, 5, 6], isUnit u = true ∧ unitRuns (coreState []) u = true ∧ unitEnded (coreState []) u = false ∧
    unitFenced (coreState []) u = false ∧ rowAbsent (coreState []) u = false := by decide

theorem witness_frameEndKinds : coreEnds (coreState []) 0 = true ∧ isMu 5 = true ∧ isCc 5 = false ∧ muEnds (coreState []) 5 = true ∧
    (muWr (getMu (coreState []) 5) && muDirty (getMu (coreState []) 5)) = false ∧ isMu 6 = false ∧ isCc 6 = false ∧
    sfuEnds (getSfu (coreState []) 6) = true ∧
    (let s := { coreState [] with mus := [(5, { cfg := { modes := [2, 0, 0, 0], win := [0x80000000000000, 0, 0, 0] },
                                                win := [0x80000000000000, 0, 0, 0], lines := [(0, { wline := 0, dirty := true })] })] }
     muEnds s 5 = true ∧ muWr (getMu s 5) = true ∧ muDirty (getMu s 5) = true) := by decide

/-- FrameCompletes: a frame of a polder whose units have all signalled. -/
theorem witness_frameComplete : (getPolder frameState 1).frame = some testFrame ∧ (getPolder frameState 1).state = 2 ∧
    overBudget frameState 1 = false ∧ frameDone frameState 1 = true ∧ (batchCtxs testFrame).Nodup :=
  ⟨rfl, rfl, by decide, by decide, by decide⟩

/-- OverrunAndDikewatch: a field beyond the budget, and a halted frame whose dikewatch has fired. -/
theorem witness_overrun :
    (let s := { frameState with fields := [(0, { cclk := 1001 })] }
     (getPolder s 1).frame = some testFrame ∧ (getPolder s 1).budget.toNat < frameCycles s testFrame ∧ testFrame.causes.getLsbD 0 = false) ∧
    (let f := { testFrame with dikewatched := true }
     let s := { State.reset with polders := [(1, { state := 3, await := some f })] }
     (getPolder s 1).await = some f ∧ f.dikewatched = true) :=
  ⟨⟨rfl, by decide, rfl⟩, rfl, rfl⟩

theorem witness_dikewatch : (let f := { testFrame with dikewatched := true, dwRec := some (dwRecord State.reset 1 testFrame) }
    let s := { State.reset with polders := [(1, { state := 3, await := some f })] }
    (getPolder s 1).await = some f ∧ f.dwRec = some (dwRecord State.reset 1 testFrame)) := ⟨rfl, rfl⟩

/-- BatchListWritten. -/
theorem witness_batchList : (getPolder frameState 1).frame = some testFrame ∧ (getPolder frameState 1).cfg = some {} ∧
    testFrame.listed = false ∧ (getMif frameState mgcId).outst.any (fun o => o.use == .mgcList 1 testFrame.num.toNat) = false := ⟨rfl, rfl, rfl, rfl⟩

/-- RouteEpochSteps: a change armed, draining, drained and expired. -/
theorem witness_epoch : routersHold State.reset = false ∧ (∀ a b : Bool,
    (let s := { State.reset with epoch := { draining := true, drained := a, expired := b } }
     s.epoch.draining = true ∧ s.epoch.drained = a ∧ s.epoch.expired = b ∧ routersHold s = false)) ∧
    (let s := { State.reset with epoch := { draining := true }, flights := [{ net := .req, loc := .router 12 .unit, pkt := { src := 12, dest := 0, op := 1, vc := 1 } }] }
     routersHold s = true) ∧
    (let s := { State.reset with epoch := { armed := true } }
     s.epoch.draining = false ∧ s.epoch.armed = true) := ⟨rfl, fun _ _ => ⟨rfl, rfl, rfl, rfl⟩, rfl, rfl, rfl⟩

/-- RouterMovesHeads, Vc0GoesFirst: a request of unit 12, of polder 2, to unit 0 of polder 1. -/
def dikeState : State :=
  { State.reset with
    polders := [(1, { state := 1, cfg := some { rects := [⟨0, 0, 0, 0⟩] } }), (2, { state := 1, cfg := some { rects := [⟨1, 1, 0, 0⟩] } })]
    fields := [(0, { up := true, rowMap := [0] })]
    flights := [{ net := .req, loc := .router 12 .unit, pkt := { src := 12, dest := 0, op := 1, vc := 1, payload := [0] } }] }

theorem witness_router : isUnit 12 = true ∧ neighbour 12 .w = some 11 ∧ ownerOf dikeState 11 = some 1 ∧ ownerOf dikeState 0 = some 1 ∧
    ownerOf dikeState 12 = some 2 ∧ isFixed 12 = false ∧ (moveHead .req 12 (fun p => p.op != opRelease) dikeState).isSome = true ∧
    (moveHead .rpl 12 (fun p => p.op != opRelease) dikeState).isNone = true ∧
    dikeCode dikeState .req 12 11 { src := 12, dest := 0, op := 1 } = some nkDike ∧
    placeFree dikeState .req (.router 11 (.side .e)) 1 3 = true ∧ heldFree dikeState .req 12 (.side .w) { src := 12, dest := 0, op := 1 } = true ∧
    answerRoom dikeState 11 1 = true ∧ answerRoom { dikeState with flights := List.replicate 3 { net := .rpl, loc := .router 11 .unit, pkt := { src := 11, dest := 12, op := 9, vc := 1, payload := [0] } } } 11 1 = false ∧
    crossingOpen dikeState 12 11 3 = true ∧ forwards dikeState (fieldOf 11) = true := by decide

theorem witness_release :
    (let f : Flight := { net := Net.req, loc := Loc.router 12 .unit, pkt := { src := 12, dest := 0, op := 7, vc := 3 } }
     ({ dikeState with flights := [f] }).flights.find? (fun g => g.net == Net.req && g.pkt.op == opRelease && routerOf { dikeState with flights := [f] } g == some 12)
       = some f) := by decide

/-- HeldPathsLinksAndWaits. -/
theorem witness_meshWaits :
    (Port.side .e, 12) ∈ (getRouter { State.reset with routers := [(12, { heldOut := [(.side .e, 12)] })] } 12).heldOut ∧
    linkDown State.reset .req 12 .e = false ∧
    ({ State.reset with flights := [{ net := .req, loc := .replica 12 .e, pkt := { src := 0, dest := 12, op := 2 } }] }).flights.any
      (fun f => match f.loc with | .replica v _ => v == 12 | _ => false) = true ∧
    ({ State.reset with flights := [{ net := .req, loc := .inject, pkt := { src := 12, dest := 0, op := 1 } }] }).flights.any
      (fun f => f.loc == Loc.inject && f.pkt.src == 12 && f.pkt.op == opMsg) = true ∧
    (let p : Packet := { src := 0, dest := 12, op := 1, payload := [0] }
     let s := { State.reset with cores := [(12, { inbox := List.replicate 16 ⟨0, 0, [0]⟩ })], flights := [{ net := .req, loc := .arrived 12, pkt := p }] }
     nextReq s 12 opMsg = some p ∧ acceptMsg (getCore s 12) { tag := p.tag, src := p.src, words := p.payload } = none) := by decide

/-- FabricMoves: switch 0 with the vector word that drives lane E0 and input queue 0 from the unit's output queue 0, and scalar
input queue 0 from scalar output queue 1; its neighbour hears lane W0. -/
def fabricState (w w' : BitVec 768) : State :=
  { coreState [] with
    cores := [(0, { cfg := { qkind := 0x0901 }, oq := [{ ents := [{ bits := 5 }] }, { ents := [{ bits := 7 }] }, {}, {}] })]
    switches := [(0, { word := w, joins := [{ f0 := [{ bits := 1 }], f1 := [{ bits := 2 }] }, {}, {}, {}],
                       ca0 := { f0 := [{ bits := 1 }], f1 := [{ bits := 2 }] },
                       vin := [[{ bits := 3 }], [], [], [], [], [], [], []],
                       steer := [{ tokq := [0] }, {}, {}, {}] }), (1, { word := w' })] }

theorem witness_laneOut :
    (let s := fabricState (BitVec.ofNat 768 (9 * 2 ^ 12)) (BitVec.ofNat 768 (7 * 2 ^ 12))
     selLive s 0 .vec 2 = true ∧ (srcHead s 0 .vec (sourceOf (getSw s 0).word .vec 2)).isSome = true ∧ neighbour 0 (dirOf 1) = some 1 ∧
     notTaken (getSw s 0) .vec 9 2 = true ∧ laneActive s 0 1 .vec 2 6 = true ∧ (namers (getSw s 1).word .vec 7).isEmpty = false ∧
     crossingOpen s 0 1 1 = true ∧ (skid (getSw s 1) .vec 6).length < 4 ∧ syncSlot s 0 1 = false) := by decide +kernel

theorem witness_laneQueue :
    (let s := fabricState (BitVec.ofNat 768 (9 * 2 ^ 48 + 10 * 2 ^ 216)) 0
     unitFenced s 0 = false ∧ selLive s 0 .vec 8 = true ∧ (srcHead s 0 .vec (sourceOf (getSw s 0).word .vec 8)).isSome = true ∧
     notTaken (getSw s 0) .vec 9 8 = true ∧ iqRoom (twoIn (getSw s 0).word 0) (qAt (unitIqs s 0) 0) 0 = true ∧
     selLive s 0 .scl 8 = true ∧ (srcHead s 0 .scl (sourceOf (getSw s 0).word .scl 8)).isSome = true ∧
     (qAt (unitIqs s 0) 0).ents.length < 8) := by decide +kernel

theorem witness_elements :
    (let s := fabricState (BitVec.ofNat 768 (2 ^ 600 + 2 ^ 636 + 2 ^ 568 + 2 ^ 96)) 0
     elemLive s 0 = true ∧ elemOn (getSw s 0).word 0 = true ∧ elemOn (getSw s 0).word 4 = true ∧
     selCode (getSw s 0).word .vec 25 = 0 ∧ steerMode (getSw s 0).word 0 = 1 ∧ steerG (getSw s 0).word 0 = 1 ∧
     hasFollower (getSw s 0).word 0 = false ∧ (steerHead s 0 0 0).isSome = true) := by decide +kernel

theorem witness_stall :
    (let s := { fabricState (BitVec.ofNat 768 (2 ^ 600)) 0 with
       switches := [(0, { word := BitVec.ofNat 768 (2 ^ 600), joins := [{ f0 := List.replicate 4 { bits := 1 } }, {}, {}, {}] })],
       crossings := [(1, (.meso, true))] }
     elemOn (getSw s 0).word 0 = true ∧ sideStalled (getSw s 0) 0 0 = true ∧ ownerOf s 0 = some 1 ∧
     crossingAt 0 .e = some 1 ∧ (mget? s.crossings 1).isSome = true) := by decide +kernel

/-- SfuAndMuRun: SFU 6 with one descriptor, MU 5 with one in each direction, one gated. -/
def streamState : State :=
  { coreState [] with
    sfus := [(6, { cfg := { descs := [{ func := 0, a := 0x3F800000, c := 0x3F800000 }] }, siq := [{ ents := [{ bits := 5 }] }, {}, {}, {}] })]
    mus := [(5, { cfg := { modes := [1, 0, 0, 0], sds := [{ rep := 1, len := 128 }, { dir := true, rep := 1, len := 64 }, { rep := 1, gate := 2, len := 64 }] },
                  miq := [{ ents := [{ bits := 5 }] }, { ents := [{ bits := 0 }] }, {}, {}],
                  prog := [{ left := 1, running := true }, { left := 1, running := true }, { left := 1 }, {}, {}, {}, {}, {}] })] }

theorem witness_stream : isSfu 6 = true ∧ unitRuns streamState 6 = true ∧
    ((numbered (getSfu streamState 6)).find? (fun e => descOpen (getSfu streamState 6) e.2.1 e.2.2 && needSeed (getSfu streamState 6) e.2.1 e.2.2)).isNone = true ∧
    ((numbered (getSfu streamState 6)).find? (fun e => descOpen (getSfu streamState 6) e.2.1 e.2.2 && !needSeed (getSfu streamState 6) e.2.1 e.2.2)).isSome = true ∧
    isMu 5 = true ∧ unitRuns streamState 5 = true ∧ bankMode (getMu streamState 5) 0 = 1 ∧ (getMu streamState 5).cfg.sds.length = 3 ∧
    ((getMu streamState 5).prog.getD 0 {}).running = true ∧ ((getMu streamState 5).prog.getD 1 {}).running = true ∧
    ((getMu streamState 5).prog.getD 2 {}).left = 1 ∧ (qAt (getMu streamState 5).miq 1).ents.length = 1 := by decide +kernel

/-- UnitsServeAccesses: a WRITE and a READ at core 0, at the SCRATCH and the FIFO bank of MU 5, and at the controller of field 0. -/
def accessState : State :=
  { coreState [] with
    mus := [(5, { cfg := { modes := [1, 3, 0, 0] }, fifo := [{}, { held := 1 }, {}, {}] })]
    flights := [{ net := .req, loc := .arrived 0, pkt := { src := 12, dest := 0, op := opWrite, len := 0, payload := [7] } },
                { net := .req, loc := .arrived 0, pkt := { src := 13, dest := 0, op := opRead, len := 0 } },
                { net := .req, loc := .arrived (fcId 0), pkt := { src := mgcId, dest := fcId 0, op := opWrite, len := 0, payload := [7] } },
                { net := .req, loc := .arrived 5, pkt := { src := 12, dest := 5, op := opWrite, len := 0, payload := [7] } }] }

def fifoState (op k : Nat) : State :=
  { accessState with
    flights := [{ net := .req, loc := .arrived 5, pkt := { src := 12, dest := 5, op := op, len := 7, daddr := k, payload := if op = opWrite then List.replicate 8 7 else [] } }] }

theorem witness_access : isUnit 0 = true ∧ isMu 0 = false ∧ isMu 5 = true ∧ portCode accessState 0 = none ∧ portCode accessState 5 = none ∧
    (∀ u ∈ [0, 5, fcId 0], replyWaits accessState u = false) ∧ (∀ op ∈ [opWrite, opRead], replyWaits (fifoState op 0) 5 = false) ∧
    (nextReq accessState 0 opWrite).isSome = true ∧ (nextReq accessState 0 opRead).isSome = true ∧
    (nextReq accessState 5 opWrite).isSome = true ∧ (nextReq accessState (fcId 0) opWrite).isSome = true ∧
    inRing (getCore accessState 0) 0 8 = false ∧ bankMode (getMu accessState 5) 0 = 1 ∧ bankMode (getMu accessState 5) 1 = 3 ∧
    (nextReq (fifoState opWrite 0xC2000) 5 opWrite).isSome = true ∧ (nextReq (fifoState opRead 0xC2000) 5 opRead).isSome = true ∧
    (nextReq (fifoState opRead 0) 5 opRead).isSome = true ∧ 8 * 0xC2000 = 0x600000 + 0x10000 := by decide +kernel

/-- UnitsServeMessages: a MSG at core 0 with an empty ring, with a full inbox and room in the ring, and with neither; a claim and
its repeat, and a WDONE, at counters of both modes of MU 5. -/
def msgState (inbox : List Msg) (used : Nat) : State :=
  { coreState [] with
    cores := [(0, { cfg := { splBase := 0, splSize := 64 }, inbox := inbox, ringUsed := used })]
    flights := [{ net := .req, loc := .arrived 0, pkt := { src := 12, dest := 0, op := opMsg, len := 0, payload := [7] } }] }

theorem witness_msg :
    (nextReq (msgState [] 0) 0 opMsg).isSome = true ∧ replyWaits (msgState [] 0) 0 = false ∧ portCode (msgState [] 0) 0 = none ∧
    (let m : Msg := { tag := 0, src := 12, words := [7] }
     (ringPlace (getCore (msgState (List.replicate 16 m) 0) 0) m).isSome = true ∧
     (ringPlace (getCore (msgState (List.replicate 16 m) 64) 0) m).isNone = true ∧
     (getCore (msgState [] 16) 0).ringUsed > 0) := by decide +kernel

def wcState (mode : Nat) (op : Nat) (rs : List Replay) : State :=
  { coreState [] with
    mus := [(5, { cfg := { modes := [4, 0, 0, 0] }, wc := [(0, { mode := mode, limit := 4 })], replay := rs })]
    flights := [{ net := .req, loc := .arrived 5, pkt := { src := 12, dest := 5, op := op, len := 0, seq := 3, payload := [0] } }] }

theorem witness_wc :
    (∀ m ∈ [1, 2], ∀ op ∈ [opWclaim, opWdone], (nextReq (wcState m op []) 5 op).isSome = true ∧ replyWaits (wcState m op []) 5 = false ∧ portCode (wcState m op []) 5 = none ∧
      wcUsable (getMu (wcState m op []) 5) 0 = true ∧ (getWc (getMu (wcState m op []) 5) 0).mode = m ∧ winWaits (getMu (wcState m op []) 5) 0 = false) ∧
    ((getMu (wcState 1 opWclaim [{ c := 0, src := 12, seq := 3, val := 1 }]) 5).replay.find? (fun r => r.c == 0 && r.src == 12)).isSome = true := by
  decide +kernel

/-- SyncSignalsCount, SyncWaits: the management complex sends a SYNC to object 3 of field 0, of polder 1. -/
def syncState (sop v : Nat) (ws : List Waiter) : State :=
  { coreState [] with
    objs := [(3, { value := 5, owner := 1, alloc := true })]
    fields := [(0, { up := true, rowMap := [0], waiters := ws })]
    flights := [{ net := .req, loc := .arrived (fcId 0), pkt := { src := mgcId, dest := fcId 0, op := opSync, len := 0, payload := [BitVec.ofNat 64 (v + 3 * 2 ^ 32 + sop * 2 ^ 42)] } }] }

theorem witness_sync : (∀ k ∈ [0, 1, 2, 3, 4], (nextReq (syncState k 7 []) (fcId 0) opSync).isSome = true ∧
    bitsOf (((nextReq (syncState k 7 []) (fcId 0) opSync).map (fun p => (p.payload.headD 0).toNat)).getD 0) 44 42 = k ∧
    ((nextReq (syncState k 7 []) (fcId 0) opSync).map (syncCode (syncState k 7 []) 3 k)) = some none) ∧
    waitHolds { obj := 3, src := 0, seq := 0, ctx := 0, eq := false, val := 7 } 5 = false ∧
    waitHolds { obj := 3, src := 0, seq := 0, ctx := 0, eq := true, val := 5 } 5 = true := by decide +kernel

/-- RepliesComplete: a reply of an opcode to core 0, and a request of it with that SEQ. -/
def replyState (op arg : Nat) (use : Use) (q : Nat) : State :=
  { coreState [] with
    mifs := [(0, { cfg := 0x01000000, outst := [{ pkt := { src := 0, dest := 5, op := opWrite, seq := 3 }, use := use, delayed := decide (q = 9), resends := if q = 8 then 1 else 0 }] })]
    flights := [{ net := .rpl, loc := .arrived 0, pkt := { src := 5, dest := 0, op := op, seq := q, arg := arg, payload := [7] } }] }

theorem witness_reply :
    (∀ x ∈ [(opAck, Use.put none), (opAck, .sync true none), (opRdata, .get 0 none), (opWval, .claim 0 none), (opWsat, .sync true none),
            (opMcAck, .mput [1] [] [] none none), (opMcNack, .mput [1, 2] [] [] none none), (opNack, .put none)],
      (arrivedWith (replyState x.1 1 x.2 3) 0 x.1).isSome = true ∧ (findOut (replyState x.1 1 x.2 3) 0 3).isSome = true ∧
      (findOut (replyState x.1 1 x.2 4) 0 4).isNone = true) ∧
    ((findOut (replyState opNack 1 (.put none) 3) 0 3).map (timerRuns (replyState opNack 1 (.put none) 3) 0)) = some true ∧
    ((findOut (replyState opNack 1 (.put none) 9) 0 3).map (·.delayed)) = some true ∧
    ((findOut (replyState opNack 1 (.put none) 8) 0 3).map (·.resends)) = some 1 ∧
    bitsOf (getMif (replyState opNack 1 (.put none) 8) 0).cfg.toNat 27 24 = 1 := by decide +kernel

/-- DramServes: a DREAD and a DWRITE of the active Nimmos port at MEC 0, a cached translation, and a walk on the ring. -/
def dramState (op w : Nat) (ring : List RingMsg) : State :=
  { coreState [] with
    stackBits := 1
    ring := ring
    power := { doms := [(96, { st := 1 })] }
    mecs := [(0, { mirror := [(7, (0, 2))], tlb := [(7, 0, 3), (7, 1, 3 + 0x20000)] })]
    flights := [{ net := .req, loc := .arrived (mecId 0), pkt := { src := naId 0, dest := mecId 0, op := op, len := if op = opDread then 0 else 1, ctx := 7, payload := BitVec.ofNat 64 w :: (if op = opDread then [] else [9]) } }] }

theorem witness_dram :
    (∀ op ∈ [opDread, opDwrite], ∀ w ∈ [0, 2 ^ 38, 2 ^ 38 + 8192], let s := dramState op w []
      (nextReq s (mecId 0) op).isSome = true ∧ (nextReq s (mecId 0) op).bind dramForm = none ∧
      (nextReq s (mecId 0) op).map (fun p => mayAccess s p 0 8 true false) = some true ∧ failing s [0] .clean = [] ∧ replyWaits s (mecId 0) = false ∧ trkFree s 0 1 = true ∧
      stackOn s (stackOf s 0) = true ∧ (mirrorOf s 0 7).2 = 2) ∧
    (tlbFind (dramState opDread 0 []) 0 7 0).isSome = true ∧ (tlbFind (dramState opDread 0 []) 0 7 1).isSome = true ∧
    stackOf (dramState opDread 0 []) 0x20000 = 0 ∧ stackOf (dramState opDread 0 []) 0x21000 = 1 ∧
    (match pteCheck 3 0 true with | .ok pa => pa == 0 | .error _ => false) = true ∧ targetOff (dramState opDread 0 []) (mecId 1) = false ∧
    (let m : RingMsg := { dest := 0, reply := false, pkt := { src := naId 0, dest := mecId 0, op := opDread }, pa := 0, walk := true }
     (takeRing 0 false [m]).isSome = true ∧ (takeRing 0 true [{ m with reply := true }]).isSome = true ∧ targetOff (dramState opDread 0 [m]) (mecId 0) = false ∧
     trkFree (dramState opDread 0 [m]) 0 1 = true) := by decide +kernel

theorem witness_walk :
    (let p : Packet := { src := mecId 0, dest := mecId 1, op := opDread, ctx := 7, payload := [0] }
     let s := { dramState opDread 0 [] with ses := [(3, { walk := some (7, 0) })] }
     (getSe s 3).walk = some (7, 0) ∧ awAddr (p.payload.headD 0) / 8192 = 0 ∧
     (match sePage 3 0 false with | .ok f => f == 0 | .error _ => false) = true ∧
     (match sePage 0 0 false with | .ok _ => false | .error _ => true) = true) := by decide +kernel

/-- DramMaintenance. -/
theorem witness_maintenance : stackOn (dramState 0 0 []) 0 = true ∧ State.reset.polders.all (fun e => e.2.state == 0) = true ∧
    scrubBehind (dramState 0 0 []) (scrubNext (getMec (dramState 0 0 []) 0)) = false ∧ (dramState 0 0 []).badGranules = [] ∧ foreground (dramState 0 0 []) 0 = false ∧ (getMec (dramState 0 0 []) 0).calLeft = 0 ∧ tripDue (mecTelemetry 0 ⟨70, 0⟩ (dramState 0 0 [])) = false ∧
    (getMec { State.reset with mecs := [(0, { calLeft := 32 })] } 0).calLeft ≠ 0 := by decide +kernel

/-- EnginesRun: engine 0, of polder 1, with one descriptor. -/
def engineState (d : SeDesc) (f : Se → Se) : State :=
  { frameState with
    stackBits := 1
    power := { doms := [(0, { st := 1 }), (96, { st := 1 })] }
    polders := [(1, { state := 2, frame := some testFrame, cfg := some { grants := [⟨0, 4096, false⟩] } })]
    ses := [(0, f { owner := 1, assigned := true, running := true, cfg := [d], pfdepth := 4 })] }

def oneRow : SeDesc := { rowb := 64, rows := 1, planes := 1, unit := 5 }

theorem witness_engine :
    (let s := engineState { oneRow with ctxsel := true } id
     targetOff s (mecId 0) = false ∧ (seDesc (getSe s 0)).isSome = true ∧ (getPolder s 1).frame.isSome = true) ∧
    (let s := engineState { oneRow with gateEn := true, gateVal := 5 } id
     seGate { oneRow with gateEn := true, gateVal := 5 } 0 = some 5 ∧ (getSe s 0).gateSent = false) ∧
    (let s := engineState oneRow id
     seGate oneRow 0 = none ∧ seTrans s 0 = 0 ∧
     trkFree s 0 8 = true ∧ (match (seResolve 0 1 oneRow 0 ((seChunk oneRow 0 0 32 0 0).1.filterMap id) .clean s).1 with | .ok l => l.length == 8 | .error _ => false) = true ∧
     (seChunk oneRow 0 0 32 0 0).2.1 ≥ oneRow.rows * oneRow.planes) ∧
    (let s := engineState { oneRow with doneEn := true } (fun x => { x with desc := 1, openIts := [0] })
     (getSe s 0).openIts.find? (fun k => !(((getSe s 0).running && decide ((getSe s 0).desc < (getSe s 0).cfg.length)) &&
       k == seKey (getSe s 0).desc (getSe s 0).iter) && !seBusy s 0 k) = some 0) := by decide +kernel

/-- LinkRuns: NA in a state, NB in another, an event logged, a message for the host. -/
def linkState (a b : Nat) : State :=
  { State.reset with
    power := { doms := [(100, { st := 1 })] }
    host := { na := { st := a, ecredit := 4, tx := [(0, .evt [])], failSent := some (1, 0, true), failDone := false }, nb := { st := b }, log := [{ code := 0x10 }] }
    flights := [{ net := .req, loc := .arrived (naId 0), pkt := { src := 0, dest := naId 0, op := opMsg } }] }

/-- A whole frame of a port. -/
def frameOf (port : Nat) (h : BitVec 128) (p : List W64) : LinkFrame :=
  { port := port, header := h, payload := p, crc := crc32 (frameBytes h p), fec := .clean }

/-- The check value of CRC-32: of the nine bytes "123456789". -/
theorem test_crc32 : crc32 [0x31, 0x32, 0x33, 0x34, 0x35, 0x36, 0x37, 0x38, 0x39] = 0xCBF43926 := by decide +kernel

theorem witness_linkFrames :
    (∀ h ∈ [(0, 0), (2 ^ 44, 0), (5 + 2 ^ 44, 5), (5 + 2 ^ 44 + 2 ^ 45, 5)], let fr := frameOf 0 (BitVec.ofNat 128 h.1) []
      frGood fr = true ∧ frType fr = h.2 ∧ frBit44 fr = h.1 / 2 ^ 44 % 2) ∧ frType (frameOf 0 2 []) = 2 ∧
    frGood { frameOf 0 0 [] with crc := 0 } = false ∧ frBit44 (frameOf 0 5 []) = 0 := by decide +kernel

theorem witness_link : eventPort (linkState 2 2) = some 0 ∧ hasCredit (linkState 2 2) 0 = true ∧
    (nextReq (linkState 2 2) (naId 0) opMsg).isSome = true ∧ (getPort (linkState 2 2) 0).st = 2 ∧ (getPort (linkState 2 2) 1).st = 2 ∧
    (getPort (linkState 1 0) 0).st = 1 ∧ (getPort (linkState 1 0) 0).en = true ∧ domOn (linkState 1 0) 100 = true ∧
    (getPort (linkState 1 0) 1).st = 0 := by decide +kernel

/-- SpanRuns: span port 0 UP, with a window, a request and a relay entry; a table in DRAM; the two commands. -/
def spanState (st op : Nat) (opc : Nat) : State :=
  { State.reset with
    boot := { State.reset.boot with ready := true }
    power := { doms := [(96, { st := 1 })] }
    span := { waferId := 1, en := true, ports := [(0, { st := st, win := [(0, 0xF)], egress := [{ seq := 3, src := 0, rseq := 1, land := 0 }] })] }
    dram := [(2, 0x10), (3, 0x02)]
    stackBits := 1
    mifs := [(spId 0, { outst := [{ pkt := { src := spId 0, dest := 0, op := opRead, seq := 3 }, use := .relay 0 0 0 }] })]
    host := { queues := [(0, { sqTail := 1, sq := [(0, BitVec.ofNat 64 opc)] })] }
    flights := [{ net := .req, loc := .arrived (spId 0), pkt := { src := 0, dest := spId 0, op := op, len := 0, payload := if op = opRead then [] else [7] } }] }

theorem witness_span : (∀ op ∈ [opMsg, opWrite, opRead], (let s := spanState 2 op 0x80
      (s.flights.find? (fun f => f.loc == .arrived (spId 0) && f.net == .req)).isSome = true ∧
      (s.flights.find? (fun f => f.loc == .arrived (spId 0) && f.net == .req)).map (fun f => egressCode (getSpan s 0) f.pkt) = some none ∧
      (s.flights.find? (fun f => f.loc == .arrived (spId 0) && f.net == .req)).map (fun f => (egressEntry f.pkt (getSpan s 0)).isSome) = some true)) ∧
    (egressCode {} { src := 0, dest := spId 0, op := opRead, len := 0 }).isSome = true ∧
    (getSpan (spanState 2 1 0x80) 0).st = 2 ∧ (getSpan (spanState 1 1 0x80) 0).st = 1 ∧ (findOut (spanState 2 1 0x80) (spId 0) 3).isSome = true := by decide +kernel

theorem witness_spanCmds : Taken (spanState 2 1 0x80) 0 0x80 ∧ Taken (spanState 2 1 0x81) 0 0x81 ∧
    (let es := spanTableAt (spanState 2 1 0x80) 0
     es.all spanEntOk = true ∧ es.getD 1 0 % 32 = 16 ∧ bitsOf (es.getD 1 0) 9 5 = 16) ∧ dramRange 0 128 = true ∧
    rangeOff (spanState 2 1 0x80) 0 128 = false ∧ (badIn (spanState 2 1 0x80) 0 128).isNone = true ∧ domOn (spanState 2 1 0x80) 96 = true := by
  refine ⟨⟨?_, ?_, ?_, ?_⟩, ⟨?_, ?_, ?_, ?_⟩, ⟨?_, ?_, ?_⟩, ?_, ?_, ?_, ?_⟩ <;> decide +kernel

/-- A whole span frame of a type: of REACH and DATA with no payload. -/
def spanFrameOf (h : Nat) (p : List W64) : SpanIn :=
  { header := BitVec.ofNat 128 h, payload := p, crc := crc32 (frameBytes (BitVec.ofNat 128 h) p), fec := .clean }

theorem witness_spanFrames : (∀ t ∈ [0, 1, 2], let fr := spanFrameOf t []
    spanWhole fr = true ∧ spBits fr 3 0 = t ∧ spSeq fr = 0 ∧ spBits fr 44 44 = 0 ∧ seqBelow (spSeq fr) 1 = true) ∧
    spanWhole { spanFrameOf 1 [] with crc := 0 } = false ∧ (spanUnpack 0 []).isSome = true ∧ (spanUnpack 1 [7]).isNone = true := by decide +kernel

/-- A WRITE of one word to unit 5 under a SEQ, as 07 R249 and 13 R443 lay its tag, head and route flits out. -/
theorem test_spanUnpack : spanUnpack 4 [0x1042, 0x0000510000000008, 0x0004000300000000, 9] =
    some [{ dwafer := 2, swafer := 1, hops := 1, reply := false,
            pkt := { dest := 5, op := opWrite, daddr := 8, src := 0x40, seq := 3, vc := 2, payload := [9] } }] := by decide +kernel

/-- PolderCommandsRun: polder 1 in a state, with a command of an opcode for it at the head of queue 0. -/
def commandState (opc st : Nat) (f : Option Frame) : State :=
  { State.reset with
    boot := { State.reset.boot with ready := true }
    tick := { run := true }
    polders := [(1, { state := st, cfg := some {}, frame := f })]
    host := { queues := [(0, { sqTail := 1, sq := [(0, BitVec.ofNat 64 opc), (1, 1)] })] } }

theorem witness_polderCmds :
    (∀ x ∈ [(2, 1), (3, 2), (4, 3), (5, 1), (5, 3), (6, 1), (6, 3)], ∀ f ∈ [none, some testFrame], (let s := commandState x.1 x.2 f
      qReady (getQ s 0) = true ∧ (headCmd s 0).opc = BitVec.ofNat 8 x.1 ∧ s.boot.ready = true ∧ (getPolder s 1).state = x.2 ∧
      (getPolder s 1).frame.isSome = f.isSome ∧ bitsOf (headCmd s 0).a0.toNat 7 0 = 1 ∧ budgetFits {} (nextPeriod s) = true ∧
      polderDown (takeCmd 0 s) 1 = false ∧ ctxsOf s 1 [1, 2, 3, 4, 5] = [] ∧ (getPolder s 1).releasing = false ∧
      polderDirty (takeCmd 0 s) 1 = false)) ∧
    budgetFits { budget := 0xFFFFFFFF } (nextPeriod State.reset) = false := by decide +kernel

theorem witness_polderDirty :
    (let s := { commandState 6 4 none with
       boot := { State.reset.boot with ready := true }
       fields := [(0, { up := true, rowMap := List.range 96 })]
       polders := [(1, { state := 4, releasing := true, cfg := some { rects := [⟨0, 0, 0, 0⟩] } })]
       mus := [(5, { lines := [(0, { wline := 0, dirty := true })] })] }
     (getPolder s 1).state = 4 ∧ (getPolder s 1).releasing = true ∧ polderDirty s 1 = true ∧ polderDirty { s with mus := [] } 1 = false) := by
  decide +kernel

/-- ConfigCommandsRun: a POLDER bitstream of one cluster and no record, staged at 4 GiB, under a signature that verifies. -/
def stagedCells (kind : Byte) : Bytes :=
  [(0x100000000, 0x4C), (0x100000001, 0x59), (0x100000002, 0x57), (0x100000003, 0x32), (0x100000004, 1), (0x100000006, kind),
   (0x100000008, 0xC0), (0x100000009, 3), (0x100000018, 1), (0x100000019, 1), (0x100000028, 0x40), (0x100000030, 0x40), (0x100000031, 3),
   (0x100000034, 0x40), (0x100000035, 3), (0x100000040, 1), (0x100000045, 3), (0x100000340, 1)]

/-- A ROUTE bitstream of one CAUSEWAY record, of field 0. -/
def routeCells : Bytes :=
  [(0x100000000, 0x4C), (0x100000001, 0x59), (0x100000002, 0x57), (0x100000003, 0x32), (0x100000004, 1), (0x100000006, 2),
   (0x100000008, 0x20), (0x100000009, 1), (0x100000020, 1), (0x100000030, 0x40), (0x100000034, 0xA0),
   (0x100000042, 1), (0x100000044, 0x60), (0x100000050, 0xFF), (0x100000051, 3), (0x100000052, 1), (0x100000054, 0x50),
   (0x100000058, 0xFF), (0x100000059, 0x0F), (0x10000005A, 0x40)] ++
  (List.range 57).map (fun i => (0x100000060 + i, 0x11)) ++ [(0x100000099, 1), (0x1000000A0, 1)]

def loadState (opc st : Nat) (cells : Bytes) : State :=
  { commandState opc st none with
    dram := cells
    stackBits := 0xFFFFFFFF
    fields := [(0, { up := true, rowMap := List.range 96 })]
    sec := { slotState := [1, 0, 0, 0], slotKey := [0, 0, 0, 0], svnMin := 0, nonce := 0 }
    polders := [(1, { state := st, cfg := if st = 0 then none else some { rects := [⟨0, 0, 0, 0⟩], units := [(5, .mu { modes := [0, 0, 0, 5] })] },
                      slotValid := 1, slotCfg := [(0, {})], staging := some {} })]
    conf := { stageEn := true, stageBase := 0x10000, archBase := 0x11000, archSize := 1 } }

theorem witness_config (hv : ∀ k c h m x, Config.ed448Verify k c h m x = true) :
    (let s := loadState 1 0 (stagedCells 1)
     let t := takeCmd 0 s
     Taken s 0 1 ∧ bitsOf (headCmd s 0).a0.toNat 7 0 = 1 ∧ confStatus t ((getPolder t 1).state == 0) (rectFields (stagedRects (stagedByte t))) = none ∧
     firstRefusal (verifyChecks t 1 (stagedByte t)) = none) := by
  refine ⟨⟨?_, ?_, ?_, ?_⟩, ?_, ?_, ?_⟩
  all_goals first
    | decide +kernel
    | (simp [verifyChecks, firstRefusal, signatureBad, ownerSigned, hv]; decide +kernel)

theorem witness_configChecks :
    (let t := takeCmd 0 (loadState 1 0 (stagedCells 1))
     (firstRefusal (polderChecks (remapWhole (stagedRects (stagedByte t)) (confBegin 0 0 1 0 t)) 1 false (stagedByte t))).isNone = true) ∧
    (let t := takeCmd 0 (loadState 7 1 (stagedCells 1))
     confStatus t (mayStage (getPolder t 1)) (rectFields (rectsOf (getPolder t 1))) = none ∧
     (firstRefusal (polderChecks (confBegin 0 1 1 0 t) 1 true (stagedByte t))).isNone = true) ∧
    (let t := takeCmd 0 (loadState 8 1 [])
     confStatus t (maySwap (getPolder t 1) 0) (rectFields (rectsOf (getPolder t 1))) = none ∧ (mget? (getPolder t 1).slotCfg 0).isSome = true) ∧
    (let t := takeCmd 0 (loadState 9 1 routeCells)
     let b := stagedByte t
     confStatus t (!t.epoch.armed) [] = none ∧ (firstRefusal (routeChecks b)).isNone = true) ∧
    (firstRefusal (verifyChecks (loadState 1 0 []) 1 (stagedByte (loadState 1 0 [])))).isSome = true ∧
    ((getPolder (loadState 1 0 []) 1).staging.isSome = true ∧ (getPolder (loadState 1 0 []) 1).staged = false ∧ (getPolder (loadState 1 0 []) 1).swapPend = false) := by
  refine ⟨?_, ⟨?_, ?_⟩, ⟨?_, ?_⟩, ⟨?_, ?_⟩, ?_, ?_⟩ <;> decide +kernel

/-- ContextsRun: context 7 in a state, with a command of an opcode for it and polder 1 at the head of queue 0. -/
def contextState (opc st : Nat) (ev : List TrEvent) : State :=
  { State.reset with
    boot := { State.reset.boot with ready := true }
    stackBits := 0xFFFFFFFF
    polders := [(1, { state := 1, cfg := some {} })]
    ctxs := if st = 0 then [] else [(7, { state := st, polder := 1, record := [1, 2, 3, 4, 5, 6, 7, 8], seedDue := decide (st = 2) })]
    sec := { slotState := [1, 0, 0, 0], slotKey := [0, 0, 0, 0], svnMin := 0, nonce := 0, queue := ev }
    host := { queues := [(0, { sqTail := 1, sq := [(0, BitVec.ofNat 64 opc), (1, 0x10007), (2, 4096), (3, 256)] })] } }

theorem witness_contexts :
    (∀ x ∈ [(0x10, 0), (0x11, 1), (0x12, 1), (0x12, 2), (0x12, 3), (0x13, 4), (0x14, 1), (0x14, 2), (0x14, 4), (0x15, 1), (0x15, 2), (0x15, 4), (0x16, 6), (0x17, 6)],
      (let s := contextState x.1 x.2 []
       qReady (getQ s 0) = true ∧ (headCmd s 0).opc = BitVec.ofNat 8 x.1 ∧ s.boot.ready = true ∧ bitsOf (headCmd s 0).a0.toNat 12 0 = 7 ∧
       (getCtx s 7).state = x.2 ∧ bitsOf (headCmd s 0).a0.toNat 23 16 = 1 ∧ sealsPending s < 128 ∧ bitsOf (headCmd s 0).a1.toNat 15 0 ≠ 0 ∧
       bitsOf (headCmd s 0).a1.toNat 40 0 % 4096 = 0 ∧ bitsOf (headCmd s 0).a2.toNat 14 0 ≤ 16384 ∧ dramRange 4096 (8 * 256) = true)) ∧
    bufferStatus (takeCmd 0 (contextState 0x16 6 [])) 4096 256 8 = none ∧
    (getCtx (contextState 0x10 2 []) 7).seedDue = true ∧ entryWaits (contextState 0x10 5 []) 7 = false ∧ (getCtx (contextState 0x10 5 []) 7).state = 5 ∧
    (contextState 0x10 2 [{ typ := 7, tick := 0, ctxs := [(7, [])] }]).sec.queue.length = 1 := by decide +kernel

/-- A state after boot with a command at the head of queue 0. -/
def takenState (opc a0 a1 a2 a3 : Nat) (s : State) : State :=
  { s with
    boot := { s.boot with ready := true }
    host := { s.host with queues := [(0, { sqTail := 1, sq := [(0, BitVec.ofNat 64 (opc + 2 ^ 32 * 0)), (1, BitVec.ofNat 64 a0),
      (2, BitVec.ofNat 64 a1), (3, BitVec.ofNat 64 a2), (4, BitVec.ofNat 64 a3)] })] } }

/-- Queue 0 of a state takes a command of an opcode. -/
def takes (s : State) (opc : Nat) : Bool := qReady (getQ s 0) && (headCmd s 0).opc == BitVec.ofNat 8 opc && s.boot.ready

/-- PowerCommandsRun: domain d in a state. -/
def domState (d st : Nat) : State :=
  let x : Save := { cause := 1, tick := 0, serial := 0, ctxs := [], events := [], fmap := {}, polders := [], objs := [], waiters := [], slow := [], committed := true }
  let w : Power := { State.reset.power with doms := [(d, { st := st })], brnSaved := true, save0 := some x }
  { State.reset with power := w }

theorem witness_power :
    (∀ x ∈ [(0, 1, 1), (0, 0, 0), (0, 0, 1), (70, 0, 1), (97, 0, 1), (100, 0, 1), (0, 1, 0), (70, 1, 0), (97, 1, 0)],
      (let s := takenState 0x20 (2 ^ 16 * x.1) x.2.2 0 0 (domState x.1 x.2.1)
       takes s 0x20 = true ∧ bitsOf (headCmd s 0).a0.toNat 22 16 = x.1 ∧ domChanging s x.1 = false ∧ (getDom s x.1).st = x.2.1 ∧
       (x.2.1 = 1 → x.2.2 = 0 → mayOff s x.1 = true))) ∧
    takes (takenState 0x21 0x300 4 0 0 State.reset) 0x21 = true ∧
    (let s := takenState 0x22 1 5 1 1 { State.reset with polders := [(1, { state := 2, cfg := some { rects := [⟨0, 0, 0, 0⟩] } })] }
     takes s 0x22 = true ∧ polderIn s 1 0 = true ∧ s.tick.count.toNat < (headCmd s 0).a2.toNat ∧ bitsOf (headCmd s 0).a3.toNat 15 0 ≠ 0) ∧
    takes (takenState 0x23 (2 ^ 16 * 3) 0 0 0 State.reset) 0x23 = true ∧
    (let s := takenState 0x24 0 4096 4096 0 { domState 0 1 with stackBits := 0xFFFFFFFF }
     takes s 0x24 = true ∧ (newestSave s.power).isSome = true ∧ bufferStatus (takeCmd 0 s) 4096 4096 32 = none) ∧
    takes (takenState 0x25 0 0 0 0 State.reset) 0x25 = true := by decide +kernel

/-- PowerEventsRun: fields 0 to 5 in the states of its clauses. -/
def eventsState (shed : Bool) (x : Option Save) : State :=
  let w : Power := { State.reset.power with govDue := true, shed := shed, save0 := x }
  let b : Boot := { State.reset.boot with ready := true, phase := 5 }
  { State.reset with power := w, boot := b, fields := [(0, { up := true }), (1, { up := true, draining := true }), (2, { starting := true }),
                                                       (3, { resetPhase := 2 }), (4, { why := .thermal })] }

theorem witness_powerEvents :
    (let s := eventsState false none
     mayShed s = true ∧ tripDue (governorTick [] [] s) = false ∧ tripDue (governorTick [{ field := 0, sensor := 16, degC := 120 }] [] s) = true ∧
     (fieldMus s 1).isEmpty = true ∧ s.power.govDue = true ∧ (getDom s 101).stale = false ∧ (getDom s 100).regFault = false ∧ (getDom s 0).regFault = false ∧
     (getField s 0).up = true ∧ (getField s 1).draining = true ∧ (getField s 1).why ≠ .ceil ∧ (getField s 2).starting = true ∧
     (getField s 2).resetPhase ≠ 2 ∧ (getField s 3).resetPhase = 2 ∧ (getField s 4).why = .thermal ∧ (getField s 4).up = false ∧
     (getField s 4).starting = false ∧ (getField s 4).ceil ≠ 4 ∧ (getField s 4).baseTemp.toNat < s.power.tCool.toNat ∧ s.power.inLow = false ∧
     s.power.ao = true) ∧
    (∀ x : Save, let s := eventsState true (some { x with committed := false })
     mayShed s = false ∧ (openSave s.power).isSome = true ∧ s.power.shed = true) := by
  refine ⟨by decide +kernel, fun x => ⟨rfl, rfl, rfl⟩⟩

/-- ResetsAndBootRun: a state after boot whose field 0 is up, with one cluster LOADED. -/
def upState : State :=
  { State.reset with fields := [(0, { up := true, rowMap := List.range 96 })], polders := [(1, { state := 1, cfg := some { rects := [⟨0, 0, 0, 0⟩] } })],
                     stackBits := 0xFFFFFFFF }

/-- A state in the boot's step 4. -/
def bootState : State :=
  let b : Boot := { State.reset.boot with phase := 4, mapDue := true }
  let w : Power := { State.reset.power with doms := [(64, { st := 3 }), (96, { st := 1 })] }
  { upState with boot := b, power := w }

theorem witness_resets :
    (let s := takenState 0x40 3 0 0 0 upState
     takes s 0x40 = true ∧ resettable s 3 = true ∧ fieldDown s 0 = false ∧ fieldOf 3 = 0) ∧
    (let s := takenState 0x41 3 0 0 0 upState
     takes s 0x41 = true ∧ isUnit 3 = true ∧ ∀ v ∈ span (clusterOf 3) (clusterOf 3 + 11), unitFenced s v = false ∧ resettable s v = true) ∧
    (let s : State := { upState with boot := { upState.boot with unitResets := [([3], 0)] } }
     s.boot.unitResets.map (·.2) = [0] ∧ rowAbsent s 3 = false) ∧
    (let s := takenState 0x42 0 0 0 0 upState
     takes s 0x42 = true ∧ (getField s 0).up = true ∧ poldersIn s 2 = []) ∧
    (getField { upState with fields := [(0, { resetPhase := 1 })] } 0).resetPhase = 1 ∧
    takes (takenState 0x43 0 0 0 0 upState) 0x43 = true ∧
    (let s := bootState
     s.power.ao = true ∧ s.power.shed = false ∧ s.boot.phase = 4 ∧ wavesDone s = false ∧ s.boot.ready = false ∧ (getDom s 64).st = 3 ∧ domOn s 96 = true ∧
     fieldDown s 0 = false ∧ s.boot.mapDue = true ∧ s.boot.mapRetry = false ∧ s.boot.mc0 = true ∧ s.boot.mc1 = true) ∧
    (State.reset.power.shed = false ∧ State.reset.boot.phase = 0 ∧ wavesDone { bootState with boot := { bootState.boot with wave := 1 } } = true) ∧
    (let s := takenState 0x49 0 4096 192 0 upState
     takes s 0x49 = true ∧ sourceStatus (takeCmd 0 s) 4096 192 = none) ∧
    (let s := takenState 0x4A 1 4096 4096 0 upState
     takes s 0x4A = true ∧ bufferStatus (takeCmd 0 s) 4096 4096 0 = none) := by
  refine ⟨?_, ?_, ?_, ?_, ?_, ?_, ?_, ?_, ?_, ?_⟩ <;> decide +kernel

/-- ResetsAndBootRun: a calibration table of no entry whose signature verifies. -/
theorem witness_calibration (hv : ∀ k c h m x, Config.ed448Verify k c h m x = true) :
    calStatus { upState with sec := { slotState := [1, 0, 0, 0], slotKey := [0, 0, 0, 0], svnMin := 0, nonce := 0 } }
      ([0x43, 0x41, 0x4C, 0x31, 1, 0, 0, 0, 192, 0, 0, 0] ++ zeros 52 ++ [1] ++ zeros 127) = 0 := by
  simp [calStatus, ownerSigned, hv]; decide +kernel

/-- FaultsAndRepairRun: polder 1 on the cluster of units 0 to 11, in a state; field 0 is up. -/
def rprState (st : Nat) : State :=
  { upState with polders := [(1, { state := st, cfg := some { rects := [⟨0, 0, 0, 0⟩] }, image := some (0, 0) })],
                 fields := [(0, { up := true, rowMap := List.range 96, probes := [3] })] }

theorem witness_faults :
    let s := rprState 2
    faultable s 3 = true ∧ faultable s 5 = true ∧ isCc 3 = true ∧ isMu 5 = true ∧ (fmapRow s 0 7).row = 0 ∧ (getField s 0).up = true ∧
    (getField s 0).probes.Nodup ∧ probed s 0 ≠ [] ∧ ownerOf s 3 = some 1 ∧ 3 ∈ (getField s (fieldOf 3)).probes ∧ (getPolder s 1).state = 2 ∧
    faultsHalted { s with polders := [] } { faults := [⟨3, 1, 0, 0, 3, 0⟩], ticked := true } = true := by decide +kernel

theorem witness_rprImage :
    (let s := takenState 0x44 1 16 2 0 (rprState 1)
     takes s 0x44 = true ∧ (getPolder s 1).state ≠ 0 ∧ bitsOf (headCmd s 0).a0.toNat 7 0 = 1 ∧ dramRange 16 32 = true) ∧
    (let s := takenState 0x45 1 1 0 0 (rprState 3)
     takes s 0x45 = true ∧ (getPolder s 1).state = 3 ∧ (getPolder s 1).image.isSome = true) := by decide +kernel

theorem witness_rprFence :
    let s := takenState 0x46 3 0 0 0 (rprState 2)
    takes s 0x46 = true ∧ isUnit 3 = true ∧ (ownerOf s 3).isSome = true ∧ unitFenced s 3 = false ∧ rowAbsent s 3 = false ∧
    fieldDown s (fieldOf 3) = false := by decide +kernel

theorem witness_rprClear :
    ∀ a1 ∈ [7, 0x187], let s := takenState 0x47 0 a1 0 0 { rprState 1 with polders := [] }
     takes s 0x47 = true ∧ poldersHeld s = [] ∧ fieldDown s 0 = false ∧ (fmapRow s 0 7).factory = false ∧ bitsOf (headCmd s 0).a1.toNat 6 0 = 7 := by
  decide +kernel

theorem witness_rprMapRead :
    let s := takenState 0x48 0 0 0x100000 0 (rprState 1)
    takes s 0x48 = true ∧
    bufferStatus (takeCmd 0 s) 0 0x100000
      (mapBytes { s.boot.fmap with stackBits := s.boot.fmap.stackBits ||| stacksOff s }).length = none := by
  simp only [mapBytes_length]; decide +kernel

/-- SecurityRuns: a state after boot, with the first owner key enrolled and polder 1 in a state with an empty image map. -/
def secState (st : Nat) : State :=
  { upState with sec := { slotState := [1, 0, 0, 0], slotKey := [0, 0, 0, 0], svnMin := 0, nonce := 0 },
                 polders := [(1, { state := st, image := some (0, 0) })] }

theorem witness_security :
    (∀ o ∈ [0x60, 0x66, 0x61, 0x62], let s := takenState o 1 4096 256 0 (secState 1)
     takes s o = true ∧ bufferStatus (takeCmd 0 s) 4096 256 256 = none ∧ sourceStatus (takeCmd 0 s) 4096 256 = none) ∧
    (let s := takenState 0x63 0 0 0 0 { secState 1 with boot := { State.reset.boot with marrowAlt := false } }
     takes s 0x63 = true ∧ s.boot.marrowAlt = false) ∧
    (∀ st ∈ [1, 3], let s := takenState 0x64 1 0 0 0 (secState st)
     takes s 0x64 = true ∧ (getPolder s 1).image = some (0, 0) ∧ (getPolder s 1).state = st ∧ weightBytes (takeCmd 0 s) 0 0 = some []) ∧
    (let s := takenState 0x65 0 4096 65536 0 (secState 1)
     takes s 0x65 = true ∧ dramRange 4096 65536 = true ∧ inConfArea (takeCmd 0 s) 4096 65536 = false ∧ rangeOff (takeCmd 0 s) 4096 65536 = false) := by
  decide +kernel

/-- An enrolment of slot 1 by the key of slot 0, and an image of 384 bytes; the serial number is the module's. -/
def enrolBytes : List Byte :=
  [0x4B, 0x4F, 0x57, 0x4E, 1, 0, 1, 1, 0] ++ zeros 15 ++ serialBytes ++ zeros 216

def imageBytes : List Byte :=
  [0x4D, 0x52, 0x52, 0x57, 1, 0, 0, 0, 0x80, 1, 0, 0] ++ zeros 244 ++ [1] ++ zeros 127

theorem witness_signed (hv : ∀ k c h m x, Config.ed448Verify k c h m x = true) :
    enrolShape enrolBytes = true ∧ enrolState (secState 1) enrolBytes = true ∧ enrolProof (secState 1) enrolBytes = true ∧
    imageValid (secState 1) imageBytes 384 = true := by
  refine ⟨by decide +kernel, by decide +kernel, ?_, ?_⟩
  · have h : (enrolBytes.drop 0x18).take 16 = serialBytes := rfl
    simp only [enrolProof, h, hv, beq_self_eq_true, Bool.true_and, Bool.and_true]
    decide +kernel
  · simp only [imageValid, hv, Bool.and_true]
    decide +kernel

/-- HostAccessesRun: both ports UP, a lock held by sender 7, and a DBG packet at core 3. -/
def hostState (op : Nat) (m : Mbx) : State :=
  let x : Flight := { net := .req, loc := .arrived 3, pkt := { dest := 3, op := opDbg, len := 0, daddr := 0, src := naId 0, arg := op, payload := if op % 2 = 1 then [0] else [] } }
  let w : Power := { State.reset.power with doms := [(0, { st := 1 })] }
  let b : Boot := { State.reset.boot with phase := 5 }
  let h : HostIf := { State.reset.host with na := { st := 2 }, nb := { st := 2 }, mbx := [(0, m)] }
  { upState with power := w, boot := b, host := h, flights := [x] }

theorem witness_host :
    (let s := hostState 0 {}
     portUp s 0 = true ∧ (0 : W32) = (getPort s 0).rxNext ∧ portOutstanding s 0 = 0 ∧
     regionOf 0xE0000 8 = some .ctl ∧ regSize 0xE0000 8 = true ∧ regOff s 0xE0000 = false ∧ regionOf 0x40000000000 512 = some .dram ∧
     bulkSize 0x40000000000 512 = true ∧ s.power.ao = true ∧ s.boot.phase ≠ 7 ∧ (0x20000000E0000 : W64).getLsbD 48 = false ∧
     sideReg 0 = some (0xE0000, 8) ∧ sideOpen s 0 = true ∧ sideReg 0x20 = none ∧ debugSize 0 1 = true ∧
     (getField s 0).up = true ∧ domOn s 0 = true) ∧
    (let r := frameOf 0 (BitVec.ofNat 128 (1 + 2 ^ 48 * 7 + 2 ^ 68 * (0xE0000 / 8))) []
     frGood r = true ∧ frType r = 1 ∧ frOp r = 0 ∧ frWords r = 0 ∧ frSender r = 7 ∧ frAddr r = 0xE0000 ∧ frRwords r = 0 ∧ frSeq r = 0) ∧
    (let w := frameOf 0 (BitVec.ofNat 128 (1 + 2 ^ 4 + 2 ^ 12 * 5 + 2 ^ 44 + 2 ^ 68 * (0x40000000200 / 8))) [9]
     frGood w = true ∧ frType w = 1 ∧ frOp w = 1 ∧ frWords w = 1 ∧ frAddr w = 0x40000000200 ∧ frSeq w = 5 ∧
     bulkSize 0x40000000200 8 = true ∧ regionOf 0x40000000200 8 = some .dram ∧ regionOf 0xE0000 8 = some .ctl ∧
     overlaps 0x200 8 (archiveArea (hostState 0 {})).1 (archiveArea (hostState 0 {})).2 = false ∧ (hostState 0 {}).conf.busy = false) ∧
    (∀ op ∈ [2, 3], let s := hostState op {}
      dbgKind 3 = some .cc ∧ rowAbsent s 3 = false ∧ replyWaits s 3 = false ∧
      (match nextReq s 3 opDbg with
       | some p => dbgLenOk p && decide (bitsOf p.arg 3 1 = 1) && decide (bitsOf p.arg 0 0 = op % 2) && dbgDefined s 3 .cc 1 0
       | none => false) = true) ∧
    (let s := takenState 0xA0 0x101 4096 (2 ^ 20) 4096 (rprState 1)
     takes s 0xA0 = true ∧ (polderUnits s 1).all (fun u => !fieldDown (takeCmd 0 s) (fieldOf u)) = true ∧ bitsOf (headCmd s 0).a2.toNat 35 20 = 1 ∧ bitsOf (headCmd s 0).a0.toNat 12 11 = 0 ∧
     bitsOf (headCmd s 0).a0.toNat 10 8 = 1 ∧ dbgDefined (takeCmd 0 s) 0 .cc 1 0 = true ∧
     bufferStatus (takeCmd 0 s) 4096 4096 (8 * 1 * ((polderUnits s 1).filter (fun u => dbgKind u == some .cc)).length) = none) ∧
    ringCount 0 0 + ringCount 0 63 ≤ 63 ∧ ringCount 0 63 + ringCount 63 0 > 63 ∧
    (getMbx (hostState 0 { owner := 7 }) 0).owner.toNat = 7 ∧ (getMbx (hostState 0 { owner := 7 }) 0).full = false ∧
    slotSize 248 8 256 = true ∧ (getMbx (hostState 0 { owner := 7, full := true }) 0).full = true := by decide +kernel

end Sys2Proof.Tests
end

section
/-! PROOFS. The tick generator's registers while a polder is RUNNING (02 R47). What a write of TICK_PERIOD and of TICK_CTRL
answers is said of the two register operations, which the windows of HOST_WRITE call as well; the commands only complete with it. -/

namespace Sys2Proof.Proofs

open Sys2Proof Sys2Proof.Machine

/-! ## The commands' meanings -/

theorem exec_tickPeriodWrite (h : Req) (v : W32) (s : State) :
    exec (.tickPeriodWrite h v) s = regDone h (tickPeriod v s) := rfl

theorem exec_tickRunClear (h : Req) (s : State) : exec (.tickRunClear h) s = regDone h (tickCtrl 0 s) := rfl

/-! ## Writes of the registers while a polder is RUNNING -/

theorem anyRunning_iff (s : State) : anyRunning s = true ↔ ∃ p x, (p, x) ∈ s.polders ∧ x.state = 2 := by
  simp [anyRunning]

theorem tickPeriod_of_anyRunning (v : W32) {s : State} (hr : anyRunning s = true) : tickPeriod v s = (stState, s) :=
  if_pos hr

/-- A write whose RUN bit is 0 never meets the wait for READY, so a running generator answers STATE at any time. -/
theorem tickCtrl_clear_of_anyRunning {v : W32} {s : State} (hv : v.getLsbD 0 = false) (hrun : s.tick.run = true)
    (hr : anyRunning s = true) : tickCtrl v s = (stState, s) := by
  unfold tickCtrl
  simp only [hv, hrun, hr, Bool.false_and, Bool.false_eq_true, if_false, Bool.not_false, Bool.and_self, if_true]

/-- Settles O28: both writes answer STATE with the state unchanged, since the RUNNING polder is listed. -/
theorem tickPeriodWhileRunning : Obligations.TickPeriodWhileRunning := by
  intro s h v p hp
  have hr : anyRunning s = true := (anyRunning_iff s).mpr ⟨p, hp⟩
  refine ⟨?period, fun hrun => ?clear⟩
  case period =>
    rw [exec_tickPeriodWrite, tickPeriod_of_anyRunning v hr]
    rfl
  case clear =>
    rw [exec_tickRunClear, tickCtrl_clear_of_anyRunning (by decide) hrun hr]
    rfl

end Sys2Proof.Proofs
end

section
/-! PROOFS. Narrowing conversions to FP8 (03 R109 to R111). The model compares a rounded magnitude with 14 * 2^5 or 7 * 2^13,
the largest value of the format as it encodes it; the rules name 448 and 57,344. `magGt` compares values and not their
spellings, so the two agree. -/

namespace Sys2Proof.Proofs

open Sys2Proof Sys2Proof.Machine

/-! ## Magnitudes compare by value, whatever place they are written at -/

/-- Writing a magnitude at a lower place in two moves is one move. -/
theorem scaleTo_scaleTo (m : Nat) {e p q : Int} (hp : p ≤ e) (hq : q ≤ p) :
    scaleTo (scaleTo m e p) p q = scaleTo m e q := by
  have hexp : (e - p).toNat + (p - q).toNat = (e - q).toNat := by omega
  simp only [scaleTo]
  rw [Nat.mul_assoc, ← Nat.pow_add, hexp]

/-- Two magnitudes compare alike at every place that is no higher than either of them. -/
theorem magGt_iff_scaleTo_lt (m : Nat) (m' : Nat) {e e' q : Int} (he : q ≤ e) (he' : q ≤ e') :
    magGt m e m' e' = true ↔ scaleTo m' e' q < scaleTo m e q := by
  have hq : q ≤ min e e' := by omega
  rw [← scaleTo_scaleTo m (Int.min_le_left e e') hq, ← scaleTo_scaleTo m' (Int.min_le_right e e') hq]
  calc magGt m e m' e' = true
    _ ↔ scaleTo m' e' (min e e') < scaleTo m e (min e e') := decide_eq_true_iff
    _ ↔ _ := (Nat.mul_lt_mul_right (Nat.two_pow_pos _)).symm

/-- The bound of a comparison may be written at any lower place. -/
theorem magGt_scaleTo_bound (m : Nat) (e : Int) (m' : Nat) {e' p : Int} (hp : p ≤ e') :
    magGt m e m' e' = magGt m e (scaleTo m' e' p) p := by
  have he : min e p ≤ e := Int.min_le_left e p
  have hq : min e p ≤ p := Int.min_le_right e p
  rw [Bool.eq_iff_iff, magGt_iff_scaleTo_lt m _ he hq, magGt_iff_scaleTo_lt m _ he (Int.le_trans hq hp),
    scaleTo_scaleTo m' hp hq]

theorem overflows_e4m3 (y : Rounded) : overflows e4m3 y = magGt y.n y.q 448 0 :=
  magGt_scaleTo_bound y.n y.q 14 (e' := 5) (by decide)

theorem overflows_e5m2 (y : Rounded) : overflows e5m2 y = magGt y.n y.q 57344 0 :=
  magGt_scaleTo_bound y.n y.q 7 (e' := 13) (by decide)

/-! ## What a narrowing conversion to a floating-point format answers, by the class of its source -/

section
variable {c : Nat} {f : Fmt} {x : W32}

theorem narrow_of_nan {sig : Bool} (hf : codeFmt c = some f) (hx : rd32 x = .nan sig) (e5 : Bool) (r : Option Nat) :
    narrow e5 c r x = (nanCode f, fIf sig fNV) := by
  have hc : c ≠ 9 := by rintro rfl; cases hf
  simp only [narrow, if_neg hc, hf, hx]

theorem narrow_of_inf {n : Bool} (hf : codeFmt c = some f) (hx : rd32 x = .inf n) (e5 : Bool) (r : Option Nat) :
    narrow e5 c r x = if c == 0 || (c == 1 && e5) then (maxCode f n, fSAT) else (infCode f n, 0) := by
  have hc : c ≠ 9 := by rintro rfl; cases hf
  simp only [narrow, if_neg hc, hf, hx]

theorem narrow_of_overflow {n : Bool} {m : Nat} {e : Int} {r : Option Nat} (hf : codeFmt c = some f)
    (hx : rd32 x = .fin n m e) (ho : overflows f (roundMag f m e r) = true) (e5 : Bool) :
    narrow e5 c r x = if c == 0 || (c == 1 && e5) then (maxCode f n, roundFlags (roundMag f m e r) ||| fSAT)
      else (infCode f n, fOF ||| fNX) := by
  have hc : c ≠ 9 := by rintro rfl; cases hf
  simp only [narrow, if_neg hc, hf, hx, if_pos ho]

end

/-! ## Codes and flags -/

theorem maxCode_e4m3 (n : Bool) : maxCode e4m3 n = 128 * b2n n + 0x7E := by cases n <;> rfl

theorem maxCode_e5m2 (n : Bool) : maxCode e5m2 n = 128 * b2n n + 0x7B := by cases n <;> rfl

theorem infCode_e5m2 (n : Bool) : infCode e5m2 n = 128 * b2n n + 0x7C := by cases n <;> rfl

theorem fSAT_getLsbD_five : fSAT.getLsbD 5 = true := rfl

theorem or_fSAT_getLsbD_five (fl : Fl) : (fl ||| fSAT).getLsbD 5 = true := by
  rw [BitVec.getLsbD_or, fSAT_getLsbD_five, Bool.or_true]

theorem fOF_or_fNX_getLsbD_two : (fOF ||| fNX).getLsbD 2 = true := rfl

theorem fIf_fNV_getLsbD_zero (b : Bool) : (fIf b fNV).getLsbD 0 = b := by cases b <;> rfl

/-! ## The two FP8 formats -/

/-- Settles O17: E4M3 saturates by its format code alone, and 14 * 2^5 is 448. -/
theorem narrowE4M3 : Obligations.NarrowE4M3 := by
  intro e5 r x
  have hf : codeFmt 0 = some e4m3 := rfl
  refine ⟨fun n m e hx hgt => ?overflow, fun n hx => ?inf, fun sig hx => ?nan⟩
  case overflow =>
    rw [narrow_of_overflow hf hx ((overflows_e4m3 _).trans hgt)]
    exact ⟨maxCode_e4m3 n, or_fSAT_getLsbD_five _⟩
  case inf =>
    rw [narrow_of_inf hf hx]
    exact ⟨maxCode_e4m3 n, fSAT_getLsbD_five⟩
  case nan =>
    rw [narrow_of_nan hf hx]
    exact ⟨rfl, fIf_fNV_getLsbD_zero sig⟩

/-- Settles O18: E5SAT selects between the two branches of an overflow, and 7 * 2^13 is 57,344. -/
theorem narrowE5M2 : Obligations.NarrowE5M2 := by
  intro r x
  have hf : codeFmt 1 = some e5m2 := rfl
  refine ⟨fun n m e hx hgt => ?overflow, fun n hx => ?inf, fun sig e5 hx => ?nan⟩
  case overflow =>
    have ho := (overflows_e5m2 _).trans hgt
    rw [narrow_of_overflow hf hx ho, narrow_of_overflow hf hx ho]
    exact ⟨infCode_e5m2 n, fOF_or_fNX_getLsbD_two, maxCode_e5m2 n, or_fSAT_getLsbD_five _⟩
  case inf =>
    rw [narrow_of_inf hf hx, narrow_of_inf hf hx]
    exact ⟨infCode_e5m2 n, maxCode_e5m2 n, fSAT_getLsbD_five⟩
  case nan =>
    rw [narrow_of_nan hf hx]
    rfl

end Sys2Proof.Proofs
end

section
/-! PROOFS. What a step may do to the fixed part of the state (Laws/KeepBase): the queue loses the command that runs, DRAM and the
tick generator keep the block's invariant, owner key slots move forward (16 R531) and the SVN floor rises (16 R535). -/

namespace Sys2Proof.Proofs

open Sys2Proof Sys2Proof.Machine

/-! ## The moves of the fixed part -/

/-- What any command may do to the fixed part of the state. -/
structure Moves (k k' : Key) : Prop where
  pending : k'.pending = k.pending
  dram : Memory.wf k.dram = true → Memory.wf k'.dram = true
  ilv : k.ilv ≠ 3 → k'.ilv ≠ 3
  periods : 1000 ≤ k.tick.period.toNat ∧ 1000 ≤ k.tick.cur.toNat → 1000 ≤ k'.tick.period.toNat ∧ 1000 ≤ k'.tick.cur.toNat
  slots : ∀ n, KeySlotMove (k.slots.getD n 0) (k'.slots.getD n 0)
  svn : k.svn.toNat ≤ k'.svn.toNat

theorem keySlotMove_refl (a : BitVec 2) : KeySlotMove a a := .inl rfl

/-- Every command but the two that write fuses keeps the slots and the floor. -/
theorem moves_of_ok {ch : Bool} {k k' : Key} (h : Ok ch k k') : Moves k k' := by
  obtain ⟨hpending, hslots, hsvn, hdram, hilv, _, hperiods⟩ := h
  exact ⟨hpending, hdram, hilv, hperiods, fun n => hslots ▸ keySlotMove_refl _, hsvn ▸ Nat.le_refl _⟩

/-- A change of the slots and the floor alone, forward. -/
def FuseMoves (k k' : Key) : Prop :=
  ∃ slots svn, k' = { k with slots := slots, svn := svn } ∧ (∀ n, KeySlotMove (k.slots.getD n 0) (slots.getD n 0)) ∧
    k.svn.toNat ≤ svn.toNat

theorem fuseMoves_of_eq {k k' : Key} (h : k' = k) : FuseMoves k k' :=
  ⟨k.slots, k.svn, h, fun _ => keySlotMove_refl _, Nat.le_refl _⟩

theorem FuseMoves.moves {k k' : Key} (h : FuseMoves k k') : Moves k k' := by
  obtain ⟨slots, svn, rfl, hslots, hsvn⟩ := h
  exact ⟨rfl, id, id, id, hslots, hsvn⟩

theorem FuseMoves.tick {k k' : Key} (h : FuseMoves k k') : k'.tick = k.tick := by
  obtain ⟨slots, svn, rfl, -⟩ := h
  rfl

theorem keep_modSec_eq (s : State) (f : Sec → Sec) :
    keep (modSec s f) = { keep s with slots := (f s.sec).slotState, svn := (f s.sec).svnMin } := rfl

/-! ## The commands that write fuses -/

/-- A queue command goes on from the state with its descriptor taken, or completes, or leaves the state as it is. -/
theorem goes_hostCmd {P : State → Prop} {q opc : Nat} {f : Cmd → State → State} {s : State} (hrun : ∀ c, P (f c (takeCmd q s)))
    (hbusy : P (finish q stBusy 0 (takeCmd q s))) (hstay : P s) : Goes P (hostCmd q opc f s) := by
  unfold hostCmd
  dsimp only
  repeat' split
  all_goals simp only [Goes_next, Goes_fault, hrun, hbusy, hstay]

/-- One slot takes a state that its present one may move to; the others stay. -/
theorem keySlotMove_lset {slots : List (BitVec 2)} {t : Nat} {x : BitVec 2} (h : KeySlotMove (slots.getD t 0) x) (n : Nat) :
    KeySlotMove (slots.getD n 0) ((lset slots t x).getD n 0) := by
  unfold lset
  by_cases hn : t = n
  · subst hn
    by_cases hl : t < slots.length
    · simpa [List.getD_eq_getElem?_getD, hl] using h
    · rw [List.set_eq_of_length_le (Nat.not_lt.mp hl)]
      exact keySlotMove_refl _
  · simp [List.getD_eq_getElem?_getD, hn, keySlotMove_refl]

/-- The states that a request asks for let its slot move (16 R532). -/
theorem enrolState_move {s : State} {b : List Byte} (h : enrolState s b = true) :
    KeySlotMove (s.sec.slotState.getD (Machine.field b 7 1) 0) (if Machine.field b 6 1 == 1 then 1 else 2) := by
  unfold enrolState at h
  by_cases hop : Machine.field b 6 1 = 1
  · simp [hop] at h
    exact .inr (.inl ⟨by simpa using BitVec.eq_of_toNat_eq h.1, by simp [hop]⟩)
  · simp [hop] at h
    exact .inr (.inr ⟨by simpa using BitVec.eq_of_toNat_eq h.1.1, by simp [hop]⟩)

theorem fuseMoves_enrol {s : State} {b : List Byte} (h : enrolState s b = true) : FuseMoves (keep s) (keep (enrol b s)) := by
  unfold enrol
  rw [keep_raise, keep_modSec_eq]
  exact ⟨_, _, rfl, keySlotMove_lset (enrolState_move h), Nat.le_refl _⟩

theorem fuseMoves_execSecEnrol (q : Nat) (s : State) : Goes (fun t => FuseMoves (keep s) (keep t)) (execSecEnrol q s) := by
  refine goes_hostCmd (fun c => ?_) (fuseMoves_of_eq (by simp)) (fuseMoves_of_eq rfl)
  have hrefused : ∀ st, FuseMoves (keep s) (keep (finish q st 0 (takeCmd q s))) := fun st => fuseMoves_of_eq (by simp)
  extract_lets a
  split
  · exact hrefused _
  split
  · exact hrefused _
  split
  · exact hrefused _
  split
  · exact hrefused _
  next hstate _ =>
    rw [keep_finish, ← keep_takeCmd q s]
    exact fuseMoves_enrol (by simpa using hstate)

theorem fuseMoves_execSecFwCommit (q : Nat) (s : State) :
    Goes (fun t => FuseMoves (keep s) (keep t)) (execSecFwCommit q s) := by
  refine goes_hostCmd (fun c => ?_) (fuseMoves_of_eq (by simp)) (fuseMoves_of_eq rfl)
  split
  · exact fuseMoves_of_eq (by simp)
  · rw [keep_finish, keep_modSec_eq, keep_takeCmd]
    refine ⟨_, _, rfl, fun n => keySlotMove_refl _, ?_⟩
    split
    next h => exact Nat.le_of_lt h
    next => exact Nat.le_refl _

/-! ## Commands and steps -/

theorem exec_fuseMoves (i : Instr) (s : State) (h : keyCommand i = true) :
    Goes (fun t => FuseMoves (keep s) (keep t)) (exec i s) := by
  cases i
  case secEnrol q => exact fuseMoves_execSecEnrol q s
  case secFwCommit q => exact fuseMoves_execSecFwCommit q s
  all_goals exact absurd h Bool.false_ne_true

theorem exec_moves (i : Instr) (s : State) : Goes (fun t => Moves (keep s) (keep t)) (exec i s) := by
  cases h : keyCommand i with
  | false => exact (exec_ok i s h).imp fun _ => moves_of_ok
  | true => exact (exec_fuseMoves i s h).imp fun _ => FuseMoves.moves

/-- A step moves the fixed part, once the command that runs has left the queue. -/
theorem step_moves {s t : State} (h : step s = .next t) : Moves { keep s with pending := s.pending.tail } (keep t) := by
  unfold step at h
  split at h
  next hp =>
    obtain rfl := Host.Outcome.next.inj h
    have hk : keep s = { keep s with pending := s.pending.tail } := by simp [keep, hp]
    exact hk ▸ moves_of_ok (ok_idleStep s (keep s) (Ok_refl _))
  next c cs hp =>
    simpa [keep, hp] using exec_moves c { s with pending := cs } t h

/-- Settles O1: the definition of a step on a queue that is not empty. -/
theorem stepRunsFront : Obligations.StepRunsFront := fun _ _ _ => rfl

/-- Settles O3: DRAM is empty at reset, and the tick period is 1,000 ns. -/
theorem resetInv : Obligations.ResetInv := ⟨rfl, by decide, by decide, by decide⟩

/-- Settles O4, by what every step may do to the fixed part of the state. -/
theorem stepKeepsInv : Obligations.StepKeepsInv := by
  rintro s t ⟨hdram, hilv, hperiods⟩ h
  have m := step_moves h
  exact ⟨m.dram hdram, m.ilv hilv, m.periods hperiods⟩

/-- Settles O5: only an enrolment moves a slot, from the state that its request asks for, and only a commit raises the floor. -/
theorem keySlotsMove : Obligations.KeySlotsMove := fun _ _ h => ⟨fun n _ => (step_moves h).slots n, (step_moves h).svn⟩

/-- Settles O6. -/
theorem stepTakesOne : Obligations.StepTakesOne := fun _ _ h => (step_moves h).pending

/-- Settles O7: the tick generator is part of what the laws of the fixed part keep, and the fuse commands do not touch it. -/
theorem tickGeneratorFrame : Obligations.TickGeneratorFrame := by
  intro i s t hi h
  cases hk : keyCommand i with
  | false =>
    obtain ⟨-, -, -, -, -, htick, -⟩ := exec_ok i s hk t h
    exact htick hi
  | true => exact (exec_fuseMoves i s hk t h).tick

end Sys2Proof.Proofs
end

section
/-! PROOFS. The instructions of a core at issue (04 R142, R153 to R162): each command is one use of `coreCmd_issues`, and what stays to
show is that the model's operation is the one that the statement writes out. -/

namespace Sys2Proof.Proofs

open Sys2Proof Sys2Proof.Machine

/-! ## Issue -/

/-- A core's command goes on with the effect of the word that issues. -/
theorem coreCmd_issues {s : State} {u opc slot : Nat} {w : W64} (h : Issues s u opc slot w) {eff : Nat → W64 → State → State} :
    coreCmd u opc eff s = .next (issueWith u slot w (eff slot w) s) := by
  obtain ⟨hcc, hslot, hopc⟩ := h
  simp only [coreCmd, hcc, hslot, hopc, Bool.not_true, Bool.false_eq_true, if_false, if_true]

/-- An instruction's effect counts at the state that issues it alone. -/
theorem issueWith_congr {s : State} {u slot : Nat} {w : W64} {f g : State → State} (h : f s = g s) :
    Host.Outcome.next (φ := Fault) (ρ := Refusal) (issueWith u slot w f s) = .next (issueWith u slot w g s) := by
  simp only [issueWith, h]

/-- A core's command goes on with any effect that agrees with the model's at the issuing state. -/
theorem coreCmd_runs {s : State} {u opc slot : Nat} {w : W64} (h : Issues s u opc slot w) {eff : Nat → W64 → State → State}
    {f : State → State} (hf : eff slot w s = f s) : coreCmd u opc eff s = .next (issueWith u slot w f s) :=
  (coreCmd_issues h).trans (issueWith_congr hf)

/-- Settles O9: the effects are the model's own; MFSR reads its register in the issuing state. -/
theorem coreSequencerRuns : Obligations.CoreSequencerRuns := fun _ _ _ _ =>
  ⟨fun h => coreCmd_issues h, fun h => coreCmd_issues h, fun h => coreCmd_issues h, fun h => coreCmd_issues h,
    fun h => coreCmd_runs h rfl, fun h => coreCmd_issues h⟩

/-! ## The scalar engine -/

/-- The six conditions, with GE as the negation of LT. -/
theorem condHolds_eq (k : Nat) (a b : W32) :
    condHolds k a b = if k = 0 then a == b else if k = 1 then a != b else if k = 2 then a.slt b else if k = 3 then !(a.slt b)
      else if k = 4 then a.ult b else !(a.ult b) := by
  simp only [condHolds, BitVec.sle_eq_not_slt, BitVec.ule_eq_not_ult]

theorem scmpOp_eq (w : W64) :
    scmpOp w = fun c => setPred c (fld w 28 26)
      (let a := scalarSrc c (fB w)
       let b := srcB c w false
       let k := fld w 25 23
       if k = 0 then a == b else if k = 1 then a != b else if k = 2 then a.slt b else if k = 3 then !(a.slt b)
       else if k = 4 then a.ult b else !(a.ult b)) := by
  funext c
  simp only [scmpOp, condHolds_eq]

/-- Settles O10: the operations are the model's own, and SCMP's conditions GE are the negations of LT. -/
theorem coreScalarRuns : Obligations.CoreScalarRuns := fun s u _ w =>
  ⟨fun h => coreCmd_issues h, fun h => coreCmd_issues h, fun h => coreCmd_issues h, fun h => coreCmd_issues h,
    fun h => coreCmd_issues h, fun h => coreCmd_issues h, fun h => coreCmd_issues h, fun h => coreCmd_issues h,
    fun h => coreCmd_issues h, fun h => coreCmd_issues h, fun h => coreCmd_issues h, fun h => coreCmd_issues h,
    fun h => coreCmd_issues h, fun h => coreCmd_issues h,
    fun h => coreCmd_runs h (congrArg (fun f => onCore u f s) (scmpOp_eq w))⟩

/-! ## Local SRAM -/

theorem memOp_of_none {s : State} {u n slot : Nat} {write : Bool} {f : Nat → Core → Core} {w : W64}
    (h : accessTrap (getCore s u) (memAddr (getCore s u) w) n n write = none) :
    memOp u n write f slot w s = onCore u (f (memAddr (getCore s u) w)) s := by
  simp only [memOp, h]

theorem memOp_of_trap {s : State} {u n slot cause addr : Nat} {write : Bool} {f : Nat → Core → Core} {w : W64}
    (h : accessTrap (getCore s u) (memAddr (getCore s u) w) n n write = some (cause, addr)) :
    memOp u n write f slot w s = coreTrap u slot cause addr s := by
  simp only [memOp, h]

/-- Settles O11: an access runs or traps as `accessTrap` says. -/
theorem coreMemoryRuns : Obligations.CoreMemoryRuns := fun _ _ _ _ =>
  ⟨fun h ht => coreCmd_runs h (memOp_of_none ht), fun h ht => coreCmd_runs h (memOp_of_none ht),
    fun h ht => coreCmd_runs h (memOp_of_none ht), fun h ht => coreCmd_runs h (memOp_of_none ht),
    fun _ _ => ⟨fun h ht => coreCmd_runs h (memOp_of_trap ht), fun h ht => coreCmd_runs h (memOp_of_trap ht),
      fun h ht => coreCmd_runs h (memOp_of_trap ht), fun h ht => coreCmd_runs h (memOp_of_trap ht)⟩⟩

/-! ## The vector unit -/

/-- Settles O12: the operations are the model's own. -/
theorem coreVectorRuns : Obligations.CoreVectorRuns := fun _ _ _ _ =>
  ⟨fun h => coreCmd_issues h, fun h => coreCmd_issues h, fun h => coreCmd_issues h, fun h => coreCmd_issues h,
    fun h => coreCmd_issues h, fun h => coreCmd_issues h, fun h => coreCmd_issues h, fun h => coreCmd_issues h,
    fun h => coreCmd_issues h, fun h => coreCmd_issues h, fun h => coreCmd_issues h⟩

/-- Settles O13: both sides join the same fifteen results, and the flags of the two groupings agree since OR is associative and
commutative. -/
theorem vredTree : Obligations.VredTree := by
  intro f a b c d e g h i j k l m n o p q
  simp only [treeReduce, treeLevel, List.headD_cons, Prod.mk.injEq, true_and]
  ac_rfl

/-! ## The tensor datapath -/

/-- Clearing a bank leaves what a TMMA reads at issue. -/
theorem tmmaOf_clear (c : Core) (w : W64) (b : Nat) (p : Prop) [Decidable p] :
    tmmaOf (if p then zeroBank b c else c) w = tmmaOf c w := by split <;> rfl

theorem tmmaOp_of_none {s : State} {u slot : Nat} {w : W64} (h : tmmaTrap (tmmaOf (getCore s u) w) = none) :
    tmmaOp u slot w s = setCore s u
      (let c := if fld w 26 26 = 1 then zeroBank (fld w 28 27) (getCore s u) else getCore s u
       if (tmmaOf c w).k = 0 then c else { c with tensor := c.tensor ++ [tmmaOf c w] }) := by
  simp only [tmmaOp, h, tmmaOf_clear]
  rfl

theorem tmmaOp_of_trap {s : State} {u slot cause addr : Nat} {w : W64}
    (h : tmmaTrap (tmmaOf (getCore s u) w) = some (cause, addr)) : tmmaOp u slot w s = coreTrap u slot cause addr s := by
  simp only [tmmaOp, h]

theorem toutOp_queue {s : State} {u slot : Nat} {w : W64} (hdk : fld w 18 18 = 0) :
    toutOp u slot w s = setCore s u ((List.range 4).foldl (fun c i => setVector c (0x30 + fld w 17 13)
      (ofLanes ((((getCore s u).acc.getD (fld w 22 21) []).drop (16 * i)).take 16))) (getCore s u)) := by
  simp only [toutOp, hdk, if_true]

theorem toutOp_sram {s : State} {u slot : Nat} {w : W64} (hdk : fld w 18 18 = 1)
    (h : accessTrap (getCore s u) ((getCore s u).s.getD (fld w 17 13) 0).toNat 256 64 true = none) :
    toutOp u slot w s = setCore s u { getCore s u with
      sram := wrN (getCore s u).sram ((getCore s u).s.getD (fld w 17 13) 0).toNat
        (bankBytes ((getCore s u).acc.getD (fld w 22 21) [])) } := by
  simp only [toutOp, hdk, h, Nat.one_ne_zero, if_false]

theorem toutOp_trap {s : State} {u slot cause addr : Nat} {w : W64} (hdk : fld w 18 18 = 1)
    (h : accessTrap (getCore s u) ((getCore s u).s.getD (fld w 17 13) 0).toNat 256 64 true = some (cause, addr)) :
    toutOp u slot w s = coreTrap u slot cause addr s := by
  simp only [toutOp, hdk, h, Nat.one_ne_zero, if_false]

/-- Settles O14: TMMA and TOUT run or trap as their checks say. -/
theorem coreTensorRuns : Obligations.CoreTensorRuns := fun _ _ _ _ =>
  ⟨fun h ht => coreCmd_runs h (tmmaOp_of_none ht), fun h => coreCmd_issues h, fun h => coreCmd_issues h,
    fun h => coreCmd_issues h, fun h hdk => coreCmd_runs h (toutOp_queue hdk),
    fun h hdk ht => coreCmd_runs h (toutOp_sram hdk ht),
    fun _ _ => ⟨fun h ht => coreCmd_runs h (tmmaOp_of_trap ht), fun h hdk ht => coreCmd_runs h (toutOp_trap hdk ht)⟩⟩

end Sys2Proof.Proofs
end

section
/-! PROOFS. Conversions, movers and mesh instructions of a core at issue, and the commands that carry on with what they began: a TMMA's
steps, a fetched seed, a mover's entries (03 R116, 04 R156 to R164). -/

namespace Sys2Proof.Proofs

open Sys2Proof Sys2Proof.Machine

/-! ## A step of the tensor datapath -/

theorem execTmmaStep_of_ready {s : State} {u : Nat} {t : Tmma} {ts : List Tmma} (hcc : isCc u = true)
    (ht : (getCore s u).tensor = t :: ts) (hrun : enginesRun s u = true) (hready : stepReady (getCore s u) t = true) :
    execTmmaStep u s = .next (setCore s u
      { stepAll (takePiece (getCore s u) t).1 (takePiece (getCore s u) t).2 with
        tensor := if stepsLeft { (takePiece (getCore s u) t).2 with done := (takePiece (getCore s u) t).2.done + 1 } = 0 then ts
          else { (takePiece (getCore s u) t).2 with done := (takePiece (getCore s u) t).2.done + 1 } :: ts }) := by
  simp only [execTmmaStep, hcc, ht, hrun, hready, Bool.not_true, Bool.false_eq_true, if_false, Bool.and_self, if_true]

theorem execTmmaStep_of_not_ready {s : State} {u : Nat} {t : Tmma} {ts : List Tmma} (hcc : isCc u = true)
    (ht : (getCore s u).tensor = t :: ts) (hready : stepReady (getCore s u) t = false) : execTmmaStep u s = .next s := by
  simp only [execTmmaStep, hcc, ht, hready, Bool.not_true, Bool.false_eq_true, if_false, Bool.and_false]

/-- Settles O15. -/
theorem tmmaStepRuns : Obligations.TmmaStepRuns := fun _ _ _ _ hcc ht =>
  ⟨fun hrun hready => execTmmaStep_of_ready hcc ht hrun hready, fun hready => execTmmaStep_of_not_ready hcc ht hready⟩

/-! ## Conversions -/

/-- Results and flags gathered in one pass are those of two. -/
theorem foldr_results_flags {α β : Type} (g : α → β) (fl : α → Fl) (l : List α) :
    l.foldr (fun x (a : List β × Fl) => (g x :: a.1, fl x ||| a.2)) ([], 0) = (l.map g, l.foldr (fun x f => fl x ||| f) 0) := by
  induction l with
  | nil => rfl
  | cons x l ih => simp only [List.foldr_cons, ih, List.map_cons]

theorem elems_getD {b n x i : Nat} (h : i < n) : (elems b n x).getD i 0 = bitsOf x (b * i + b - 1) (b * i) := by
  simp [elems, List.getD_eq_getElem?_getD, h]

/-- The elements of 32 bits, each taken through a conversion. -/
theorem map_elems_getD {α : Type} (f : Nat → α) (b n x : Nat) :
    (List.range n).map (fun i => f ((elems b n x).getD i 0)) =
      (List.range n).map (fun i => f (bitsOf x (b * i + b - 1) (b * i))) :=
  List.map_congr_left fun i hi => by rw [elems_getD (List.mem_range.mp hi)]

theorem map_elems {α : Type} (f : Nat → α) (b n x : Nat) :
    (elems b n x).map f = (List.range n).map (fun i => f (bitsOf x (b * i + b - 1) (b * i))) := by
  rw [elems, List.map_map]
  rfl

section
variable {u : Nat} {w : W64}

/-- A conversion that rounds to nearest, or from another format than FP32, waits for no seed. -/
theorem vcvtOp_of_no_wait (h : (fld w 8 8 == 1 && cvtNarrows w) = false) :
    vcvtOp u w = fun c => vcvtWith u w (vectorSrc c (fB w)) ((scalarSrc c (fld w 7 2)).toNat % 256) c := by
  funext c
  simp only [vcvtOp, h, seedWait, Bool.false_and, Bool.false_eq_true, if_false]

theorem cvtNarrows_of_eq (h : fld w 16 13 = 15) : cvtNarrows w = true := by rw [cvtNarrows, h]; rfl

theorem cvtNarrows_of_ne (h : fld w 16 13 ≠ 15) : cvtNarrows w = false := by simpa [cvtNarrows] using h

/-- From FP32, to nearest. -/
theorem vcvtOp_narrow (hrm : fld w 8 8 = 0) (hfrom : fld w 16 13 = 15) :
    vcvtOp u w = fun c =>
      let r := (List.range 16).map (fun i => narrow c.e5sat (fld w 12 9) none
        (BitVec.ofNat 32 (bitsOf (vectorSrc c (fB w)).toNat (32 * i + 31) (32 * i))))
      setVector (setAflags c (r.foldr (fun x f => x.2 ||| f) 0 ||| 0)) (fA w)
        (BitVec.ofNat 512 (packBits (codeBits (fld w 12 9)) (r.map (·.1)))) := by
  rw [vcvtOp_of_no_wait (by rw [hrm]; rfl)]
  funext c
  have h32 : codeBits 15 = 32 := rfl
  simp only [vcvtWith, cvtNarrows_of_eq hfrom, hrm, hfrom, h32, Nat.zero_ne_one, decide_false, Bool.false_and, Bool.false_eq_true,
    if_false, if_true, foldr_results_flags]
  rw [map_elems_getD (fun x => narrow c.e5sat (fld w 12 9) none (BitVec.ofNat 32 x))]
  rfl

/-- To INT8, from another format than FP32. -/
theorem vcvtOp_int8 (hfrom : fld w 16 13 ≠ 15) (hto : fld w 12 9 = 9) :
    vcvtOp u w = fun c =>
      let b := codeBits (fld w 16 13)
      let r := (List.range 16).map (fun i => int32to8 (BitVec.ofNat 32 (bitsOf (vectorSrc c (fB w)).toNat (b * i + b - 1) (b * i))))
      setVector (setAflags c (r.foldr (fun x f => x.2 ||| f) 0 ||| 0)) (fA w)
        (BitVec.ofNat 512 (packBits 8 (r.map (·.1)))) := by
  rw [vcvtOp_of_no_wait (by rw [cvtNarrows_of_ne hfrom, Bool.and_false])]
  funext c
  have h8 : codeBits 9 = 8 := rfl
  simp only [vcvtWith, cvtNarrows_of_ne hfrom, hto, h8, Bool.and_false, Bool.false_eq_true, if_false, if_true,
    foldr_results_flags, map_elems]

/-- To FP32, from another format. -/
theorem vcvtOp_widen (hfrom : fld w 16 13 ≠ 15) (hto : fld w 12 9 ≠ 9) :
    vcvtOp u w = fun c =>
      let b := codeBits (fld w 16 13)
      let r := (List.range 16).map (fun i => widen c.ftz8 (fld w 16 13)
        (bitsOf (vectorSrc c (fB w)).toNat (b * i + b - 1) (b * i)) ((scalarSrc c (fld w 7 2)).toNat % 256))
      setVector (setAflags c (r.foldr (fun x f => x.2 ||| f) 0 ||| 0)) (fA w)
        (BitVec.ofNat 512 (packBits (codeBits (fld w 12 9)) (r.map (fun x => x.1.toNat)))) := by
  rw [vcvtOp_of_no_wait (by rw [cvtNarrows_of_ne hfrom, Bool.and_false])]
  funext c
  simp only [vcvtWith, cvtNarrows_of_ne hfrom, hto, Bool.and_false, Bool.false_eq_true, if_false,
    foldr_results_flags, map_elems]

/-- A stochastic conversion is held while its seed is fetched (03 R116). -/
theorem vcvtOp_held {c : Core} (hrm : fld w 8 8 = 1) (hfrom : fld w 16 13 = 15) (hset : c.srSet = true) (hvalid : c.srValid = false) :
    vcvtOp u w c = { c with
      conv := some { word := w, src := [vectorSrc c (fB w)], scale := (scalarSrc c (fld w 7 2)).toNat % 256 } } := by
  simp only [vcvtOp, cvtNarrows_of_eq hfrom, hrm, seedWait, hset, hvalid, beq_self_eq_true, Bool.and_self, Bool.not_false, if_true]

theorem seedWait_of_imp {c : Core} (h : c.srSet = true → c.srValid = true) (stoch : Bool) : seedWait c stoch = false := by
  cases hset : c.srSet with
  | false => simp only [seedWait, hset, Bool.and_false, Bool.false_and]
  | true => simp only [seedWait, h hset, Bool.not_true, Bool.and_false]

/-- A stochastic conversion draws at once where no seed is fetched. -/
theorem vcvtOp_drawn {c : Core} (h : c.srSet = true → c.srValid = true) :
    vcvtOp u w c = vcvtWith u w (vectorSrc c (fB w)) ((scalarSrc c (fld w 7 2)).toNat % 256) c := by
  simp only [vcvtOp, seedWait_of_imp h, Bool.false_eq_true, if_false]

/-- VCVTMX, to nearest. -/
theorem vcvtmxOp_nearest (hrm : fld w 6 6 = 0) :
    vcvtmxOp u w = fun c =>
      let r := toMx (fld w 10 7) [] (lanes (vectorSrc c (fB w)) ++ lanes (vectorSrc c (fB w + 1)))
      setScalar (setVector (setAflags c (r.2.2 ||| 0)) (fA w) (BitVec.ofNat 512 (packBits (codeBits (fld w 10 7)) r.1))) (fC w)
        (BitVec.ofNat 32 r.2.1) := by
  funext c
  have h01 : (0 == 1) = false := rfl
  simp only [vcvtmxOp, hrm, h01, seedWait, vcvtmxWith, Bool.false_and, Bool.false_eq_true, if_false, Nat.zero_ne_one, List.flatMap_cons,
    List.flatMap_nil, List.append_nil]

theorem vcvtmxOp_held {c : Core} (hrm : fld w 6 6 = 1) (hset : c.srSet = true) (hvalid : c.srValid = false) :
    vcvtmxOp u w c = { c with
      conv := some { word := w, src := [vectorSrc c (fB w), vectorSrc c (fB w + 1)], scale := 0 } } := by
  simp only [vcvtmxOp, hrm, seedWait, hset, hvalid, beq_self_eq_true, Bool.and_self, Bool.not_false, if_true]

theorem vcvtmxOp_drawn {c : Core} (h : c.srSet = true → c.srValid = true) :
    vcvtmxOp u w c = vcvtmxWith u w [vectorSrc c (fB w), vectorSrc c (fB w + 1)] c := by
  simp only [vcvtmxOp, seedWait_of_imp h, Bool.false_eq_true, if_false]

end

/-- Settles O19: the two conversions by rounding and format, and a stochastic one by whether its seed is there. -/
theorem coreConvertRuns : Obligations.CoreConvertRuns := fun s u _ _ =>
  ⟨fun h hrm hfrom => coreCmd_runs h (congrArg (fun f => onCore u f s) (vcvtOp_narrow hrm hfrom)),
    fun h hfrom hto => coreCmd_runs h (congrArg (fun f => onCore u f s) (vcvtOp_int8 hfrom hto)),
    fun h hfrom hto => coreCmd_runs h (congrArg (fun f => onCore u f s) (vcvtOp_widen hfrom hto)),
    fun h hrm hfrom hset hvalid => coreCmd_runs h (congrArg (setCore s u) (vcvtOp_held hrm hfrom hset hvalid)),
    fun h _ _ hseed => coreCmd_runs h (congrArg (setCore s u) (vcvtOp_drawn hseed)),
    fun h hrm => coreCmd_runs h (congrArg (fun f => onCore u f s) (vcvtmxOp_nearest hrm)),
    fun h hrm hset hvalid => coreCmd_runs h (congrArg (setCore s u) (vcvtmxOp_held hrm hset hvalid)),
    fun h _ hseed => coreCmd_runs h (congrArg (setCore s u) (vcvtmxOp_drawn hseed))⟩

/-! ## Seeds -/

/-- Settles O20: an arrival at a core that waits, and at a function unit that fetches. -/
theorem seedArrives : Obligations.SeedArrives := by
  refine fun s u => ⟨fun hcc hset hvalid => ?core, fun hsfu hcc hfetch => ?sfu⟩
  case core => exact (if_pos hcc).trans (if_pos (by rw [hset, hvalid]; rfl))
  case sfu => exact (if_neg (by rw [hcc]; exact Bool.false_ne_true)).trans ((if_pos hsfu).trans (if_pos hfetch))

/-! ## Queue movers -/

section
variable {s : State} {u slot cause addr : Nat} {w : W64} {m : Mover}

theorem qmovinOp_of_none (h : moverTrap (getCore s u) (moverOf (getCore s u) w).addr (moverOf (getCore s u) w).left true = none) :
    qmovinOp u slot w s = setCore s u { getCore s u with inMover := some (moverOf (getCore s u) w) } := by
  simp only [qmovinOp, h]

theorem qmovinOp_of_trap
    (h : moverTrap (getCore s u) (moverOf (getCore s u) w).addr (moverOf (getCore s u) w).left true = some (cause, addr)) :
    qmovinOp u slot w s = coreTrap u slot cause addr s := by
  simp only [qmovinOp, h]

theorem qmovoutOp_of_none (h : moverTrap (getCore s u) (moverOf (getCore s u) w).addr (moverOf (getCore s u) w).left false = none) :
    qmovoutOp u slot w s = setCore s u { getCore s u with outMover := some (moverOf (getCore s u) w) } := by
  simp only [qmovoutOp, h]

theorem qmovoutOp_of_trap
    (h : moverTrap (getCore s u) (moverOf (getCore s u) w).addr (moverOf (getCore s u) w).left false = some (cause, addr)) :
    qmovoutOp u slot w s = coreTrap u slot cause addr s := by
  simp only [qmovoutOp, h]

/-- A running inbound mover moves an entry where its queue holds one, and waits else. -/
theorem execQueueMoverEntry_in (hcc : isCc u = true) (hrun : enginesRun s u = true) (hm : (getCore s u).inMover = some m) :
    execQueueMoverEntry u false s =
      if 64 ≤ streamAvail (qAt (getCore s u).iq m.q) then .next (setCore s u (moveIn (getCore s u) m)) else .next s := by
  simp only [execQueueMoverEntry, hcc, hrun, hm, Bool.not_true, Bool.false_eq_true, if_false]

/-- A running outbound mover moves an entry where its queue has room for one, and waits else. -/
theorem execQueueMoverEntry_out (hcc : isCc u = true) (hrun : enginesRun s u = true) (hm : (getCore s u).outMover = some m) :
    execQueueMoverEntry u true s =
      if (qAt (getCore s u).oq m.q).ents.length + heldPlaces s u m.q < 4 then .next (setCore s u (moveOut (getCore s u) m))
      else .next s := by
  simp only [execQueueMoverEntry, hcc, hrun, hm, Bool.not_true, Bool.false_eq_true, if_false, if_true]

end

/-- Settles O21: a mover at issue and at each of its entries. -/
theorem moversRun : Obligations.MoversRun := fun _ _ _ _ =>
  ⟨fun h ht => coreCmd_runs h (qmovinOp_of_none ht), fun h ht => coreCmd_runs h (qmovoutOp_of_none ht),
    fun _ _ => ⟨fun h ht => coreCmd_runs h (qmovinOp_of_trap ht), fun h ht => coreCmd_runs h (qmovoutOp_of_trap ht)⟩,
    fun _ hcc hrun =>
      ⟨fun hm havail => (execQueueMoverEntry_in hcc hrun hm).trans (if_pos havail),
        fun hm havail => (execQueueMoverEntry_in hcc hrun hm).trans (if_neg (Nat.not_le.mpr havail)),
        fun hm hroom => (execQueueMoverEntry_out hcc hrun hm).trans (if_pos hroom),
        fun hm hroom => (execQueueMoverEntry_out hcc hrun hm).trans (if_neg (Nat.not_lt.mpr hroom))⟩⟩

/-! ## Mesh instructions -/

section
variable {s : State} {u slot cause addr : Nat} {w : W64}

theorem mputOp_unicast (hmc : bitsOf (regAt (getCore s u) (fld w 28 24)) 31 31 = 0)
    (ht : meshTrap (getCore s u) (regAt (getCore s u) (fld w 18 14)) (regAt (getCore s u) (fld w 13 9)) 256 false = none) :
    mputOp u slot w s = request u
      { src := u, dest := regAt (getCore s u) (fld w 28 24) % 2 ^ 20, op := opWrite, len := regAt (getCore s u) (fld w 13 9) / 8 - 1,
        hold := decide (fld w 8 8 = 1), daddr := regAt (getCore s u) (fld w 23 19) % 2 ^ 20, ctx := (getCore s u).srCtx,
        payload := bytesWords (regAt (getCore s u) (fld w 13 9) / 8)
          (rdN (getCore s u).sram (regAt (getCore s u) (fld w 18 14)) (regAt (getCore s u) (fld w 13 9))) }
      (.put (pdOf (fld w 4 4) (fld w 7 5)))
      (holdFor u (regAt (getCore s u) (fld w 28 24) % 2 ^ 20) (decide (fld w 8 8 = 1)) s) := by
  simp only [mputOp, hmc, Nat.zero_ne_one, if_false, ht]

theorem mputOp_multicast (hmc : bitsOf (regAt (getCore s u) (fld w 28 24)) 31 31 = 1)
    (ht : meshTrap (getCore s u) (regAt (getCore s u) (fld w 18 14)) (regAt (getCore s u) (fld w 13 9)) 248 false = none) :
    let g := groupOfUnit s u (bitsOf (regAt (getCore s u) (fld w 28 24)) 25 20)
    mputOp u slot w s = request u
      { src := u, dest := unitAt (bitsOf g.toNat 9 0) (bitsOf g.toNat 19 10), op := opWrite, len := regAt (getCore s u) (fld w 13 9) / 8,
        mcast := true, daddr := regAt (getCore s u) (fld w 23 19) % 2 ^ 20, ctx := (getCore s u).srCtx,
        arg := bitsOf (regAt (getCore s u) (fld w 28 24)) 25 20,
        payload := extentWord g :: bytesWords (regAt (getCore s u) (fld w 13 9) / 8)
          (rdN (getCore s u).sram (regAt (getCore s u) (fld w 18 14)) (regAt (getCore s u) (fld w 13 9))) }
      (.mput (List.range (groupRows g)) [] [] none (pdOf (fld w 4 4) (fld w 7 5))) (holdFor u 0 false s) := by
  simp only [mputOp, hmc, if_true, ht]

theorem mputOp_of_trap
    (ht : meshTrap (getCore s u) (regAt (getCore s u) (fld w 18 14)) (regAt (getCore s u) (fld w 13 9))
      (if bitsOf (regAt (getCore s u) (fld w 28 24)) 31 31 = 1 then 248 else 256) false = some (cause, addr)) :
    mputOp u slot w s = coreTrap u slot cause addr s := by
  simp only [mputOp, ht]

theorem mgetOp_of_none
    (ht : meshTrap (getCore s u) (regAt (getCore s u) (fld w 18 14)) (regAt (getCore s u) (fld w 13 9)) 256 true = none) :
    mgetOp u slot w s = request u
      { src := u, dest := regAt (getCore s u) (fld w 28 24) % 2 ^ 20, op := opRead, len := regAt (getCore s u) (fld w 13 9) / 8 - 1,
        daddr := regAt (getCore s u) (fld w 23 19) % 2 ^ 20, ctx := (getCore s u).srCtx,
        arg := regAt (getCore s u) (fld w 18 14) / 8 }
      (.get (regAt (getCore s u) (fld w 18 14)) (pdOf (fld w 4 4) (fld w 7 5))) s := by
  simp only [mgetOp, ht]

theorem mgetOp_of_trap
    (ht : meshTrap (getCore s u) (regAt (getCore s u) (fld w 18 14)) (regAt (getCore s u) (fld w 13 9)) 256 true = some (cause, addr)) :
    mgetOp u slot w s = coreTrap u slot cause addr s := by
  simp only [mgetOp, ht]

end

/-- Settles O22: the packet of each instruction is the model's own; an MPUT is a unicast or a multicast by bit 31 of its destination. -/
theorem coreMeshRuns : Obligations.CoreMeshRuns := fun _ _ _ _ =>
  ⟨fun h => coreCmd_runs h rfl, fun h hmc ht => coreCmd_runs h (mputOp_unicast hmc ht),
    fun h hmc ht => coreCmd_runs h (mputOp_multicast hmc ht), fun h ht => coreCmd_runs h (mgetOp_of_none ht),
    fun h => coreCmd_runs h rfl, fun h => coreCmd_runs h rfl, fun h => coreCmd_runs h rfl,
    fun _ _ => ⟨fun h ht => coreCmd_runs h (mputOp_of_trap ht), fun h ht => coreCmd_runs h (mgetOp_of_trap ht)⟩⟩

end Sys2Proof.Proofs
end

section
/-! PROOFS. What a core's commands leave alone (04 R142, R148): outside the core and its mesh interface, everything but packets and the
event log; inside it, everything but the trace registers and what the operation names. -/

namespace Sys2Proof.Proofs

open Sys2Proof Sys2Proof.Machine

/-! ## The lowest ready slot (04 R142) -/

theorem firstReady_some {s : State} {u : Nat} {ws : List W64} {k n : Nat} {w : W64} (h : firstReady s u k ws = some (n, w)) :
    k ≤ n ∧ ws[n - k]? = some w ∧ slotReady s u w = true ∧
      ∀ m x, m < n - k → ws[m]? = some x → slotReady s u x = false := by
  induction ws generalizing k with
  | nil => cases h
  | cons y ws ih =>
    unfold firstReady at h
    split at h
    next hy =>
      cases h
      exact ⟨Nat.le_refl _, by simp, hy, fun m x hm => absurd hm (by omega)⟩
    next hy =>
      obtain ⟨hle, hw, hready, hlow⟩ := ih h
      have hk : n - k = n - (k + 1) + 1 := by omega
      rw [hk]
      refine ⟨by omega, by simpa using hw, hready, fun m x hm hx => ?_⟩
      cases m with
      | zero =>
        obtain rfl : y = x := by simpa using hx
        simpa using hy
      | succ m => exact hlow m x (by omega) (by simpa using hx)

theorem firstReady_isSome {s : State} {u : Nat} {ws : List W64} {m : Nat} {x : W64} (hx : ws[m]? = some x)
    (hready : slotReady s u x = true) (k : Nat) : ∃ n w, firstReady s u k ws = some (n, w) := by
  induction ws generalizing m k with
  | nil => simp at hx
  | cons y ws ih =>
    unfold firstReady
    split
    · exact ⟨_, _, rfl⟩
    next hy =>
      cases m with
      | zero =>
        obtain rfl : y = x := by simpa using hx
        exact absurd hready hy
      | succ m => exact ih (by simpa using hx) (k + 1)

theorem issueSlot_of_coreLive {s : State} {u : Nat} (h : coreLive s u = true) :
    issueSlot s u = firstReady s u 0 (getCore s u).cfg.slots := if_pos h

theorem issueSlot_of_not_coreLive {s : State} {u : Nat} (h : coreLive s u = false) : issueSlot s u = none :=
  if_neg (by rw [h]; exact Bool.false_ne_true)

theorem coreLive_of_stopped {s : State} {u : Nat} (h : (getCore s u).fended = true ∨ (getCore s u).trapCause ≠ 0) :
    coreLive s u = false := by
  unfold coreLive
  split
  · rfl
  · rcases h with h | h
    · simp [h]
    · exact (congrArg _ (beq_eq_false_iff_ne.mpr h)).trans (Bool.and_false _)

/-- Settles O23, by induction on the slots that are tried in turn. -/
theorem lowestReadySlotIssues : Obligations.LowestReadySlotIssues := by
  refine fun s u => ⟨fun n w h => ?lowest, fun hlive ⟨m, x, hx, hready⟩ => ?some, fun h => issueSlot_of_not_coreLive (coreLive_of_stopped h)⟩
  case lowest =>
    cases hlive : coreLive s u with
    | false => rw [issueSlot_of_not_coreLive hlive] at h; cases h
    | true =>
      rw [issueSlot_of_coreLive hlive] at h
      exact (firstReady_some h).2
  case some =>
    rw [issueSlot_of_coreLive hlive]
    exact firstReady_isSome hx hready 0

/-! ## INT8 products (03 R105) -/

theorem foldl_add_eq_add_sum (a : Int) (l : List Int) : l.foldl (· + ·) a = a + l.sum := by
  induction l generalizing a with
  | nil => simp
  | cons x l ih => rw [List.foldl_cons, ih, List.sum_cons, Int.add_assoc]

theorem accumulateInt_eq (acc : W32) (l : List Int) :
    accumulateInt acc l = if acc.toInt + l.sum > 2147483647 then (0x7FFFFFFF, fIOV)
      else if acc.toInt + l.sum < -2147483648 then (0x80000000, fIOV) else (BitVec.ofInt 32 (acc.toInt + l.sum), 0) := by
  simp only [accumulateInt, foldl_add_eq_add_sum]

/-- Settles O16. -/
theorem int8Accumulate : Obligations.Int8Accumulate := by
  intro acc l t
  have h := accumulateInt_eq acc l
  refine ⟨fun hlo hhi => ?within, fun hgt => ?above, fun hlt => ?below⟩
  case within =>
    rw [h, if_neg (Int.not_lt.mpr hhi), if_neg (Int.not_lt.mpr hlo)]
    refine ⟨?_, rfl⟩
    rw [BitVec.toInt_ofInt]
    exact Int.bmod_eq_of_le (by omega) (by omega)
  case above => exact h.trans (if_pos hgt)
  case below => exact h.trans ((if_neg (by omega)).trans (if_pos hlt))

/-! ## Outside the core -/

/-- State t differs from s in core u and its mesh interface, packets and the event log at most. -/
structure CoreOnly (u : Nat) (s t : State) : Prop where
  cores : ∀ v, v ≠ u → getCore t v = getCore s v
  mifs : ∀ v, v ≠ u → getMif t v = getMif s v
  host : { t.host with log := s.host.log, nextEvt := s.host.nextEvt, evtLost := s.host.evtLost } = s.host
  rest : { t with cores := s.cores, mifs := s.mifs, flights := s.flights, host := s.host } = s

namespace CoreOnly

variable {u : Nat} {s t r : State}

theorem refl (u : Nat) (s : State) : CoreOnly u s s := ⟨fun _ _ => rfl, fun _ _ => rfl, rfl, rfl⟩

theorem trans (h : CoreOnly u s t) (h' : CoreOnly u t r) : CoreOnly u s r where
  cores v hv := (h'.cores v hv).trans (h.cores v hv)
  mifs v hv := (h'.mifs v hv).trans (h.mifs v hv)
  host := by
    calc { r.host with log := s.host.log, nextEvt := s.host.nextEvt, evtLost := s.host.evtLost }
      _ = { { r.host with log := t.host.log, nextEvt := t.host.nextEvt, evtLost := t.host.evtLost } with
            log := s.host.log, nextEvt := s.host.nextEvt, evtLost := s.host.evtLost } := rfl
      _ = s.host := by rw [h'.host, h.host]
  rest := by
    calc { r with cores := s.cores, mifs := s.mifs, flights := s.flights, host := s.host }
      _ = { { r with cores := t.cores, mifs := t.mifs, flights := t.flights, host := t.host } with
            cores := s.cores, mifs := s.mifs, flights := s.flights, host := s.host } := rfl
      _ = s := by rw [h'.rest, h.rest]

theorem setCore (c : Core) (h : CoreOnly u s t) : CoreOnly u s (setCore t u c) :=
  h.trans ⟨fun v hv => getCore_setCore_ne t u v c hv, fun _ _ => rfl, rfl, rfl⟩

theorem modCore (f : Core → Core) (h : CoreOnly u s t) : CoreOnly u s (modCore t u f) := h.setCore _

theorem setMif (m : MeshIf) (h : CoreOnly u s t) : CoreOnly u s (setMif t u m) :=
  h.trans ⟨fun _ _ => rfl, fun v hv => getMif_setMif_ne t u v m hv, rfl, rfl⟩

theorem modMif (f : MeshIf → MeshIf) (h : CoreOnly u s t) : CoreOnly u s (modMif t u f) := h.setMif _

theorem setFlights (l : List Flight) (h : CoreOnly u s t) : CoreOnly u s { t with flights := l } :=
  h.trans ⟨fun _ _ => rfl, fun _ _ => rfl, rfl, rfl⟩

theorem raise (code : Nat) (polder ctx unit : Option Nat) (arg : Nat) (h : CoreOnly u s t) :
    CoreOnly u s (raise code polder ctx unit arg t) := by
  refine h.trans ?_
  unfold Machine.raise
  dsimp only
  split <;> exact ⟨fun _ _ => rfl, fun _ _ => rfl, rfl, rfl⟩

theorem ite {c : Prop} [Decidable c] (h : CoreOnly u s t) (h' : CoreOnly u s r) : CoreOnly u s (if c then t else r) := by
  split
  · exact h
  · exact h'

/-! ### The operations that a core's command is made of -/

theorem send (p : Packet) (h : CoreOnly u s t) : CoreOnly u s (send p t) := by
  unfold Machine.send
  exact ite (ite h (h.setFlights _)) (ite (ite h (h.setFlights _)) (h.setFlights _))

theorem request (p : Packet) (use : Use) (h : CoreOnly u s t) : CoreOnly u s (request u p use t) := (h.setMif _).send _

theorem requestOnly (p : Packet) (h : CoreOnly u s t) : CoreOnly u s (requestOnly u p t) := (h.setMif _).send _

theorem releaseHeld (h : CoreOnly u s t) : CoreOnly u s (releaseHeld u t) := by
  unfold Machine.releaseHeld
  split
  · exact h
  · exact (h.modMif _).send _

theorem holdFor (dest : Nat) (hold : Bool) (h : CoreOnly u s t) : CoreOnly u s (holdFor u dest hold t) := by
  unfold Machine.holdFor
  exact ite h (ite (h.releaseHeld.modMif _) h.releaseHeld)

theorem abandon (h : CoreOnly u s t) : CoreOnly u s (abandon u t) := by
  unfold Machine.abandon
  exact ((h.setFlights _).modMif _).modCore _

theorem traceDrop (h : CoreOnly u s t) : CoreOnly u s (traceDrop u t) := by
  unfold Machine.traceDrop
  exact ite (h.setCore _) ((h.setCore _).raise _ _ _ _ _)

theorem trace (kind slot : Nat) (words : List W64) (h : CoreOnly u s t) : CoreOnly u s (trace u kind slot words t) := by
  unfold Machine.trace
  exact ite h (ite (h.setCore _).traceDrop (((h.setCore _).modCore _).request _ _))

theorem coreTrap (slot cause addr : Nat) (h : CoreOnly u s t) : CoreOnly u s (coreTrap u slot cause addr t) :=
  ((h.abandon.modCore _).raise _ _ _ _ _).trace _ _ _

theorem issueWith (slot : Nat) (w : W64) {f : State → State} (h : CoreOnly u s (f s)) :
    CoreOnly u s (issueWith u slot w f s) := (h.modCore _).trace _ _ _

theorem onCore (f : Core → Core) (s : State) : CoreOnly u s (onCore u f s) := (refl u s).modCore f

/-- The frame of a command, from the frame of its effect. -/
theorem coreCmd {opc : Nat} {eff : Nat → W64 → State → State} (h : ∀ slot w, CoreOnly u s (eff slot w s)) :
    Goes (CoreOnly u s) (coreCmd u opc eff s) := by
  unfold Machine.coreCmd
  split
  · exact (Goes_fault _ _).symm ▸ trivial
  · split
    · split
      · exact (Goes_next _ _).symm ▸ issueWith _ _ (h _ _)
      · exact (Goes_next _ _).symm ▸ refl u s
    · exact (Goes_next _ _).symm ▸ refl u s

theorem memOp (n slot : Nat) (write : Bool) (f : Nat → Core → Core) (w : W64) :
    CoreOnly u s (memOp u n write f slot w s) := by
  unfold Machine.memOp
  dsimp only
  split
  · exact (refl u s).coreTrap _ _ _
  · exact onCore _ s

theorem tmmaOp (slot : Nat) (w : W64) : CoreOnly u s (tmmaOp u slot w s) := by
  unfold Machine.tmmaOp
  dsimp only
  split
  · exact (refl u s).coreTrap _ _ _
  · exact (refl u s).setCore _

theorem toutOp (slot : Nat) (w : W64) : CoreOnly u s (toutOp u slot w s) := by
  unfold Machine.toutOp
  dsimp only
  split
  · exact (refl u s).setCore _
  · split
    · exact (refl u s).coreTrap _ _ _
    · exact (refl u s).setCore _

theorem qmovinOp (slot : Nat) (w : W64) : CoreOnly u s (qmovinOp u slot w s) := by
  unfold Machine.qmovinOp
  dsimp only
  split
  · exact (refl u s).coreTrap _ _ _
  · exact (refl u s).setCore _

theorem qmovoutOp (slot : Nat) (w : W64) : CoreOnly u s (qmovoutOp u slot w s) := by
  unfold Machine.qmovoutOp
  dsimp only
  split
  · exact (refl u s).coreTrap _ _ _
  · exact (refl u s).setCore _

theorem mputOp (slot : Nat) (w : W64) : CoreOnly u s (mputOp u slot w s) := by
  unfold Machine.mputOp
  dsimp only
  split
  · exact (refl u s).coreTrap _ _ _
  · exact ite (((refl u s).holdFor _ _).request _ _) (((refl u s).holdFor _ _).request _ _)

theorem mgetOp (slot : Nat) (w : W64) : CoreOnly u s (mgetOp u slot w s) := by
  unfold Machine.mgetOp
  dsimp only
  split
  · exact (refl u s).coreTrap _ _ _
  · exact (refl u s).request _ _

theorem execTmmaStep : Goes (CoreOnly u s) (execTmmaStep u s) := by
  unfold Machine.execTmmaStep
  dsimp only
  repeat' split
  all_goals simp only [Goes_next, Goes_fault, refl, setCore]

theorem execQueueMoverEntry (out : Bool) : Goes (CoreOnly u s) (execQueueMoverEntry u out s) := by
  unfold Machine.execQueueMoverEntry
  dsimp only
  repeat' split
  all_goals simp only [Goes_next, Goes_fault, refl, setCore]

end CoreOnly

open CoreOnly in
/-- Settles O24: every effect is made of operations that keep the frame. -/
theorem coreFrame : Obligations.CoreFrame := by
  intro s t u i hi ht
  have h : Goes (CoreOnly u s) (exec i s) := by
    clear ht
    revert i
    simp only [List.forall_mem_cons]
    exact ⟨
      coreCmd fun _ _ => refl u s, coreCmd fun _ _ => (onCore _ s).releaseHeld,
      coreCmd fun slot _ => (refl u s).coreTrap slot _ _, coreCmd fun _ _ => onCore _ s, coreCmd fun _ _ => onCore _ s,
      coreCmd fun _ _ => onCore _ s, coreCmd fun _ _ => onCore _ s, coreCmd fun _ _ => onCore _ s,
      coreCmd fun _ _ => onCore _ s, coreCmd fun _ _ => onCore _ s, coreCmd fun _ _ => onCore _ s,
      coreCmd fun _ _ => onCore _ s, coreCmd fun _ _ => onCore _ s, coreCmd fun _ _ => onCore _ s,
      coreCmd fun _ _ => onCore _ s, coreCmd fun _ _ => onCore _ s, coreCmd fun _ _ => onCore _ s,
      coreCmd fun _ _ => onCore _ s, coreCmd fun _ _ => onCore _ s, coreCmd fun _ _ => onCore _ s,
      coreCmd fun _ _ => onCore _ s, coreCmd fun slot w => memOp _ slot _ _ w,
      coreCmd fun slot w => memOp _ slot _ _ w, coreCmd fun slot w => memOp _ slot _ _ w,
      coreCmd fun slot w => memOp _ slot _ _ w, coreCmd fun _ _ => onCore _ s, coreCmd fun _ _ => onCore _ s,
      coreCmd fun _ _ => onCore _ s, coreCmd fun _ _ => onCore _ s, coreCmd fun _ _ => onCore _ s,
      coreCmd fun _ _ => onCore _ s, coreCmd fun _ _ => onCore _ s, coreCmd fun _ _ => onCore _ s,
      coreCmd fun _ _ => onCore _ s, coreCmd fun _ _ => onCore _ s, coreCmd fun _ _ => onCore _ s,
      coreCmd fun _ _ => onCore _ s, coreCmd fun _ _ => onCore _ s, coreCmd fun slot w => tmmaOp slot w,
      coreCmd fun _ _ => onCore _ s, coreCmd fun _ _ => onCore _ s, coreCmd fun _ _ => onCore _ s,
      coreCmd fun slot w => toutOp slot w, coreCmd fun slot w => qmovinOp slot w,
      coreCmd fun slot w => qmovoutOp slot w, coreCmd fun _ _ => (refl u s).requestOnly _,
      coreCmd fun slot w => mputOp slot w, coreCmd fun slot w => mgetOp slot w,
      coreCmd fun _ _ => (refl u s).request _ _, coreCmd fun _ _ => (refl u s).request _ _,
      coreCmd fun _ _ => (refl u s).request _ _, execTmmaStep, execQueueMoverEntry _, execQueueMoverEntry _,
      fun _ hi => nomatch hi⟩
  obtain ⟨hcores, hmifs, hhost, hrest⟩ := h t ht
  exact ⟨fun v hv => ⟨hcores v hv, hmifs v hv⟩, hhost, hrest⟩

end Sys2Proof.Proofs
end

section
/-! PROOFS. What an instruction leaves alone inside its core (04 R142, R148, R153, R166): the registers that the updates of a word, a
destination, an access to local SRAM and a trap each name. -/

namespace Sys2Proof.Proofs

open Sys2Proof Sys2Proof.Machine

/-! ## Trace records -/

/-- A core but for its trace registers. -/
def untraced (c : Core) : Core := { c with trcSent := {}, trcDrops := {}, trcSeq := 0, trcDropped := false }

@[simp] theorem untraced_s (c : Core) : (untraced c).s = c.s := rfl
@[simp] theorem untraced_v (c : Core) : (untraced c).v = c.v := rfl
@[simp] theorem untraced_sram (c : Core) : (untraced c).sram = c.sram := rfl
@[simp] theorem untraced_oq (c : Core) : (untraced c).oq = c.oq := rfl
@[simp] theorem untraced_pred (c : Core) : (untraced c).pred = c.pred := rfl
@[simp] theorem untraced_iq (c : Core) : (untraced c).iq = c.iq := rfl
@[simp] theorem untraced_aflags (c : Core) : (untraced c).aflags = c.aflags := rfl
@[simp] theorem untraced_inbox (c : Core) : (untraced c).inbox = c.inbox := rfl
@[simp] theorem untraced_tensor (c : Core) : (untraced c).tensor = c.tensor := rfl
@[simp] theorem untraced_inMover (c : Core) : (untraced c).inMover = c.inMover := rfl
@[simp] theorem untraced_outMover (c : Core) : (untraced c).outMover = c.outMover := rfl
@[simp] theorem untraced_conv (c : Core) : (untraced c).conv = c.conv := rfl
@[simp] theorem untraced_fenced (c : Core) : (untraced c).fenced = c.fenced := rfl
@[simp] theorem untraced_trapCause (c : Core) : (untraced c).trapCause = c.trapCause := rfl
@[simp] theorem untraced_trapSlot (c : Core) : (untraced c).trapSlot = c.trapSlot := rfl
@[simp] theorem untraced_trapAddr (c : Core) : (untraced c).trapAddr = c.trapAddr := rfl

@[simp] theorem getCore_raise (code : Nat) (polder ctx unit : Option Nat) (arg : Nat) (s : State) (u : Nat) :
    getCore (raise code polder ctx unit arg s) u = getCore s u := by
  unfold raise
  dsimp only
  split <;> rfl

@[simp] theorem getCore_send (p : Packet) (s : State) (u : Nat) : getCore (send p s) u = getCore s u := by
  unfold send
  dsimp only
  repeat' split
  all_goals rfl

@[simp] theorem getCore_request (v : Nat) (p : Packet) (use : Use) (s : State) (u : Nat) :
    getCore (request v p use s) u = getCore s u := getCore_send _ _ _

@[simp] theorem getCore_modCore (s : State) (u : Nat) (f : Core → Core) : getCore (modCore s u f) u = f (getCore s u) :=
  getCore_setCore _ _ _

theorem untraced_traceDrop (u : Nat) (s : State) : untraced (getCore (traceDrop u s) u) = untraced (getCore s u) := by
  unfold traceDrop
  dsimp only
  split
  · rw [getCore_setCore]; rfl
  · rw [getCore_raise, getCore_setCore]; rfl

theorem untraced_trace (u kind slot : Nat) (words : List W64) (s : State) :
    untraced (getCore (trace u kind slot words s) u) = untraced (getCore s u) := by
  unfold trace
  dsimp only
  split
  · rfl
  · split
    · rw [untraced_traceDrop, getCore_setCore]; rfl
    · rw [getCore_request, getCore_modCore, getCore_setCore]; rfl

/-- The core after an instruction has issued, but for its trace registers. -/
theorem untraced_issueWith (u slot : Nat) (w : W64) (f : State → State) (s : State) :
    untraced (getCore (issueWith u slot w f s) u) = untraced (dequeueAll w (predUpdates w (getCore (f s) u))) := by
  rw [issueWith, untraced_trace, getCore_modCore]

/-! ## The updates of a word: predicates and dequeues (04 R135, R144) -/

theorem predUpdates_eq (w : W64) (c : Core) : predUpdates w c = { c with pred := (predUpdates w c).pred } := by
  simp only [predUpdates, setPred]
  repeat' split
  all_goals rfl

/-- The new predicates depend on the old ones alone. -/
theorem predUpdates_pred_congr (w : W64) {c c' : Core} (h : c.pred = c'.pred) :
    (predUpdates w c).pred = (predUpdates w c').pred := by
  simp only [predUpdates, setPred]
  repeat' split
  all_goals simp only [h]

/-- The dequeue of one queue, with the flags gathered. -/
def dequeueAt (w : W64) (r : Core × BitVec 8) (i : Nat) : Core × BitVec 8 :=
  if fld w (29 + i) (29 + i) = 1 then
    let h := qPop (qAt r.1.iq i)
    ({ r.1 with iq := lset r.1.iq i h.1 }, r.2 ||| entFlags h.2)
  else r

theorem dequeue_eq_foldl (w : W64) (c : Core) :
    dequeue w c = setAflags ((List.range 4).foldl (dequeueAt w) (c, 0)).1 ((List.range 4).foldl (dequeueAt w) (c, 0)).2 := rfl

theorem dequeueAt_of_ne {w : W64} {i : Nat} (h : fld w (29 + i) (29 + i) ≠ 1) (r : Core × BitVec 8) : dequeueAt w r i = r := if_neg h

theorem foldl_dequeueAt_eq (w : W64) (l : List Nat) (r : Core × BitVec 8) :
    (l.foldl (dequeueAt w) r).1 = { r.1 with iq := (l.foldl (dequeueAt w) r).1.iq } := by
  induction l generalizing r with
  | nil => rfl
  | cons i l ih =>
    rw [List.foldl_cons, ih]
    unfold dequeueAt
    split <;> rfl

/-- A queue that DQ does not name stays. -/
theorem foldl_dequeueAt_iq {w : W64} {q : Nat} (h : fld w (29 + q) (29 + q) ≠ 1) (l : List Nat) (r : Core × BitVec 8) :
    (l.foldl (dequeueAt w) r).1.iq.getD q {} = r.1.iq.getD q {} := by
  induction l generalizing r with
  | nil => rfl
  | cons i l ih =>
    rw [List.foldl_cons, ih]
    unfold dequeueAt
    split
    next hi =>
      have hne : i ≠ q := by rintro rfl; exact h hi
      simp [lset, List.getD_eq_getElem?_getD, hne]
    next => rfl

/-- Where DQ names no queue nothing leaves. -/
theorem foldl_dequeueAt_of_none {w : W64} {l : List Nat} (h : ∀ i ∈ l, fld w (29 + i) (29 + i) ≠ 1) (r : Core × BitVec 8) :
    l.foldl (dequeueAt w) r = r := by
  induction l generalizing r with
  | nil => rfl
  | cons i l ih =>
    rw [List.foldl_cons, dequeueAt_of_ne (h i List.mem_cons_self)]
    exact ih (fun j hj => h j (List.mem_cons_of_mem _ hj)) r

theorem dequeueAll_eq (w : W64) (c : Core) :
    dequeueAll w c = { c with iq := (dequeueAll w c).iq, aflags := (dequeueAll w c).aflags, afCnt := (dequeueAll w c).afCnt,
                              inbox := (dequeueAll w c).inbox } := by
  unfold dequeueAll
  rw [dequeue_eq_foldl, foldl_dequeueAt_eq]
  dsimp only
  split <;> rfl

theorem dequeueAll_iq_getD {w : W64} {q : Nat} (h : fld w (29 + q) (29 + q) ≠ 1) (c : Core) :
    (dequeueAll w c).iq.getD q {} = c.iq.getD q {} := by
  have hd : (dequeue w c).iq.getD q {} = c.iq.getD q {} := foldl_dequeueAt_iq h _ (c, 0)
  unfold dequeueAll
  dsimp only
  split <;> exact hd

theorem dequeueAll_aflags {w : W64} (h : ∀ q, q < 4 → fld w (29 + q) (29 + q) ≠ 1) (c : Core) :
    (dequeueAll w c).aflags = c.aflags := by
  have hd : (dequeue w c).aflags = c.aflags := by
    rw [dequeue_eq_foldl, foldl_dequeueAt_of_none (fun i hi => h i (List.mem_range.mp hi))]
    exact BitVec.or_zero
  unfold dequeueAll
  dsimp only
  split <;> exact hd

theorem dequeueAll_inbox {w : W64} (h : fld w 33 33 = 0) (c : Core) : (dequeueAll w c).inbox = c.inbox := by
  have hd : (dequeue w c).inbox = c.inbox := by
    rw [dequeue_eq_foldl, foldl_dequeueAt_eq]
    rfl
  rw [dequeueAll, h]
  exact hd

/-- No bit of DQ is set where the field is zero. -/
theorem dq_bit_of_zero {w : W64} (h : fld w 32 29 = 0) (q : Nat) (hq : q < 4) : fld w (29 + q) (29 + q) ≠ 1 := by
  simp only [fld, bitsOf] at h ⊢
  have hcases : q = 0 ∨ q = 1 ∨ q = 2 ∨ q = 3 := by omega
  obtain rfl | rfl | rfl | rfl := hcases <;> omega

/-- The updates of a word leave all but predicates, input queues, the inbox and the flags. -/
def wordUpdates (w : W64) (c : Core) : Core := dequeueAll w (predUpdates w c)

theorem wordUpdates_eq (w : W64) (c : Core) :
    wordUpdates w c = { c with pred := (predUpdates w c).pred, iq := (wordUpdates w c).iq, aflags := (wordUpdates w c).aflags,
                               afCnt := (wordUpdates w c).afCnt, inbox := (wordUpdates w c).inbox } := by
  unfold wordUpdates
  rw [dequeueAll_eq, predUpdates_eq]

@[simp] theorem wordUpdates_s (w : W64) (c : Core) : (wordUpdates w c).s = c.s := by rw [wordUpdates_eq]
@[simp] theorem wordUpdates_v (w : W64) (c : Core) : (wordUpdates w c).v = c.v := by rw [wordUpdates_eq]
@[simp] theorem wordUpdates_sram (w : W64) (c : Core) : (wordUpdates w c).sram = c.sram := by rw [wordUpdates_eq]
@[simp] theorem wordUpdates_oq (w : W64) (c : Core) : (wordUpdates w c).oq = c.oq := by rw [wordUpdates_eq]
@[simp] theorem wordUpdates_tensor (w : W64) (c : Core) : (wordUpdates w c).tensor = c.tensor := by rw [wordUpdates_eq]
@[simp] theorem wordUpdates_inMover (w : W64) (c : Core) : (wordUpdates w c).inMover = c.inMover := by rw [wordUpdates_eq]
@[simp] theorem wordUpdates_outMover (w : W64) (c : Core) : (wordUpdates w c).outMover = c.outMover := by rw [wordUpdates_eq]
@[simp] theorem wordUpdates_conv (w : W64) (c : Core) : (wordUpdates w c).conv = c.conv := by rw [wordUpdates_eq]
@[simp] theorem wordUpdates_fenced (w : W64) (c : Core) : (wordUpdates w c).fenced = c.fenced := by rw [wordUpdates_eq]
@[simp] theorem wordUpdates_trapCause (w : W64) (c : Core) : (wordUpdates w c).trapCause = c.trapCause := by rw [wordUpdates_eq]
@[simp] theorem wordUpdates_trapSlot (w : W64) (c : Core) : (wordUpdates w c).trapSlot = c.trapSlot := by rw [wordUpdates_eq]
@[simp] theorem wordUpdates_trapAddr (w : W64) (c : Core) : (wordUpdates w c).trapAddr = c.trapAddr := by rw [wordUpdates_eq]

@[simp] theorem wordUpdates_pred (w : W64) (c : Core) : (wordUpdates w c).pred = (predUpdates w c).pred := by rw [wordUpdates_eq]

@[simp] theorem predUpdates_iq (w : W64) (c : Core) : (predUpdates w c).iq = c.iq := by rw [predUpdates_eq]
@[simp] theorem predUpdates_aflags (w : W64) (c : Core) : (predUpdates w c).aflags = c.aflags := by rw [predUpdates_eq]
@[simp] theorem predUpdates_inbox (w : W64) (c : Core) : (predUpdates w c).inbox = c.inbox := by rw [predUpdates_eq]

/-- The core after an instruction with effect f has issued, but for its trace registers. -/
theorem untraced_issued {s t : State} {u opc slot : Nat} {w : W64} {eff : Nat → W64 → State → State}
    (hi : Issues s u opc slot w) (ht : coreCmd u opc eff s = .next t) :
    untraced (getCore t u) = untraced (wordUpdates w (getCore (eff slot w s) u)) := by
  rw [coreCmd_issues hi] at ht
  obtain rfl := Host.Outcome.next.inj ht
  exact untraced_issueWith _ _ _ _ _

/-! ## Scalar instructions -/

theorem setScalar_eq (c : Core) (n : Nat) (x : W32) :
    setScalar c n x = { c with s := (setScalar c n x).s, oq := (setScalar c n x).oq } := by
  unfold setScalar
  repeat' split
  all_goals rfl

@[simp] theorem setScalar_iq (c : Core) (n : Nat) (x : W32) : (setScalar c n x).iq = c.iq := by rw [setScalar_eq]
@[simp] theorem setScalar_aflags (c : Core) (n : Nat) (x : W32) : (setScalar c n x).aflags = c.aflags := by rw [setScalar_eq]
@[simp] theorem setScalar_inbox (c : Core) (n : Nat) (x : W32) : (setScalar c n x).inbox = c.inbox := by rw [setScalar_eq]
@[simp] theorem setScalar_pred (c : Core) (n : Nat) (x : W32) : (setScalar c n x).pred = c.pred := by rw [setScalar_eq]
@[simp] theorem setScalar_sram (c : Core) (n : Nat) (x : W32) : (setScalar c n x).sram = c.sram := by rw [setScalar_eq]
@[simp] theorem setScalar_v (c : Core) (n : Nat) (x : W32) : (setScalar c n x).v = c.v := by rw [setScalar_eq]

theorem setScalar_s_getD {n j : Nat} (h : j ≠ n) (c : Core) (x : W32) : (setScalar c n x).s.getD j 0 = c.s.getD j 0 := by
  unfold setScalar
  split
  · simp [lset, List.getD_eq_getElem?_getD, h.symm]
  · dsimp only
    split <;> rfl

theorem lmod_getD_ne {α : Type} (f : α → α) (d : α) {i j : Nat} (h : j ≠ i) (l : List α) : (lmod l i f).getD j d = l.getD j d := by
  induction l generalizing i j with
  | nil => rfl
  | cons a l ih =>
    cases i with
    | zero => cases j with
      | zero => exact absurd rfl h
      | succ j => rfl
    | succ i => cases j with
      | zero => rfl
      | succ j => simpa [lmod] using ih (i := i) (j := j) (by omega)

theorem setScalar_oq_getD {n q : Nat} (h : n ≠ 0x30 + q) (c : Core) (x : W32) :
    (setScalar c n x).oq.getD q {} = c.oq.getD q {} := by
  unfold setScalar
  split
  · rfl
  · split
    next hn =>
      simp only [Bool.and_eq_true, decide_eq_true_eq] at hn
      exact lmod_getD_ne _ _ (by omega) _
    next => rfl

/-- A core but for what a scalar instruction may change. -/
def scalarRest (c : Core) : Core :=
  { c with s := [], pred := 0, iq := [], oq := [], aflags := 0, afCnt := [], inbox := [], trcSent := {}, trcDrops := {}, trcSeq := 0,
           trcDropped := false }

theorem scalarRest_wordUpdates (w : W64) (c : Core) : scalarRest (wordUpdates w c) = scalarRest c := by
  rw [wordUpdates_eq]
  rfl

theorem scalarRest_setScalar (c : Core) (n : Nat) (x : W32) : scalarRest (setScalar c n x) = scalarRest c := by
  rw [setScalar_eq]
  rfl

theorem scalarRest_untraced (c : Core) : scalarRest (untraced c) = scalarRest c := rfl

theorem getCore_onCore_scalarOp (z : Bool) (f : W32 → W32 → W32) (w : W64) (s : State) (u : Nat) :
    ∃ x, getCore (onCore u (scalarOp z f w) s) u = setScalar (getCore s u) (fA w) x := by
  rw [onCore, getCore_modCore, scalarOp]
  exact ⟨_, rfl⟩

/-- The frame of every scalar command with a result. -/
theorem scalarCmd_frame {s t : State} {u slot op : Nat} {w : W64} {z : Bool} {f : W32 → W32 → W32} (hi : Issues s u op slot w)
    (ht : scalarCmd u op z f s = .next t) :
    let c := getCore s u
    let k := getCore t u
    (∀ n, n ≠ fA w → k.s.getD n 0 = c.s.getD n 0) ∧
    k.pred = (predUpdates w c).pred ∧
    (∀ q, q < 4 → fld w (29 + q) (29 + q) = 0 → k.iq.getD q {} = c.iq.getD q {}) ∧
    (∀ q, q < 4 → fA w ≠ 0x30 + q → k.oq.getD q {} = c.oq.getD q {}) ∧
    (fld w 32 29 = 0 → k.aflags = c.aflags) ∧
    (fld w 33 33 = 0 → k.inbox = c.inbox) ∧
    { c with s := k.s, pred := k.pred, iq := k.iq, oq := k.oq, aflags := k.aflags, afCnt := k.afCnt, inbox := k.inbox,
             trcSent := k.trcSent, trcDrops := k.trcDrops, trcSeq := k.trcSeq, trcDropped := k.trcDropped } = k := by
  intro c k
  obtain ⟨x, hx⟩ := getCore_onCore_scalarOp z f w s u
  have hk : untraced k = untraced (wordUpdates w (setScalar c (fA w) x)) := by
    have h := untraced_issued hi ht
    rwa [hx] at h
  refine ⟨fun n hn => ?regs, ?pred, fun q _ hq => ?iq, fun q _ hq => ?oq, fun hdq => ?flags, fun hdq => ?inbox, ?rest⟩
  case regs =>
    have h : k.s = (setScalar c (fA w) x).s := by simpa using congrArg Core.s hk
    rw [h, setScalar_s_getD hn]
  case pred =>
    have h : k.pred = (predUpdates w (setScalar c (fA w) x)).pred := by simpa using congrArg Core.pred hk
    rw [h, predUpdates_pred_congr w (setScalar_pred c (fA w) x)]
  case iq =>
    have h : k.iq = (wordUpdates w (setScalar c (fA w) x)).iq := by simpa using congrArg Core.iq hk
    rw [h, wordUpdates, dequeueAll_iq_getD (by omega), predUpdates_iq, setScalar_iq]
  case oq =>
    have h : k.oq = (setScalar c (fA w) x).oq := by simpa using congrArg Core.oq hk
    rw [h, setScalar_oq_getD hq]
  case flags =>
    have h : k.aflags = (wordUpdates w (setScalar c (fA w) x)).aflags := by simpa using congrArg Core.aflags hk
    rw [h, wordUpdates, dequeueAll_aflags (dq_bit_of_zero hdq), predUpdates_aflags, setScalar_aflags]
  case inbox =>
    have h : k.inbox = (wordUpdates w (setScalar c (fA w) x)).inbox := by simpa using congrArg Core.inbox hk
    rw [h, wordUpdates, dequeueAll_inbox hdq, predUpdates_inbox, setScalar_inbox]
  case rest =>
    have h : scalarRest c = scalarRest k := by
      have h := congrArg scalarRest hk
      rw [scalarRest_untraced, scalarRest_untraced, scalarRest_wordUpdates, scalarRest_setScalar] at h
      exact h.symm
    calc { c with s := k.s, pred := k.pred, iq := k.iq, oq := k.oq, aflags := k.aflags, afCnt := k.afCnt, inbox := k.inbox,
                  trcSent := k.trcSent, trcDrops := k.trcDrops, trcSeq := k.trcSeq, trcDropped := k.trcDropped }
      _ = { scalarRest c with s := k.s, pred := k.pred, iq := k.iq, oq := k.oq, aflags := k.aflags, afCnt := k.afCnt,
                              inbox := k.inbox, trcSent := k.trcSent, trcDrops := k.trcDrops, trcSeq := k.trcSeq,
                              trcDropped := k.trcDropped } := rfl
      _ = k := by rw [h]; rfl

/-- Settles O25: the fourteen instructions are one scalar command, with an operation of its own each. -/
theorem coreScalarFrame : Obligations.CoreScalarFrame := by
  intro s t u slot op w i hmem hi ht
  have h : ∃ z f, exec i s = scalarCmd u op z f s := by
    simp only [List.mem_cons, List.not_mem_nil, or_false, Prod.mk.injEq] at hmem
    obtain ⟨rfl, rfl⟩ | ⟨rfl, rfl⟩ | ⟨rfl, rfl⟩ | ⟨rfl, rfl⟩ | ⟨rfl, rfl⟩ | ⟨rfl, rfl⟩ | ⟨rfl, rfl⟩ | ⟨rfl, rfl⟩ | ⟨rfl, rfl⟩ |
      ⟨rfl, rfl⟩ | ⟨rfl, rfl⟩ | ⟨rfl, rfl⟩ | ⟨rfl, rfl⟩ | ⟨rfl, rfl⟩ := hmem
    all_goals exact ⟨_, _, rfl⟩
  obtain ⟨z, f, h⟩ := h
  exact scalarCmd_frame hi (h.symm.trans ht)

/-! ## Traps -/

/-- The core after a trap, but for its trace registers (04 R166). -/
theorem untraced_coreTrap (u slot cause addr : Nat) (s : State) :
    untraced (getCore (coreTrap u slot cause addr s) u) = untraced { getCore s u with
      tensor := [], inMover := none, outMover := none, conv := none, trapped := true, trapCause := BitVec.ofNat 4 cause,
      trapSlot := BitVec.ofNat 8 slot, trapAddr := BitVec.ofNat 16 addr } := by
  rw [coreTrap, untraced_trace, getCore_raise, getCore_modCore, abandon, getCore_modCore]
  rfl

/-! ## Loads and stores -/

theorem setVector_eq (c : Core) (n : Nat) (x : W512) :
    setVector c n x = { c with v := (setVector c n x).v, oq := (setVector c n x).oq } := by
  unfold setVector
  repeat' split
  all_goals rfl

theorem setVector_s (c : Core) (n : Nat) (x : W512) : (setVector c n x).s = c.s := by rw [setVector_eq]
theorem setVector_sram (c : Core) (n : Nat) (x : W512) : (setVector c n x).sram = c.sram := by rw [setVector_eq]

theorem setVector_v_getD {n j : Nat} (h : j ≠ n) (c : Core) (x : W512) : (setVector c n x).v.getD j 0 = c.v.getD j 0 := by
  unfold setVector
  split
  · simp [lset, List.getD_eq_getElem?_getD, h.symm]
  · split <;> rfl

/-- The registers and the SRAM of core u after an access: a trap changes none of them, and else they are those of the access. -/
theorem memOp_core {s t : State} {u slot op n : Nat} {w : W64} {write : Bool} {f : W64 → Nat → Core → Core}
    (hi : Issues s u op slot w) (ht : coreCmd u op (fun slot w s => memOp u n write (f w) slot w s) s = .next t) :
    let c := getCore s u
    let k := getCore t u
    let a := memAddr c w
    (accessTrap c a n n write ≠ none → k.sram = c.sram ∧ k.s = c.s ∧ k.v = c.v) ∧
    (accessTrap c a n n write = none → k.sram = (f w a c).sram ∧ k.s = (f w a c).s ∧ k.v = (f w a c).v) := by
  intro c k a
  have hk : untraced k = untraced (wordUpdates w (getCore (memOp u n write (f w) slot w s) u)) :=
    untraced_issued (eff := fun slot w s => memOp u n write (f w) slot w s) hi ht
  have hsram : k.sram = (getCore (memOp u n write (f w) slot w s) u).sram := by simpa using congrArg Core.sram hk
  have hs : k.s = (getCore (memOp u n write (f w) slot w s) u).s := by simpa using congrArg Core.s hk
  have hv : k.v = (getCore (memOp u n write (f w) slot w s) u).v := by simpa using congrArg Core.v hk
  rw [hsram, hs, hv]
  refine ⟨fun htrap => ?_, fun hnone => ?_⟩
  · obtain ⟨⟨cause, addr⟩, htrap⟩ := Option.ne_none_iff_exists'.mp htrap
    rw [memOp_of_trap htrap]
    have h := untraced_coreTrap u slot cause addr s
    exact ⟨by simpa using congrArg Core.sram h, by simpa using congrArg Core.s h, by simpa using congrArg Core.v h⟩
  · rw [memOp_of_none hnone, onCore, getCore_modCore]
    exact ⟨rfl, rfl, rfl⟩

theorem rd8_wrLe_other (m : Bytes) (a n x : Nat) {j : Nat} (h : j < a ∨ a + n ≤ j) : rd8 (wrLe m a n x) j = rd8 m j :=
  rd8_wrN_other m a (toLe n x) j (by rwa [toLe_length])

section
variable {s t : State} {u slot op n : Nat} {w : W64}

/-- A load keeps local SRAM, and the registers of each kind as its destination does. -/
theorem load_frame {f : W64 → Nat → Core → Core} (hi : Issues s u op slot w)
    (ht : coreCmd u op (fun slot w s => memOp u n false (f w) slot w s) s = .next t) (hf : ∀ a, (f w a (getCore s u)).sram = (getCore s u).sram)
    (P : List W32 → List W512 → Prop) (hkeep : P (getCore s u).s (getCore s u).v)
    (hrun : ∀ a, P (f w a (getCore s u)).s (f w a (getCore s u)).v) :
    (getCore t u).sram = (getCore s u).sram ∧ P (getCore t u).s (getCore t u).v := by
  obtain ⟨htrap, hnone⟩ := memOp_core hi ht
  by_cases h : accessTrap (getCore s u) (memAddr (getCore s u) w) n n false = none
  · obtain ⟨hsram, hs, hv⟩ := hnone h
    rw [hsram, hs, hv]
    exact ⟨hf _, hrun _⟩
  · obtain ⟨hsram, hs, hv⟩ := htrap h
    rw [hsram, hs, hv]
    exact ⟨rfl, hkeep⟩

/-- A store of n bytes keeps the registers, and every byte outside those n. -/
theorem store_frame {x : W64 → Core → Nat} (hi : Issues s u op slot w)
    (ht : coreCmd u op (fun slot w s => memOp u n true (fun a c => { c with sram := wrLe c.sram a n (x w c) }) slot w s) s = .next t) :
    (getCore t u).s = (getCore s u).s ∧ (getCore t u).v = (getCore s u).v ∧
      ∀ a, a < memAddr (getCore s u) w ∨ memAddr (getCore s u) w + n ≤ a → rd8 (getCore t u).sram a = rd8 (getCore s u).sram a := by
  obtain ⟨htrap, hnone⟩ := memOp_core hi ht
  by_cases h : accessTrap (getCore s u) (memAddr (getCore s u) w) n n true = none
  · obtain ⟨hsram, hs, hv⟩ := hnone h
    rw [hsram]
    exact ⟨hs, hv, fun a ha => rd8_wrLe_other _ _ _ _ ha⟩
  · obtain ⟨hsram, hs, hv⟩ := htrap h
    rw [hsram]
    exact ⟨hs, hv, fun _ _ => rfl⟩

end

/-- Settles O26, load by load and store by store. -/
theorem coreMemoryFrame : Obligations.CoreMemoryFrame := by
  intro s t u slot op n w i hmem hi ht
  simp only [List.mem_cons, List.not_mem_nil, or_false, Prod.mk.injEq] at hmem
  obtain ⟨rfl, rfl, rfl⟩ | ⟨rfl, rfl, rfl⟩ | ⟨rfl, rfl, rfl⟩ | ⟨rfl, rfl, rfl⟩ := hmem
  case inl =>
    obtain ⟨hsram, hv, hs⟩ := load_frame (f := fun w a c => setScalar c (fA w) (BitVec.ofNat 32 (rdLe c.sram a 4))) hi ht
      (fun a => setScalar_sram _ _ _)
      (fun r v => v = (getCore s u).v ∧ ∀ j, j ≠ fA w → r.getD j 0 = (getCore s u).s.getD j 0) ⟨rfl, fun _ _ => rfl⟩
      (fun a => ⟨setScalar_v _ _ _, fun j hj => setScalar_s_getD hj _ _⟩)
    exact ⟨fun _ a => by rw [hsram], nofun, (memOp_core hi ht).1, fun _ => ⟨hv, hs⟩, nofun⟩
  case inr.inl => exact ⟨nofun, fun _ => store_frame hi ht, (memOp_core hi ht).1, nofun, nofun⟩
  case inr.inr.inl =>
    obtain ⟨hsram, hs, hv⟩ := load_frame (f := fun w a c => setVector c (fA w) (bytes512 (rdN c.sram a 64))) hi ht
      (fun a => setVector_sram _ _ _)
      (fun r v => r = (getCore s u).s ∧ ∀ j, j ≠ fA w → v.getD j 0 = (getCore s u).v.getD j 0) ⟨rfl, fun _ _ => rfl⟩
      (fun a => ⟨setVector_s _ _ _, fun j hj => setVector_v_getD hj _ _⟩)
    exact ⟨fun _ a => by rw [hsram], nofun, (memOp_core hi ht).1, nofun, fun _ => ⟨hs, hv⟩⟩
  case inr.inr.inr => exact ⟨nofun, fun _ => store_frame hi ht, (memOp_core hi ht).1, nofun, nofun⟩

/-! ## The requests and the event log around a trap -/

@[simp] theorem getMif_raise (code : Nat) (polder ctx unit : Option Nat) (arg : Nat) (s : State) (u : Nat) :
    getMif (raise code polder ctx unit arg s) u = getMif s u := by
  unfold raise
  dsimp only
  split <;> rfl

@[simp] theorem getMif_send (p : Packet) (s : State) (u : Nat) : getMif (send p s) u = getMif s u := by
  unfold send
  dsimp only
  repeat' split
  all_goals rfl

theorem host_send (p : Packet) (s : State) : (send p s).host = s.host := by
  unfold send
  dsimp only
  repeat' split
  all_goals rfl

theorem host_request (u : Nat) (p : Packet) (use : Use) (s : State) : (request u p use s).host = s.host := host_send _ _

/-- A trace record is no request of the program. -/
theorem coreOut_request_trace (u : Nat) (p : Packet) (s : State) :
    coreOut (getMif (request u p .trace s) u) = coreOut (getMif s u) := by
  rw [request, getMif_send, getMif_setMif]
  simp [coreOut]

theorem coreOut_trace (u kind slot : Nat) (words : List W64) (s : State) :
    coreOut (getMif (trace u kind slot words s) u) = coreOut (getMif s u) := by
  unfold trace
  dsimp only
  split
  · rfl
  · split
    · unfold traceDrop
      dsimp only
      split
      · rfl
      · rw [getMif_raise]; rfl
    · rw [coreOut_request_trace]; rfl

theorem coreOut_abandon (u : Nat) (s : State) : coreOut (getMif (abandon u s) u) = 0 := by
  have h : getMif (abandon u s) u =
      { getMif s u with outst := (getMif s u).outst.filter (fun o => o.use == .trace), sendBlk := false } :=
    getMif_setMif _ _ _
  rw [h, coreOut, List.length_eq_zero_iff, List.filter_eq_nil_iff]
  intro o ho
  have huse : o.use = .trace := by simpa using (List.mem_filter.mp ho).2
  simp [huse]

/-- An event that the log has room for stands at its end. -/
theorem log_raise (code : Nat) (polder ctx unit : Option Nat) (arg : Nat) {s : State} (h : s.host.log.length < 4096) :
    ∃ e : Event, (raise code polder ctx unit arg s).host.log = s.host.log ++ [e] ∧ e.code = BitVec.ofNat 16 code ∧
      e.unit = unit.map (BitVec.ofNat 20) ∧ e.arg = BitVec.ofNat 64 arg := by
  rw [raise, if_pos h]
  exact ⟨_, rfl, rfl, rfl, rfl⟩

section
variable {l : List Event} {s : State}

theorem log_prefix_raise (code : Nat) (polder ctx unit : Option Nat) (arg : Nat) (h : l <+: s.host.log) :
    l <+: (raise code polder ctx unit arg s).host.log := by
  refine h.trans ?_
  by_cases hroom : s.host.log.length < 4096
  · obtain ⟨e, he, -⟩ := log_raise code polder ctx unit arg hroom
    rw [he]
    exact List.prefix_append _ _
  · simp only [raise, hroom, if_false]
    exact List.prefix_refl _

theorem log_prefix_traceDrop (u : Nat) (h : l <+: s.host.log) : l <+: (traceDrop u s).host.log := by
  unfold traceDrop
  dsimp only
  split
  · exact h
  · exact log_prefix_raise _ _ _ _ _ h

theorem log_prefix_trace (u kind slot : Nat) (words : List W64) (h : l <+: s.host.log) :
    l <+: (trace u kind slot words s).host.log := by
  unfold trace
  dsimp only
  split
  · exact h
  · split
    · exact log_prefix_traceDrop _ h
    · rw [host_request]
      exact h

end

/-- The event of a trap stands where the log ended. -/
theorem log_coreTrap (u slot cause addr : Nat) {s : State} (h : s.host.log.length < 4096) :
    ∃ e, (s.host.log ++ [e]) <+: (coreTrap u slot cause addr s).host.log ∧ e.code = 0x35 ∧ e.unit = some (BitVec.ofNat 20 u) ∧
      e.arg = BitVec.ofNat 64 (cause + 2 ^ 8 * slot + 2 ^ 16 * (addr % 2 ^ 16)) := by
  obtain ⟨e, he, hcode, hunit, harg⟩ := log_raise 0x35 (ownerOf (abandon u s) u) none (some u)
    (cause + 2 ^ 8 * slot + 2 ^ 16 * (addr % 2 ^ 16))
    (s := modCore (abandon u s) u (fun c => { c with trapped := true, trapCause := BitVec.ofNat 4 cause,
                                                     trapSlot := BitVec.ofNat 8 slot, trapAddr := BitVec.ofNat 16 addr })) h
  exact ⟨e, log_prefix_trace _ _ _ _ ⟨[], (List.append_nil _).trans he.symm⟩, hcode, hunit, harg⟩

/-- Settles O27: the registers that a trap writes, which the rest of the issue leaves; the requests it abandons; its event. -/
theorem coreTrapEntry : Obligations.CoreTrapEntry := by
  intro s u slot w hi
  refine ⟨issueWith u slot w (coreTrap u slot 4 0) s, coreCmd_issues hi, ?core, ?requests, ?stopped, fun hroom => ?event⟩
  all_goals
    have hk := untraced_issueWith u slot w (coreTrap u slot 4 0) s
    have hc := untraced_coreTrap u slot 4 0 s
    have hcause : (getCore (issueWith u slot w (coreTrap u slot 4 0) s) u).trapCause = 4 :=
      (congrArg Core.trapCause hk).trans ((wordUpdates_trapCause _ _).trans (congrArg Core.trapCause hc))
  case core =>
    exact ⟨hcause,
      (congrArg Core.trapSlot hk).trans ((wordUpdates_trapSlot _ _).trans (congrArg Core.trapSlot hc)),
      (congrArg Core.trapAddr hk).trans ((wordUpdates_trapAddr _ _).trans (congrArg Core.trapAddr hc)),
      (congrArg Core.tensor hk).trans ((wordUpdates_tensor _ _).trans (congrArg Core.tensor hc)),
      (congrArg Core.inMover hk).trans ((wordUpdates_inMover _ _).trans (congrArg Core.inMover hc)),
      (congrArg Core.outMover hk).trans ((wordUpdates_outMover _ _).trans (congrArg Core.outMover hc)),
      (congrArg Core.conv hk).trans ((wordUpdates_conv _ _).trans (congrArg Core.conv hc)),
      (congrArg Core.fenced hk).trans ((wordUpdates_fenced _ _).trans (by simpa using congrArg Core.fenced hc))⟩
  case requests =>
    rw [issueWith, coreOut_trace]
    show coreOut (getMif (coreTrap u slot 4 0 s) u) = 0
    rw [coreTrap, coreOut_trace, getMif_raise]
    exact coreOut_abandon u s
  case stopped => exact issueSlot_of_not_coreLive (coreLive_of_stopped (.inr (by rw [hcause]; decide)))
  case event =>
    obtain ⟨e, he, hcode, hunit, harg⟩ := log_coreTrap u slot 4 0 hroom
    refine ⟨e, ?_, hcode, hunit, by rw [harg]; rfl⟩
    have hlog : (s.host.log ++ [e]) <+: (issueWith u slot w (coreTrap u slot 4 0) s).host.log := log_prefix_trace _ _ _ _ he
    obtain ⟨r, hr⟩ := hlog
    rw [← hr]
    simp

end Sys2Proof.Proofs
end

section
/-! PROOFS. The tick generator and frames (02 R45 to R87): its registers, what a tick counts, the order of a batch, the end of a unit's
frame, and the batch list. -/

namespace Sys2Proof.Proofs

open Sys2Proof Sys2Proof.Machine

/-! ## The tick generator's registers -/

theorem tickPeriod_of_not_anyRunning (v : W32) {s : State} (hr : anyRunning s = false) :
    tickPeriod v s =
      (stOk, { s with tick := { s.tick with period := BitVec.ofNat 26 (max (v.toNat % 2 ^ 26) 1000), pendingP := true } }) :=
  if_neg (by simp [hr])

theorem tickCtrl_of_not_anyRunning {v : W32} {s : State} (hv : v.getLsbD 0 = false) (hr : anyRunning s = false) :
    tickCtrl v s = (stOk, { s with tick := { s.tick with run := false } }) := by
  simp only [tickCtrl, hv, hr, Bool.false_and, Bool.and_false, Bool.false_eq_true, if_false]

theorem tickCtrl_set {v : W32} {s : State} (hv : v.getLsbD 0 = true) :
    tickCtrl v s = if s.boot.ready then (stOk, { s with tick := { s.tick with run := true } }) else (stBusy, s) := by
  unfold tickCtrl
  cases s.boot.ready with
  | true => simp only [hv, Bool.not_true, Bool.and_false, Bool.false_and, Bool.false_eq_true, if_false, if_true]
  | false => simp only [hv, Bool.not_false, Bool.and_self, Bool.false_eq_true, if_false, if_true]

/-- The low half of the first word of the tick generator's block is the period. -/
theorem regWord_tickPeriod (s : State) : regWord s 0x10000 % 2 ^ 32 = s.tick.period.toNat := by
  show (s.tick.period.toNat % 2 ^ 32 + 2 ^ 32 * ((b2n s.tick.run + 2 * b2n s.tick.pendingP) % 2 ^ 32)) % 2 ^ 32 = s.tick.period.toNat
  rw [Nat.add_mul_mod_self_left, Nat.mod_mod]
  exact Nat.mod_eq_of_lt (by have := s.tick.period.isLt; omega)

/-- Settles O29: each register write is one branch of its operation, and the period is stored in 26 bits. -/
theorem tickRegisters : Obligations.TickRegisters := by
  intro s h v
  refine ⟨fun hr => ?period, fun hb => ?set, fun hb => ?early, fun hr => ?clear⟩
  case period =>
    refine ⟨_, congrArg (regDone h) (tickPeriod_of_not_anyRunning v hr), rfl, rfl, rfl, ?_⟩
    rw [regWord_tickPeriod]
    show (BitVec.ofNat 26 (max (v.toNat % 2 ^ 26) 1000)).toNat = _
    rw [BitVec.toNat_ofNat]
    have := Nat.mod_lt v.toNat (show 0 < 2 ^ 26 by decide)
    omega
  case set =>
    show regDone h (tickCtrl 1 s) = _
    rw [tickCtrl_set (by decide), hb]
    rfl
  case early =>
    show regDone h (tickCtrl 1 s) = _
    rw [tickCtrl_set (by decide), hb]
    rfl
  case clear =>
    rw [exec_tickRunClear, tickCtrl_of_not_anyRunning (by decide) hr]
    rfl

/-! ## What a tick does to the tick generator -/

/-- Whatever a wafer tick does beside counting leaves the fixed part as the count left it. -/
theorem exec_waferTick_keeps {s : State} (hrun : s.tick.run = true) :
    ∃ t, exec .waferTick s = .next t ∧ keep t = keep (countTick s) := by
  refine ⟨_, by show execWaferTick s = _; unfold execWaferTick; rw [if_neg (by simp [hrun])], ?_⟩
  simp only [keep_eventsByCode, keep_govTick, keep_calWindow, keep_epochTick, keep_inputSample]
  rw [keep_forEach _ _ _ keep_preposTick, keep_forEach _ _ _ keep_startTick, keep_forEach _ _ _ keep_resetTick, keep_repairTick,
    keep_forEach _ _ _ keep_frameTick, keep_stepTick, keep_onceFlags]

theorem exec_waferTick_stopped {s : State} (hrun : s.tick.run = false) : exec .waferTick s = .next s := by
  show execWaferTick s = _
  unfold execWaferTick
  exact if_pos (by simp [hrun])

theorem exec_idleTick_goes (s : State) : ∃ t, exec .idleTick s = .next t := by
  show ∃ t, execIdleTick s = .next t
  unfold execIdleTick
  split
  · exact ⟨_, rfl⟩
  · exact ⟨_, rfl⟩

/-- Settles O30: every part of a tick but its count leaves the tick generator alone. -/
theorem waferTickCounts : Obligations.WaferTickCounts := by
  intro s
  refine ⟨fun hrun => ?tick, exec_waferTick_stopped, ?idle⟩
  case tick =>
    obtain ⟨t, ht, hk⟩ := exec_waferTick_keeps hrun
    have htick : t.tick = (countTick s).tick := congrArg Key.tick hk
    refine ⟨t, ht, ?_⟩
    rw [htick]
    exact ⟨rfl, rfl, rfl, hrun, rfl⟩
  case idle =>
    obtain ⟨t, ht⟩ := exec_idleTick_goes s
    exact ⟨t, ht, congrArg Key.tick (keep_execIdleTick s t ht)⟩

/-! ## The order of a batch (02 R84) -/

/-- Context a may stand before b in a batch: by PRIO, then the tick of becoming READY, then the number. -/
def BatchLe (s : State) (a b : Nat) : Prop :=
  (getCtx s a).prio.toNat < (getCtx s b).prio.toNat ∨
    ((getCtx s a).prio = (getCtx s b).prio ∧ ((getCtx s a).readyTick < (getCtx s b).readyTick ∨
      ((getCtx s a).readyTick = (getCtx s b).readyTick ∧ a ≤ b)))

theorem batchLe_of_batchBefore {s : State} {a b : Nat} (h : batchBefore s a b = true) : BatchLe s a b := by
  unfold batchBefore at h
  unfold BatchLe
  grind

theorem batchLe_of_not_batchBefore {s : State} {a b : Nat} (h : batchBefore s a b = false) : BatchLe s b a := by
  have hne : (getCtx s a).prio ≠ (getCtx s b).prio → (getCtx s a).prio.toNat ≠ (getCtx s b).prio.toNat :=
    fun hp hn => hp (BitVec.eq_of_toNat_eq hn)
  unfold batchBefore at h
  unfold BatchLe
  grind

theorem BatchLe.trans {s : State} {a b c : Nat} (h : BatchLe s a b) (h' : BatchLe s b c) : BatchLe s a c := by
  unfold BatchLe at *
  grind

theorem mem_batchInsert (s : State) (c d : Nat) (l : List Nat) : d ∈ batchInsert s c l ↔ d = c ∨ d ∈ l := by
  induction l with
  | nil => simp [batchInsert]
  | cons e l ih =>
    unfold batchInsert
    split
    · simp
    · rw [List.mem_cons, ih, List.mem_cons]
      exact or_left_comm

/-- Insertion keeps a list in batch order. -/
theorem batchInsert_sorted (s : State) (c : Nat) {l : List Nat} (hl : l.Pairwise (BatchLe s)) :
    (batchInsert s c l).Pairwise (BatchLe s) := by
  induction l with
  | nil => exact List.pairwise_singleton _ _
  | cons e l ih =>
    obtain ⟨he, hl⟩ := List.pairwise_cons.mp hl
    unfold batchInsert
    split
    next hb =>
      have hce := batchLe_of_batchBefore hb
      refine List.pairwise_cons.mpr ⟨fun d hd => ?_, List.pairwise_cons.mpr ⟨he, hl⟩⟩
      rcases List.mem_cons.mp hd with rfl | hd
      · exact hce
      · exact hce.trans (he d hd)
    next hb =>
      refine List.pairwise_cons.mpr ⟨fun d hd => ?_, ih hl⟩
      rcases (mem_batchInsert s c d l).mp hd with rfl | hd
      · exact batchLe_of_not_batchBefore (Bool.eq_false_iff.mpr hb)
      · exact he d hd

theorem foldl_batchInsert (s : State) (l acc : List Nat) (ha : acc.Pairwise (BatchLe s)) :
    (l.foldl (fun l c => batchInsert s c l) acc).Pairwise (BatchLe s) ∧
      ∀ d ∈ l.foldl (fun l c => batchInsert s c l) acc, d ∈ l ∨ d ∈ acc := by
  induction l generalizing acc with
  | nil => exact ⟨ha, fun d hd => Or.inr hd⟩
  | cons c l ih =>
    obtain ⟨hs, hm⟩ := ih (batchInsert s c acc) (batchInsert_sorted s c ha)
    refine ⟨hs, fun d hd => ?_⟩
    rcases hm d hd with h | h
    · exact Or.inl (List.mem_cons_of_mem _ h)
    · rcases (mem_batchInsert s c d acc).mp h with rfl | h
      · exact Or.inl List.mem_cons_self
      · exact Or.inr h

theorem mem_ctxsOf {s : State} {p c : Nat} {states : List Nat} (h : c ∈ ctxsOf s p states) :
    ∃ x, (c, x) ∈ s.ctxs ∧ x.polder.toNat = p ∧ states.contains x.state = true := by
  obtain ⟨⟨c', x⟩, hx, rfl⟩ := List.mem_map.mp h
  obtain ⟨hm, hp⟩ := List.mem_filter.mp hx
  obtain ⟨hp, hst⟩ := Bool.and_eq_true_iff.mp hp
  exact ⟨x, hm, beq_iff_eq.mp hp, hst⟩

/-- Settles O31: the batch is a prefix of an insertion sort of the READY contexts. -/
theorem batchOrder : Obligations.BatchOrder := by
  intro s p
  obtain ⟨hsorted, hmem⟩ := foldl_batchInsert s (ctxsOf s p [2]) [] List.Pairwise.nil
  refine ⟨List.length_take_le _ _, fun c hc => ?_, hsorted.sublist (List.take_sublist _ _)⟩
  have hc' : c ∈ ctxsOf s p [2] := (hmem c (List.mem_of_mem_take hc)).resolve_right List.not_mem_nil
  obtain ⟨x, hx, hp, hst⟩ := mem_ctxsOf hc'
  exact ⟨x, hx, by simpa using hst, hp⟩

/-! ## The end of a unit's frame (02 R52) -/

/-- At a unit of a running frame that has not signalled, is not fenced and stands on a present row, what FRAME_END_SIGNAL does is a
matter of the kind of unit alone. -/
theorem exec_frameEndSignal {s : State} {u : Nat} (hu : isUnit u = true) (hr : unitRuns s u = true) (he : unitEnded s u = false)
    (hf : unitFenced s u = false) (ha : rowAbsent s u = false) :
    exec (.frameEndSignal u) s =
      if isCc u then
        if coreEnds s u then .next (trace u 3 0 [] (modCore s u (fun c => { c with ended := true }))) else .next s
      else if isMu u then
        if !muEnds s u then .next s
        else if muWr (getMu s u) && muDirty (getMu s u) then
          .next (modMu (flushBanks u (fun b => bankMode (getMu s u) b == 2 && winWr (getMu s u) b) s) u (fun m => { m with flush := true }))
        else .next (modMu s u (fun m => { m with ended := true, flush := false }))
      else if sfuEnds (getSfu s u) then .next (modSfu s u (fun c => { c with ended := true }))
      else .next s := by
  show execFrameEndSignal u s = _
  unfold execFrameEndSignal
  rw [if_neg (by simp [hu]), if_neg (by simp [hr, he, hf, ha])]

/-- Settles O32: for each kind of unit the branch of its own end condition. -/
theorem frameEndSignals : Obligations.FrameEndSignals := by
  intro s u hu hr he hf ha
  rw [exec_frameEndSignal hu hr he hf ha]
  refine ⟨fun hcc hend => ?core, fun hmu hcc hend hclean => ?mu, fun hmu hcc hend hwr hd => ?dirty, fun hmu hcc hend => ?sfu⟩
  case core => rw [if_pos hcc, if_pos hend]; rfl
  case mu => simp only [hcc, hmu, hend, hclean, Bool.false_eq_true, if_false, if_true, Bool.not_true]; rfl
  case dirty => simp only [hcc, hmu, hend, hwr, hd, Bool.false_eq_true, if_false, if_true, Bool.not_true, Bool.and_self]
  case sfu => simp only [hcc, hmu, hend, Bool.false_eq_true, if_false, if_true]; rfl

/-! ## The batch list (02 R87) -/

/-- Settles O35: the pieces are requested one after another. -/
theorem batchListWritten : Obligations.BatchListWritten := by
  intro s p f c hp hframe hcfg hlisted hout
  show execBatchListWrite p s = _
  unfold execBatchListWrite
  rw [if_neg (by omega)]
  simp only [hframe, hcfg]
  rw [if_neg (by rw [hlisted, hout]; decide)]
  rfl

/-! ## Operations that change the host interface alone -/

/-- State t differs from s in the host interface alone. -/
def HostOnly (s t : State) : Prop := t = { s with host := t.host }

namespace HostOnly

variable {s t r : State}

theorem refl (s : State) : HostOnly s s := rfl

theorem trans (h : HostOnly s t) (h' : HostOnly t r) : HostOnly s r := by
  unfold HostOnly at *
  rw [h', h]

theorem upd (s : State) (x : HostIf) : HostOnly s { s with host := x } := rfl

/-- What does not read the host interface is as before. -/
theorem keeps {β : Type} (g : State → β) (h : HostOnly s t) (hg : ∀ s x, g { s with host := x } = g s) : g t = g s := by
  rw [h]
  exact hg _ _

theorem raise (code : Nat) (polder ctx unit : Option Nat) (arg : Nat) (s : State) :
    HostOnly s (raise code polder ctx unit arg s) := by
  unfold Machine.raise
  dsimp only
  split
  · exact upd s _
  · exact upd s _

theorem forEach {α : Type} {f : α → State → State} (hf : ∀ a t, HostOnly t (f a t)) (l : List α) (s : State) :
    HostOnly s (forEach l f s) := by
  unfold Machine.forEach
  induction l generalizing s with
  | nil => exact refl s
  | cons a l ih => exact (hf a s).trans (ih (f a s))

theorem finishOne (q status result : Nat) (s : State) : HostOnly s (finishOne q status result s) := by
  unfold Machine.finishOne
  dsimp only
  split
  · exact refl s
  · split
    · exact (upd s _).trans (raise _ _ _ _ _ _)
    · exact upd s _

theorem skipReserved (n q : Nat) (s : State) : HostOnly s (skipReserved n q s) := by
  induction n generalizing s with
  | zero => exact refl s
  | succ n ih =>
    unfold Machine.skipReserved
    dsimp only
    split
    · exact ((upd s _).trans (finishOne _ _ _ _)).trans (ih _)
    · exact refl s

theorem finish (q status result : Nat) (s : State) : HostOnly s (finish q status result s) :=
  (finishOne q status result s).trans (skipReserved _ _ _)

theorem finishWhere (c : Cmd → Bool) (status : Nat) (s : State) : HostOnly s (finishWhere c status s) := by
  refine forEach (fun q t => ?_) _ s
  split
  · split
    · exact finish _ _ _ _
    · exact refl t
  · exact refl t

end HostOnly

/-! ## Changes of contexts -/

theorem forEach_keeps {α β : Type} (g : State → β) {f : α → State → State} (hf : ∀ a s, g (f a s) = g s) (l : List α) (s : State) :
    g (forEach l f s) = g s := by
  unfold forEach
  induction l generalizing s with
  | nil => rfl
  | cons a l ih => exact (ih _).trans (hf a s)

theorem forEach_cons {α : Type} (a : α) (l : List α) (f : α → State → State) (s : State) :
    forEach (a :: l) f s = forEach l f (f a s) := rfl

theorem getCtx_modCtx (s : State) (c : Nat) (f : Ctx → Ctx) : getCtx (modCtx s c f) c = f (getCtx s c) := by simp [modCtx]

theorem getCtx_modCtx_ne (s : State) {c d : Nat} (f : Ctx → Ctx) (h : d ≠ c) : getCtx (modCtx s c f) d = getCtx s d :=
  getCtx_setCtx_ne s c d _ h

theorem getCtx_forEach_of_not_mem (f : Ctx → Ctx) {l : List Nat} {c : Nat} (h : c ∉ l) (s : State) :
    getCtx (forEach l (fun c s => modCtx s c f) s) c = getCtx s c := by
  induction l generalizing s with
  | nil => rfl
  | cons a l ih =>
    obtain ⟨ha, hl⟩ := not_or.mp (mt List.mem_cons.mpr h)
    rw [forEach_cons, ih hl, getCtx_modCtx_ne s f ha]

theorem getCtx_forEach_of_mem (f : Ctx → Ctx) {l : List Nat} {c : Nat} (hn : l.Nodup) (h : c ∈ l) (s : State) :
    getCtx (forEach l (fun c s => modCtx s c f) s) c = f (getCtx s c) := by
  induction l generalizing s with
  | nil => exact absurd h List.not_mem_nil
  | cons a l ih =>
    obtain ⟨ha, hn⟩ := List.nodup_cons.mp hn
    rw [forEach_cons]
    rcases List.mem_cons.mp h with rfl | h
    · rw [getCtx_forEach_of_not_mem f ha, getCtx_modCtx]
    · rw [ih hn h, getCtx_modCtx_ne s f (ne_of_mem_of_not_mem h ha)]

/-- What f makes true of every context is true of each listed one, listed twice or not. -/
theorem getCtx_forEach_all {P : Ctx → Prop} {f : Ctx → Ctx} (hf : ∀ x, P (f x)) {l : List Nat} {c : Nat} (h : c ∈ l) (s : State) :
    P (getCtx (forEach l (fun c s => modCtx s c f) s) c) := by
  induction l generalizing s with
  | nil => exact absurd h List.not_mem_nil
  | cons a l ih =>
    rw [forEach_cons]
    by_cases hl : c ∈ l
    · exact ih hl _
    · obtain rfl := (List.mem_cons.mp h).resolve_right hl
      rw [getCtx_forEach_of_not_mem f hl, getCtx_modCtx]
      exact hf _

theorem getPolder_forEach_modCtx (f : Ctx → Ctx) (l : List Nat) (s : State) (p : Nat) :
    getPolder (forEach l (fun c s => modCtx s c f) s) p = getPolder s p :=
  forEach_keeps (getPolder · p) (f := fun c s => modCtx s c f) (fun _ _ => rfl) l s

theorem trEvent_eq (typ : Nat) (l : List (Nat × List Byte)) (s : State) : ∃ x, trEvent typ l s = { s with sec := x } := by
  unfold trEvent
  split
  · exact ⟨s.sec, rfl⟩
  · exact ⟨_, rfl⟩

theorem getCtx_trEvent (typ : Nat) (l : List (Nat × List Byte)) (s : State) (c : Nat) : getCtx (trEvent typ l s) c = getCtx s c := by
  obtain ⟨x, h⟩ := trEvent_eq typ l s
  rw [h]
  rfl

theorem getPolder_trEvent (typ : Nat) (l : List (Nat × List Byte)) (s : State) (p : Nat) :
    getPolder (trEvent typ l s) p = getPolder s p := by
  obtain ⟨x, h⟩ := trEvent_eq typ l s
  rw [h]
  rfl

theorem getPolder_modPolder (s : State) (p : Nat) (f : Polder → Polder) : getPolder (modPolder s p f) p = f (getPolder s p) := by
  simp [modPolder]

/-! ## Halts -/

theorem getPolder_haltedWith (p cause : Nat) (s : State) :
    getPolder (haltedWith p cause s) p = { getPolder s p with state := 3, cause := BitVec.ofNat 8 cause, halting := false, abrupt := [] } :=
  ((HostOnly.finishWhere _ _ _).keeps (getPolder · p) (fun _ _ => rfl)).trans (getPolder_modPolder _ _ _)

theorem getCtx_haltedWith (p cause : Nat) (s : State) (c : Nat) : getCtx (haltedWith p cause s) c = getCtx s c :=
  (HostOnly.finishWhere _ _ _).keeps (getCtx · c) (fun _ _ => rfl)

/-! ## The completion of a frame (02 R53, R80) -/

/-- The record of a polder at the completion of its frame f, the halt that may have been taken apart. -/
def polderDone (s : State) (f : Frame) (base : Map Nat) (x : Polder) : Polder :=
  { x with frame := none, last := BitVec.ofNat 32 (min (frameCycles s f) 0xFFFFFFFF), priorLast := x.last,
           nextTick := max f.deadline (s.tick.count.toNat + 1), doneF := some { f with base := base } }

/-- The entries of Shallot's queue and the contexts at the completion of frame f of polder p. -/
def batchOver (p : Nat) (f : Frame) (s : State) : State :=
  forEach (batchCtxs f) (fun c t => modCtx t c (ctxDone f.throttled s.tick.count.toNat))
    (trEvent 2 (f.batch.zipIdx.map (fun e => (e.1.ctx, frameBody s p f (min (frameCycles s f) 0xFFFFFFFF) e.2 e.1))) s)

/-- The state at the completion of frame f of polder p, the halt that may have been taken apart. -/
def frameOver (p : Nat) (f : Frame) (s : State) : State :=
  let b := batchOver p f s
  let t := hintSpent p f.start (preposEnd p f.num.toNat (setPolder b p (polderDone s f (frameBase b p) (getPolder s p))))
  forEach (liveMus t p) (fun u s => modMu s u errOut) t

theorem overrunDue_of_not_overBudget {s : State} {p : Nat} (h : overBudget s p = false) : overrunDue p s = s :=
  if_neg (by simp [h])

/-- FRAME_COMPLETE in terms of the state that a completion leaves. -/
theorem execFrameComplete_eq (p : Nat) (s : State) :
    execFrameComplete p s =
      if p ≥ 256 then .fault (.noSuchObject p)
      else
        match (getPolder (overrunDue p s) p).frame with
        | none => .next (overrunDue p s)
        | some f =>
          if (getPolder (overrunDue p s) p).state != 2 || !frameDone (overrunDue p s) p then .next (overrunDue p s)
          else .next (if (getPolder (overrunDue p s) p).halting then
              haltedWith p (completionCause (getPolder (overrunDue p s) p)) (frameOver p f (overrunDue p s))
            else frameOver p f (overrunDue p s)) := rfl

theorem exec_frameComplete {s : State} {p : Nat} {f : Frame} (hp : p < 256) (hf : (getPolder s p).frame = some f)
    (hrun : (getPolder s p).state = 2) (hb : overBudget s p = false) (hd : frameDone s p = true) :
    exec (.frameComplete p) s = .next (if (getPolder s p).halting then haltedWith p (completionCause (getPolder s p)) (frameOver p f s)
      else frameOver p f s) := by
  show execFrameComplete p s = _
  rw [execFrameComplete_eq, if_neg (by omega), overrunDue_of_not_overBudget hb, hf]
  exact if_neg (by simp [hrun, hd])

theorem getPolder_frameOver (p : Nat) (f : Frame) (s : State) :
    getPolder (frameOver p f s) p = polderDone s f (frameBase (batchOver p f s) p) (getPolder s p) :=
  (forEach_keeps (getPolder · p) (f := fun u s => modMu s u errOut) (fun _ _ => rfl) _ _).trans (getPolder_setPolder _ _ _)

theorem getCtx_frameOver (p : Nat) (f : Frame) (s : State) (c : Nat) : getCtx (frameOver p f s) c = getCtx (batchOver p f s) c :=
  forEach_keeps (getCtx · c) (f := fun u s => modMu s u errOut) (fun _ _ => rfl) _ _


theorem getCtx_batchOver_of_not_mem {p : Nat} {f : Frame} {s : State} {c : Nat} (h : c ∉ batchCtxs f) :
    getCtx (batchOver p f s) c = getCtx s c :=
  (getCtx_forEach_of_not_mem _ h _).trans (getCtx_trEvent _ _ _ _)

theorem getCtx_batchOver_of_mem {p : Nat} {f : Frame} {s : State} {c : Nat} (hn : (batchCtxs f).Nodup) (h : c ∈ batchCtxs f) :
    getCtx (batchOver p f s) c = ctxDone f.throttled s.tick.count.toNat (getCtx s c) := by
  unfold batchOver
  rw [getCtx_forEach_of_mem _ hn h, getCtx_trEvent]

/-- One frame more has run and one fewer is left, the position has advanced, and the context is PARKED, OPEN or READY. -/
theorem ctxDone_spec (throttled : Bool) (tick : Nat) (x : Ctx) :
    (ctxDone throttled tick x).frames = x.frames + 1 ∧ (ctxDone throttled tick x).left = x.left - 1 ∧
      (ctxDone throttled tick x).pos.toNat = min (x.pos.toNat + x.adv.toNat) 0xFFFFFFFF ∧
      (ctxDone throttled tick x).state = if x.parkPend then 4 else if x.left = 1 then 1 else 2 := by
  have hleft : x.left - 1 = 0 ↔ x.left = 1 := by bv_omega
  have hpos : (BitVec.ofNat 32 (min (x.pos.toNat + x.adv.toNat) 0xFFFFFFFF)).toNat = min (x.pos.toNat + x.adv.toNat) 0xFFFFFFFF := by
    rw [BitVec.toNat_ofNat]
    omega
  unfold ctxDone
  dsimp only
  simp only [hleft]
  split
  · exact ⟨rfl, rfl, hpos, rfl⟩
  · split
    · exact ⟨rfl, rfl, hpos, rfl⟩
    · exact ⟨rfl, rfl, hpos, rfl⟩

theorem completionCause_host {x : Polder} (h : x.abrupt = [] ∨ x.hostAt ≠ none) : completionCause x = 1 := by
  unfold completionCause
  split
  next c l ha =>
    have hhost : x.hostAt ≠ none := h.resolve_left (by rw [ha]; exact List.cons_ne_nil _ _)
    rw [if_neg (by simpa using hhost)]
  next => rfl

theorem completionCause_abrupt {x : Polder} {c : BitVec 8} {l : List (BitVec 8)} (ha : x.abrupt = c :: l) (hh : x.hostAt = none) :
    completionCause x = c.toNat := by
  unfold completionCause
  rw [ha, hh]
  rfl

/-- Settles O33: the completion leaves the polder of `polderDone` and the contexts of `ctxDone`, and a halt that was taken only halts
the polder then. -/
theorem frameCompletes : Obligations.FrameCompletes := by
  intro s p f hp hf hrun hb hd
  have hexec := exec_frameComplete hp hf hrun hb hd
  have hx := getPolder_frameOver p f s
  have hc : (∀ c, c ∉ batchCtxs f → getCtx (frameOver p f s) c = getCtx s c) ∧
      ((batchCtxs f).Nodup → ∀ c ∈ batchCtxs f,
        getCtx (frameOver p f s) c = ctxDone f.throttled s.tick.count.toNat (getCtx s c)) :=
    ⟨fun c h => (getCtx_frameOver p f s c).trans (getCtx_batchOver_of_not_mem h),
      fun hn c h => (getCtx_frameOver p f s c).trans (getCtx_batchOver_of_mem hn h)⟩
  cases hh : (getPolder s p).halting with
  | true =>
    rw [hh, if_pos rfl] at hexec
    have hx' := getPolder_haltedWith p (completionCause (getPolder s p)) (frameOver p f s)
    rw [hx] at hx'
    refine ⟨_, hexec, ?_⟩
    rw [hx']
    refine ⟨rfl, rfl, rfl, fun _ => ⟨rfl, fun h => ?host, fun c l ha hh => ?abrupt⟩, nofun,
      fun c h => (getCtx_haltedWith _ _ _ c).trans (hc.1 c h), fun hn c h => ?batch⟩
    case host => exact congrArg (BitVec.ofNat 8) (completionCause_host h)
    case abrupt =>
      show BitVec.ofNat 8 (completionCause (getPolder s p)) = c
      rw [completionCause_abrupt ha hh, BitVec.ofNat_toNat, BitVec.setWidth_eq]
    case batch =>
      rw [getCtx_haltedWith, hc.2 hn c h]
      exact ctxDone_spec _ _ _
  | false =>
    rw [hh, if_neg Bool.false_ne_true] at hexec
    refine ⟨_, hexec, ?_⟩
    rw [hx]
    refine ⟨rfl, rfl, rfl, nofun, fun _ => hrun, hc.1, fun hn c h => ?_⟩
    rw [hc.2 hn c h]
    exact ctxDone_spec _ _ _

/-! ## A frame over its budget (02 R55) -/

theorem getPolder_overrunOf {p cause : Nat} {f : Frame} {s : State} (h : bit f.causes cause = false) :
    getPolder (overrunOf p cause f s) p =
      { getPolder s p with flags := setBit (getPolder s p).flags cause,
                           failed := if f.causes == 0 then incCnt (getPolder s p).failed else (getPolder s p).failed } := by
  unfold overrunOf
  rw [if_neg (by simp [h])]
  dsimp only
  split
  · rw [(HostOnly.raise _ _ _ _ _ _).keeps (getPolder · p) (fun _ _ => rfl), getPolder_forEach_modCtx, getPolder_modPolder]
  · exact getPolder_modPolder _ _ _

theorem overrun_of_frame {p cause : Nat} {f : Frame} {s : State} (hf : (getPolder s p).frame = some f) :
    overrun p cause s = modPolder (overrunOf p cause f s) p (fun x => { x with frame := some { f with causes := setBit f.causes cause } }) := by
  unfold overrun
  rw [hf]

theorem exec_overrun {s : State} {p : Nat} {f : Frame} (hp : p < 256) (hf : (getPolder s p).frame = some f)
    (hb : (getPolder s p).budget.toNat < frameCycles s f) : exec (.overrun p) s = .next (overrun p 0 s) := by
  have hover : overBudget s p = true := by
    unfold overBudget
    rw [hf]
    exact decide_eq_true hb
  show execOverrun p s = _
  unfold execOverrun
  rw [if_neg (by omega), overrunDue, if_pos hover]

/-! ## The dikewatch (02 R57, 08 R307 to R309) -/

theorem getPolder_loseFrame (f : Frame) (s : State) (p : Nat) : getPolder (loseFrame f s) p = getPolder s p :=
  (getPolder_forEach_modCtx _ _ _ _).trans (getPolder_trEvent _ _ _ _)

theorem getCtx_loseFrame {f : Frame} {c : Nat} (h : c ∈ batchCtxs f) (s : State) : (getCtx (loseFrame f s) c).state = 4 :=
  getCtx_forEach_all (P := fun x => x.state = 4) (fun _ => rfl) h _

theorem dropAwait_of_await {p : Nat} {f : Frame} {s : State} (hf : (getPolder s p).await = some f) :
    dropAwait p s =
      if f.tookBack then modPolder (loseFrame f s) p (fun x => { x with await := none, replay := false })
      else hintSpent p f.start (preposEnd p f.num.toNat (modPolder (loseFrame f s) p (fun x => { x with await := none, replay := false }))) := by
  unfold dropAwait
  rw [hf]

theorem getPolder_dropAwait {p : Nat} {f : Frame} {s : State} (hf : (getPolder s p).await = some f) :
    getPolder (dropAwait p s) p = { getPolder s p with await := none, replay := false } := by
  have h := getPolder_modPolder (loseFrame f s) p (fun x => { x with await := none, replay := false })
  rw [getPolder_loseFrame] at h
  rw [dropAwait_of_await hf]
  split
  · exact h
  · exact h

theorem getCtx_dropAwait {p c : Nat} {f : Frame} {s : State} (hf : (getPolder s p).await = some f) (hc : c ∈ batchCtxs f) :
    (getCtx (dropAwait p s) c).state = 4 := by
  rw [dropAwait_of_await hf]
  split
  · exact getCtx_loseFrame hc s
  · exact getCtx_loseFrame hc s

theorem b2n_le_one (b : Bool) : b2n b ≤ 1 := by cases b <;> decide

theorem getLsbD_four_ofNat {n : Nat} (h : 16 ≤ n) (h' : n < 32) : (BitVec.ofNat 5 n).getLsbD 4 = true := by
  rw [BitVec.getLsbD_ofNat, Nat.testBit_eq_decide_div_mod_eq]
  have : n / 2 ^ 4 % 2 = 1 := by omega
  rw [this]
  rfl

/-- A dikewatch record is valid, of its frame, with a cause from 1 to 5 and TIMEOUT among its causes. -/
theorem dwRecord_spec (s : State) (p : Nat) (f : Frame) :
    (dwRecord s p f).valid = true ∧ 1 ≤ (dwRecord s p f).cause.toNat ∧ (dwRecord s p f).cause.toNat ≤ 5 ∧
      (dwRecord s p f).causes.getLsbD 4 = true ∧ (dwRecord s p f).frame = f.num := by
  have hcause : ∀ a b c d : Bool, 1 ≤ (BitVec.ofNat 3 (if a then 1 else if b then 2 else if c then 3 else if d then 4 else 5)).toNat ∧
      (BitVec.ofNat 3 (if a then 1 else if b then 2 else if c then 3 else if d then 4 else 5)).toNat ≤ 5 := by decide
  have hcauses : ∀ a b c d : Bool, (BitVec.ofNat 5 (b2n a + 2 * b2n b + 4 * b2n c + 8 * b2n d + 16)).getLsbD 4 = true := fun a b c d => by
    have ha := b2n_le_one a
    have hb := b2n_le_one b
    have hc := b2n_le_one c
    have hd := b2n_le_one d
    exact getLsbD_four_ofNat (by omega) (by omega)
  exact ⟨rfl, (hcause _ _ _ _).1, (hcause _ _ _ _).2, hcauses _ _ _ _, rfl⟩

/-- The record that a fired dikewatch leaves: the one kept from its firing tick, or one of the present state. -/
def dwKept (s : State) (p : Nat) (f : Frame) : DwRec := f.dwRec.getD (dwRecord s p f)

theorem dwKept_spec {s : State} {p : Nat} {f : Frame}
    (h : f.dwRec = none ∨ ∃ s' f', f'.num = f.num ∧ f.dwRec = some (dwRecord s' p f')) :
    (dwKept s p f).valid = true ∧ 1 ≤ (dwKept s p f).cause.toNat ∧ (dwKept s p f).cause.toNat ≤ 5 ∧
      (dwKept s p f).causes.getLsbD 4 = true ∧ (dwKept s p f).frame = f.num := by
  unfold dwKept
  rcases h with h | ⟨s', f', hnum, h⟩
  · rw [h]
    exact dwRecord_spec s p f
  · rw [h, ← hnum]
    exact dwRecord_spec s' p f'

theorem getLsbD_setBit_self {n i : Nat} (h : i < n) (w : BitVec n) : (setBit w i).getLsbD i = true := by
  unfold setBit
  rw [BitVec.getLsbD_or, BitVec.getLsbD_ofNat, decide_eq_true h, Nat.testBit_two_pow_self]
  exact Bool.or_true _

/-- What a fired dikewatch does to its polder before the frame is lost. -/
def dwPolder (r : DwRec) (x : Polder) : Polder := { x with dw := r, dwCount := incCnt x.dwCount, flags := setBit x.flags 2 }

theorem dikewatchDone_of_fired {p : Nat} {f : Frame} {s : State} (hf : (getPolder s p).await = some f) (hd : f.dikewatched = true) :
    dikewatchDone p s =
      dropAwait p (raise 0x21 (some p) none none ((dwKept s p f).cause.toNat + 2 ^ 4 * (dwKept s p f).causes.toNat)
        (setPolder s p (dwPolder (dwKept s p f) (getPolder s p)))) := by
  unfold dikewatchDone
  dsimp only
  split
  next g hg =>
    obtain rfl : f = g := Option.some.inj (hf.symm.trans hg)
    exact if_pos hd
  next hg => exact absurd (hf.symm.trans hg) (Option.some_ne_none f)

/-- Settles O34: an overrun is recorded in the polder and in its frame, and a fired dikewatch leaves its record there before the frame is
lost. -/
theorem overrunAndDikewatch : Obligations.OverrunAndDikewatch := by
  intro s p f hp
  refine ⟨fun hf hb hcause => ?overrun, fun hf hd hrec => ?dikewatch⟩
  case overrun =>
    refine ⟨_, exec_overrun hp hf hb, ?_⟩
    rw [overrun_of_frame hf, getPolder_modPolder, getPolder_overrunOf hcause]
    exact ⟨rfl, rfl, by simp⟩
  case dikewatch =>
    refine ⟨_, if_neg (by omega), ?_⟩
    rw [dikewatchDone_of_fired hf hd]
    generalize hr : (dwKept s p f).cause.toNat + 2 ^ 4 * (dwKept s p f).causes.toNat = arg
    have hx : getPolder (raise 0x21 (some p) none none arg (setPolder s p (dwPolder (dwKept s p f) (getPolder s p)))) p =
        dwPolder (dwKept s p f) (getPolder s p) :=
      ((HostOnly.raise _ _ _ _ _ _).keeps (getPolder · p) (fun _ _ => rfl)).trans (getPolder_setPolder _ _ _)
    have ha : (getPolder (raise 0x21 (some p) none none arg (setPolder s p (dwPolder (dwKept s p f) (getPolder s p)))) p).await = some f :=
      (congrArg Polder.await hx).trans hf
    obtain ⟨hvalid, hlo, hhi, htimeout, hframe⟩ := dwKept_spec (s := s) (p := p) hrec
    have hflag : (setBit (getPolder s p).flags 2).getLsbD 2 = true := getLsbD_setBit_self (by decide) _
    rw [getPolder_dropAwait ha, hx]
    exact ⟨rfl, rfl, hvalid, hlo, hhi, htimeout, hframe, hflag, rfl, fun c hc => getCtx_dropAwait ha hc⟩

end Sys2Proof.Proofs
end

section
/-! PROOFS. Routers (07 R257 to R290): the route epoch, one head moved by one hop, dike ports, held outputs and links that go down. -/

namespace Sys2Proof.Proofs

open Sys2Proof Sys2Proof.Machine

/-! ## The event log where commands complete -/

section
variable {l : List Event} {s : State}

theorem log_prefix_finishOne (q status result : Nat) (h : l <+: s.host.log) : l <+: (finishOne q status result s).host.log := by
  unfold finishOne
  dsimp only
  split
  · exact h
  · split
    · exact log_prefix_raise _ _ _ _ _ h
    · exact h

theorem log_prefix_skipReserved (n q : Nat) (h : l <+: s.host.log) : l <+: (skipReserved n q s).host.log := by
  induction n generalizing s with
  | zero => exact h
  | succ n ih =>
    unfold skipReserved
    dsimp only
    split
    · exact ih (log_prefix_finishOne (s := takeCmd q s) _ _ _ h)
    · exact h

theorem log_prefix_finish (q status result : Nat) (h : l <+: s.host.log) : l <+: (finish q status result s).host.log :=
  log_prefix_skipReserved _ _ (log_prefix_finishOne _ _ _ h)

end

/-! ## The flip of the route epoch (07 R267) -/

/-- What f makes true of every value of a map, and what is true of the default, is true of what the map then reads. -/
theorem mget_map_all {α : Type} {P : α → Prop} {d : α} {f : α → α} (hd : P d) (hf : ∀ x, P (f x)) (m : Map α) (k : Nat) :
    P (mget d (m.map (fun e => (e.1, f e.2))) k) := by
  induction m with
  | nil => exact hd
  | cons e m ih =>
    rw [List.map_cons, mget]
    split
    · exact hf _
    · exact ih

/-- The epoch's registers after a flip. -/
def flippedEpoch (s : State) : Epoch :=
  let e := s.epoch
  { e with epoch := !e.epoch, armed := false, draining := false, drained := false, expired := false, late := e.expired,
           changes := e.changes + 1, tick := s.tick.count, dtrDests := [], fell := [], downAtFlip := downSet s,
           queue := if e.built.isSome then e.queue else none }

/-- A flip, but for its event and the command that it completes. -/
def flipBanks (s : State) : State :=
  { s with epoch := flippedEpoch s, routers := s.routers.map (fun r => (r.1, { r.2 with heldOut := [] })),
           mifs := s.mifs.map (fun m => (m.1, { m.2 with held := none })) }

/-- A flip with its event. -/
def flipNoted (s : State) : State :=
  if s.epoch.expired then raise 0x24 none none none (flippedEpoch s).changes.toNat (flipBanks s) else flipBanks s

theorem flipEpoch_eq (s : State) :
    flipEpoch s = flipNoted s ∨
      ∃ q, flipEpoch s = finish q stOk 0 (modConf (flipNoted s) (fun c => { c with busy := false })) := by
  unfold flipEpoch
  dsimp only
  split
  next q _ _ => exact Or.inr ⟨q, rfl⟩
  next => exact Or.inl rfl

theorem flipNoted_hostOnly (s : State) : HostOnly (flipBanks s) (flipNoted s) := by
  unfold flipNoted
  split
  · exact HostOnly.raise _ _ _ _ _ _
  · exact HostOnly.refl _

/-- What reads neither the host interface nor the configuration registers stands after a flip as `flipBanks` left it. -/
theorem flipEpoch_keeps {β : Type} (g : State → β) (hg : ∀ s x, g { s with host := x } = g s) (hg' : ∀ s x, g { s with conf := x } = g s)
    (s : State) : g (flipEpoch s) = g (flipBanks s) := by
  have hn := (flipNoted_hostOnly s).keeps g hg
  rcases flipEpoch_eq s with h | ⟨q, h⟩
  · rw [h, hn]
  · rw [h, (HostOnly.finish _ _ _ _).keeps g hg, ← hn]
    exact hg' _ _

theorem log_flipEpoch {s : State} (he : s.epoch.expired = true) (hl : s.host.log.length < 4096) :
    ∃ e : Event, (s.host.log ++ [e]) <+: (flipEpoch s).host.log ∧ e.code = 0x24 := by
  obtain ⟨e, hlog, hcode, -⟩ := log_raise 0x24 none none none (flippedEpoch s).changes.toNat (s := flipBanks s) hl
  have hn : (s.host.log ++ [e]) <+: (flipNoted s).host.log := by
    unfold flipNoted
    rw [if_pos he, hlog]
    exact List.prefix_refl _
  refine ⟨e, ?_, hcode⟩
  rcases flipEpoch_eq s with h | ⟨q, h⟩
  · rw [h]
    exact hn
  · rw [h]
    exact log_prefix_finish _ _ _ hn

theorem getElem?_of_prefix {α : Type} {l r : List α} {a : α} (h : (l ++ [a]) <+: r) : r[l.length]? = some a := by
  obtain ⟨t, rfl⟩ := h
  simp

/-- Settles O36: both commands are one branch, and a flip is `flipBanks` with its event and the command that it completes. -/
theorem routeEpochSteps : Obligations.RouteEpochSteps := by
  refine fun s => ⟨fun hd he hr => ?drained, fun h => ?notDrained, fun hd hn => ?late, fun h => ?notLate, fun hd ha => ?start,
    fun hd hn he => ?drains, fun hd h => ?flip⟩
  case drained => exact if_pos (by rw [hd, he, hr]; rfl)
  case notDrained => exact if_neg (by rcases h with h | h | h <;> simp [h])
  case late => exact if_pos (by rw [hd, hn]; rfl)
  case notLate => exact if_neg (by rcases h with h | h <;> simp [h])
  case start =>
    unfold epochTick
    rw [if_neg (by simp [hd]), if_pos ha]
  case drains =>
    unfold epochTick
    rw [if_pos hd, if_neg (by simp [hn, he])]
  case flip =>
    have hflip : epochTick s = flipEpoch s := by
      unfold epochTick
      rw [if_pos hd, if_pos (by rcases h with h | h <;> simp [h])]
    have hep : (flipEpoch s).epoch = flippedEpoch s := flipEpoch_keeps (·.epoch) (fun _ _ => rfl) (fun _ _ => rfl) s
    have hrt : (flipEpoch s).routers = (flipBanks s).routers := flipEpoch_keeps (·.routers) (fun _ _ => rfl) (fun _ _ => rfl) s
    have hmif : (flipEpoch s).mifs = (flipBanks s).mifs := flipEpoch_keeps (·.mifs) (fun _ _ => rfl) (fun _ _ => rfl) s
    dsimp only
    rw [hflip, hep]
    refine ⟨rfl, rfl, rfl, rfl, rfl, fun u => ⟨?_, ?_⟩, fun he hl => ?_⟩
    · unfold getRouter
      rw [hrt]
      exact mget_map_all (P := fun r => r.heldOut = []) (d := {}) (f := fun r : Router => { r with heldOut := [] }) rfl (fun _ => rfl) _ _
    · unfold getMif
      rw [hmif]
      exact mget_map_all (P := fun m => m.held = none) (d := {}) (f := fun m : MeshIf => { m with held := none }) rfl (fun _ => rfl) _ _
    · obtain ⟨e, hlog, hcode⟩ := log_flipEpoch he hl
      exact ⟨e, getElem?_of_prefix hlog, hcode⟩

/-! ## A head moved by one hop (07 R258) -/

/-- The heads that router u may move in a net, each with the output that it asks for. -/
def headsAt (net : Net) (u : Nat) (pick : Packet → Bool) (s : State) : List (Nat × Flight) :=
  (s.flights.filter (fun f => f.net == net && pick f.pkt && routerOf s f == some u)).map (fun f => (outputOf s u f, f))

/-- The first head of c by input i that can move. -/
def moveInput (u : Nat) (s : State) (o vc : Nat) (c : List (Nat × Flight)) (i : Nat) : Option ((Nat × Nat × Nat) × State) :=
  (c.filter (fun x => inputOf x.2 == i)).findSome? (fun x => (tryHead u x.2 s).map (fun s' => ((o, vc, i), s')))

/-- The first head of c on channel vc that can move, input by input. -/
def moveVc (net : Net) (u : Nat) (s : State) (o : Nat) (c : List (Nat × Flight)) (vc : Nat) : Option ((Nat × Nat × Nat) × State) :=
  let c := c.filter (fun x => x.2.pkt.vc == vc)
  if c.isEmpty then none
  else (turnOrder (mget 0 (getRouter s u).turns (inKey net o vc)) 11).findSome? (moveInput u s o vc c)

/-- The first head of c for output o that can move, channel by channel. -/
def moveOutput (net : Net) (u : Nat) (s : State) (c : List (Nat × Flight)) (o : Nat) : Option ((Nat × Nat × Nat) × State) :=
  let c := c.filter (fun x => x.1 == o)
  if c.isEmpty then none
  else (vcOrder (mget 0 (getRouter s u).turns (vcKey net o))).findSome? (moveVc net u s o c)

theorem moveHead_eq (net : Net) (u : Nat) (pick : Packet → Bool) (s : State) :
    moveHead net u pick s =
      (turnOrder (mget 0 (getRouter s u).turns 0) 11).findSome? (moveOutput net u s (headsAt net u pick s)) := rfl

section
variable {net : Net} {u : Nat} {pick : Packet → Bool} {s : State}

theorem mem_headsAt {x : Nat × Flight} :
    x ∈ headsAt net u pick s ↔
      x.2 ∈ s.flights ∧ x.2.net = net ∧ pick x.2.pkt = true ∧ routerOf s x.2 = some u ∧ outputOf s u x.2 = x.1 := by
  obtain ⟨o, f⟩ := x
  simp only [headsAt, List.mem_map, List.mem_filter, Bool.and_eq_true, beq_iff_eq, Prod.mk.injEq]
  constructor
  · rintro ⟨g, ⟨hg, ⟨hnet, hpick⟩, hu⟩, ho, rfl⟩
    exact ⟨hg, hnet, hpick, hu, ho⟩
  · rintro ⟨hg, hnet, hpick, hu, ho⟩
    exact ⟨f, ⟨hg, ⟨hnet, hpick⟩, hu⟩, ho, rfl⟩

theorem moveInput_some {o vc i : Nat} {c : List (Nat × Flight)} {r : (Nat × Nat × Nat) × State} (h : moveInput u s o vc c i = some r) :
    r.1 = (o, vc, i) ∧ ∃ x ∈ c, inputOf x.2 = i ∧ tryHead u x.2 s = some r.2 := by
  obtain ⟨x, hx, hr⟩ := List.exists_of_findSome?_eq_some h
  obtain ⟨hc, hi⟩ := List.mem_filter.mp hx
  obtain ⟨s', hs', rfl⟩ := Option.map_eq_some_iff.mp hr
  exact ⟨rfl, x, hc, beq_iff_eq.mp hi, hs'⟩

theorem moveInput_none {o vc i : Nat} {c : List (Nat × Flight)} (h : moveInput u s o vc c i = none) {x : Nat × Flight} (hx : x ∈ c)
    (hi : inputOf x.2 = i) : tryHead u x.2 s = none :=
  Option.map_eq_none_iff.mp (List.findSome?_eq_none_iff.mp h x (List.mem_filter.mpr ⟨hx, beq_iff_eq.mpr hi⟩))

/-- The inputs of a router are all tried, from the one whose turn it is. -/
theorem mem_turnOrder {t i : Nat} (h : i < 11) : i ∈ turnOrder t 11 :=
  List.mem_map.mpr ⟨(i + 11 - t % 11) % 11, List.mem_range.mpr (by omega), by omega⟩

theorem moveVc_some {o vc : Nat} {c : List (Nat × Flight)} {r : (Nat × Nat × Nat) × State} (h : moveVc net u s o c vc = some r) :
    r.1 = (o, vc, r.1.2.2) ∧ ∃ x ∈ c, x.2.pkt.vc = vc ∧ inputOf x.2 = r.1.2.2 ∧ tryHead u x.2 s = some r.2 := by
  unfold moveVc at h
  dsimp only at h
  split at h
  · cases h
  · obtain ⟨i, -, hi⟩ := List.exists_of_findSome?_eq_some h
    obtain ⟨hr, x, hx, hin, htry⟩ := moveInput_some hi
    obtain ⟨hc, hvc⟩ := List.mem_filter.mp hx
    rw [hr]
    exact ⟨rfl, x, hc, beq_iff_eq.mp hvc, hin, htry⟩

theorem moveVc_none {o vc : Nat} {c : List (Nat × Flight)} (h : moveVc net u s o c vc = none) {x : Nat × Flight} (hx : x ∈ c)
    (hvc : x.2.pkt.vc = vc) (hi : inputOf x.2 < 11) : tryHead u x.2 s = none := by
  have hmem : x ∈ c.filter (fun x => x.2.pkt.vc == vc) := List.mem_filter.mpr ⟨hx, beq_iff_eq.mpr hvc⟩
  unfold moveVc at h
  dsimp only at h
  rw [if_neg (fun he => List.ne_nil_of_mem hmem (List.isEmpty_iff.mp he))] at h
  exact moveInput_none (List.findSome?_eq_none_iff.mp h _ (mem_turnOrder hi)) hmem rfl

theorem moveOutput_some {o : Nat} {c : List (Nat × Flight)} {r : (Nat × Nat × Nat) × State} (h : moveOutput net u s c o = some r) :
    r.1 = (o, r.1.2.1, r.1.2.2) ∧
      (∃ x ∈ c, x.1 = o ∧ x.2.pkt.vc = r.1.2.1 ∧ inputOf x.2 = r.1.2.2 ∧ tryHead u x.2 s = some r.2) ∧
      ((∃ x ∈ c, x.1 = o ∧ x.2.pkt.vc = 0 ∧ inputOf x.2 < 11 ∧ tryHead u x.2 s ≠ none) → r.1.2.1 = 0) := by
  unfold moveOutput at h
  dsimp only at h
  split at h
  · cases h
  · refine ⟨?first, ?head, ?vc0⟩
    case first =>
      obtain ⟨vc, -, hvc⟩ := List.exists_of_findSome?_eq_some h
      rw [(moveVc_some hvc).1]
    case head =>
      obtain ⟨vc, -, hvc⟩ := List.exists_of_findSome?_eq_some h
      obtain ⟨hr, x, hx, hxvc, hin, htry⟩ := moveVc_some hvc
      obtain ⟨hc, ho⟩ := List.mem_filter.mp hx
      exact ⟨x, hc, beq_iff_eq.mp ho, by rw [hr]; exact hxvc, hin, htry⟩
    case vc0 =>
      rintro ⟨x, hx, ho, hvc, hin, htry⟩
      rw [vcOrder, List.findSome?_cons] at h
      cases h0 : moveVc net u s o (c.filter (fun x => x.1 == o)) 0 with
      | none => exact absurd (moveVc_none h0 (List.mem_filter.mpr ⟨hx, beq_iff_eq.mpr ho⟩) hvc hin) htry
      | some r' =>
        rw [h0] at h
        obtain rfl := Option.some.inj h
        rw [(moveVc_some h0).1]

end

/-- Settles O38: the channels of an output are tried one after another, VC0 first. -/
theorem vc0GoesFirst : Obligations.Vc0GoesFirst := by
  intro s s' net u o vc i h
  rw [moveHead_eq] at h
  obtain ⟨o', -, ho'⟩ := List.exists_of_findSome?_eq_some h
  obtain ⟨hr, ⟨x, hx, ho, hvc, hin, htry⟩, h0⟩ := moveOutput_some ho'
  obtain rfl : o = o' := congrArg Prod.fst hr
  refine ⟨?_, fun ⟨f, hf, hnet, hop, hvc0, hout, hu, hin0, htry0⟩ => h0 ⟨(o, f), mem_headsAt.mpr ?_, rfl, hvc0, hin0, htry0⟩⟩
  · obtain ⟨hf, hnet, -, hu, hout⟩ := mem_headsAt.mp hx
    exact ⟨x.2, hf, hnet, hvc, hout.trans ho, hin, hu, htry⟩
  · exact ⟨hf, hnet, bne_iff_ne.mpr hop, hu, hout⟩

/-! ## Dike ports (02 R66, R67) -/

section
variable {s : State} {u v q : Nat} {p : Packet}

theorem dikeCode_of_unowned {net : Net} (h : ownerOf s v = none) : dikeCode s net u v p = none := by
  unfold dikeCode
  rw [h]

/-- In front of a router of polder q: what passes before the polder is asked, and else what the polder says. -/
theorem dikeCode_of_owner {net : Net} (h : ownerOf s v = some q) :
    dikeCode s net u v p =
      if net == .rpl || ownerOf s p.dest != some q || ownerOf s u == some q then none
      else if (getPolder s q).state = 4 then some nkReset
      else if isFixed p.src then none
      else
        match ownerOf s p.src, (getPolder s q).cfg with
        | some o, some c => if o = q || c.admitted.getLsbD o then none else some nkDike
        | _, _ => some nkDike := by
  unfold dikeCode
  rw [h] <;> rfl

theorem dikeCode_rpl : dikeCode s .rpl u v p = none := by
  cases h : ownerOf s v with
  | none => exact dikeCode_of_unowned h
  | some q => exact (dikeCode_of_owner h).trans (if_pos rfl)

theorem dikeCode_of_passing (hv : ownerOf s v = some q) (h : ownerOf s p.dest ≠ some q ∨ ownerOf s u = some q) :
    dikeCode s .req u v p = none := by
  rw [dikeCode_of_owner hv]
  exact if_pos (by rcases h with h | h <;> simp [h])

/-- A request from outside to a unit of polder q is a matter of the polder alone. -/
theorem dikeCode_of_entering (hv : ownerOf s v = some q) (hd : ownerOf s p.dest = some q) (hu : ownerOf s u ≠ some q) :
    dikeCode s .req u v p =
      if (getPolder s q).state = 4 then some nkReset
      else if isFixed p.src then none
      else
        match ownerOf s p.src, (getPolder s q).cfg with
        | some o, some c => if o = q || c.admitted.getLsbD o then none else some nkDike
        | _, _ => some nkDike := by
  rw [dikeCode_of_owner hv]
  exact if_neg (by simp [hd, hu])

end

/-! ## A packet leaves a router for its neighbour -/

section
variable {s : State} {u v code : Nat} {f : Flight} {p : Packet}

theorem routerNack_of_unanswered (h : unanswered f.net p = true) : routerNack u code f p s = some (dropFlight f s) := if_pos h

theorem routerNack_of_room (h : unanswered f.net p = false) (hr : answerRoom s u p.vc = true) :
    routerNack u code f p s = some (routerReply u (replyTo p u opNack 0 0 code []) (dropFlight f s)) := by
  unfold routerNack
  rw [if_neg (Bool.eq_false_iff.mp h), if_pos hr]

theorem routerNack_of_no_room (h : unanswered f.net p = false) (hr : answerRoom s u p.vc = false) : routerNack u code f p s = none := by
  unfold routerNack
  rw [if_neg (Bool.eq_false_iff.mp h), if_neg (Bool.eq_false_iff.mp hr)]

theorem leaveBy_of_refused {d : Dir} (hn : neighbour u d = some v) (h : dikeCode s f.net u v p = some code) :
    leaveBy u d f p s = routerNack v code f p s := by
  unfold leaveBy
  rw [hn]
  simp only [h]
  rfl

theorem leaveBy_of_passed {d : Dir} (hn : neighbour u d = some v) (h : dikeCode s f.net u v p = none)
    (hplace : placeFree s f.net (.router v (.side (dirOpp d))) p.vc (flitsOf p) = true) (hheld : heldFree s f.net u (.side d) p = true)
    (hcross : crossingOpen s u v (dirBit d) = true) (hfwd : forwards s (fieldOf v) = true) :
    leaveBy u d f p s = some (holdPass u (.side d) p (place f.net (.router v (.side (dirOpp d))) p (dropFlight f s))) := by
  unfold leaveBy
  rw [hn]
  simp only [h]
  exact if_pos (by rw [hplace, hheld, hcross, hfwd]; rfl)

/-- A packet that the dike refuses is a request. -/
theorem net_of_refused (h : dikeCode s f.net u v p = some code) : f.net = .req := by
  cases hnet : f.net with
  | req => rfl
  | rpl =>
    rw [hnet, dikeCode_rpl] at h
    cases h

end

/-! ## ROUTER_HEAD and RELEASE -/

theorem exec_routerHead (net : Net) {u : Nat} (hu : isUnit u = true) (ce : Nat) (s : State) :
    exec (.routerHead net ⟨u, ce⟩) s =
      match moveHead net u (fun p => p.op != opRelease) s with
      | some (m, s') => .next (mcSettle (linkError u m ce (nextTurn net u m s')))
      | none => .next (mcSettle s) := by
  show execRouterHead net ⟨u, ce⟩ s = _
  unfold execRouterHead
  rw [if_neg (by simp [hu])] <;> rfl

theorem exec_release {u : Nat} (hu : isUnit u = true) (ce : Nat) {s : State} {f : Flight}
    (hf : s.flights.find? (fun f => f.net == .req && f.pkt.op == opRelease && routerOf s f == some u) = some f) :
    exec (.release ⟨u, ce⟩) s =
      match releaseHop u f s with
      | some s' => .next (linkError u (outputOf s u f, 3, inputOf f) ce s')
      | none => .next s := by
  show execRelease ⟨u, ce⟩ s = _
  unfold execRelease
  rw [if_neg (by simp [hu])]
  simp only [hf] <;> rfl

theorem linkCe_linkError {u v : Nat} {m : Nat × Nat × Nat} (h : linkEnd u m = some v) (ce : Nat) (t : State) :
    ((getRouter (linkError u m ce t) v).linkCe).toNat = min ((getRouter t v).linkCe.toNat + ce) 0xFFFF := by
  unfold linkError
  rw [h]
  simp only [modRouter, getRouter_setRouter, BitVec.toNat_ofNat]
  omega

/-- Settles O37: the two commands, the corrected errors, the hop to a neighbour, and the dike port, each by its branches. -/
theorem routerMovesHeads : Obligations.RouterMovesHeads := by
  intro s net u hu
  refine ⟨fun ce m s' hm => ?moved, fun ce hm => ?stays, fun ce f hf => ⟨fun s' hs' => ?released, fun hs' => ?holds⟩,
    fun m ce t v hv => linkCe_linkError hv ce t, fun d v f p hn => ⟨fun code hc => ⟨fun h => ?dropped, fun hop hk hr => ?answered,
      fun hop hk hr => ?waits⟩, leaveBy_of_passed hn⟩,
    fun v q p hv => ⟨dikeCode_rpl, dikeCode_of_passing hv, fun hd hu => ⟨fun h4 => ?reset, fun h4 h => ?admitted,
      fun o c h4 hfix ho hne hcfg => ?outside⟩⟩⟩
  case moved => rw [exec_routerHead net hu, hm]
  case stays => rw [exec_routerHead net hu, hm]
  case released => rw [exec_release hu ce hf, hs']
  case holds => rw [exec_release hu ce hf, hs']
  case dropped =>
    rw [leaveBy_of_refused hn hc, routerNack_of_unanswered]
    rcases h with h | h <;> simp [unanswered, h]
  case answered =>
    rw [leaveBy_of_refused hn hc, routerNack_of_room _ hr]
    simp [unanswered, net_of_refused hc, hop, hk]
  case waits =>
    rw [leaveBy_of_refused hn hc, routerNack_of_no_room _ hr]
    simp [unanswered, net_of_refused hc, hop, hk]
  case reset => exact (dikeCode_of_entering hv hd hu).trans (if_pos h4)
  case admitted =>
    rw [dikeCode_of_entering hv hd hu, if_neg h4]
    rcases h with h | ⟨ho, hcfg⟩
    · exact if_pos h
    · split
      · rfl
      · obtain ⟨c, hc⟩ := Option.ne_none_iff_exists'.mp hcfg
        rw [ho, hc]
        exact if_pos (by simp)
  case outside =>
    rw [dikeCode_of_entering hv hd hu, if_neg h4, if_neg (by simp [hfix]), ho, hcfg]
    simp [hne]

/-! ## Links that go down (07 R279) -/

theorem getRouter_modRouter (s : State) (u : Nat) (g : Router → Router) : getRouter (modRouter s u g) u = g (getRouter s u) := by
  simp [modRouter]

theorem getRouter_modRouter_ne (s : State) {u v : Nat} (g : Router → Router) (h : v ≠ u) :
    getRouter (modRouter s u g) v = getRouter s v :=
  getRouter_setRouter_ne s u v _ h

theorem neighbour_ne {u v : Nat} {d : Dir} (h : neighbour u d = some v) : v ≠ u := by
  cases d with
  | n =>
    by_cases h0 : unitY u = 0
    · simp [neighbour, h0] at h
    · obtain rfl : u - 1024 = v := by simpa [neighbour, h0] using h
      unfold unitY at h0
      omega
  | s =>
    by_cases h0 : unitY u ≥ 767
    · simp [neighbour, h0] at h
    · obtain rfl : u + 1024 = v := by simpa [neighbour, h0] using h
      omega
  | w =>
    by_cases h0 : unitX u = 0
    · simp [neighbour, h0] at h
    · obtain rfl : u - 1 = v := by simpa [neighbour, h0] using h
      unfold unitX at h0
      omega
  | e =>
    by_cases h0 : unitX u ≥ 767
    · simp [neighbour, h0] at h
    · obtain rfl : u + 1 = v := by simpa [neighbour, h0] using h
      omega

/-- The number of a side's link of a net among the eight of a router. -/
def linkBit (net : Net) (d : Dir) : Nat := dirBit d + (match net with | .req => 0 | .rpl => 4)

theorem linkBit_lt (net : Net) (d : Dir) : linkBit net d < 8 := by cases net <;> cases d <;> decide

/-- A router whose link on side d of a net has gone down. -/
def linkLost (net : Net) (d : Dir) (r : Router) : Router :=
  { r with flags := setBit r.flags 0, heldOut := if net == .req then r.heldOut.filter (fun h => h.1 != .side d) else r.heldOut,
           down := setBit r.down (linkBit net d) }

theorem getRouter_linkGone (net : Net) (u : Nat) (d : Dir) (s : State) :
    getRouter (linkGone net u d s) u = linkLost net d (getRouter s u) := by
  cases hn : neighbour u d with
  | none =>
    simp only [linkGone, linkNoted, hn, endDown, getRouter_modRouter]
    rw [show ∀ x : Epoch, getRouter { endNoted net u d s with epoch := x } u = getRouter (endNoted net u d s) u from fun _ => rfl,
      endNoted, getRouter_modRouter]
    rfl
  | some v =>
    have hne := (neighbour_ne hn).symm
    simp only [linkGone, linkNoted, hn, endDown, endNoted, getRouter_modRouter, getRouter_modRouter_ne _ _ hne]
    rfl

theorem getRouter_linkGone_neighbour {net : Net} {u v : Nat} {d : Dir} (s : State) (hn : neighbour u d = some v) :
    getRouter (linkGone net u d s) v = linkLost net (dirOpp d) (getRouter s v) := by
  simp only [linkGone, linkNoted, hn, endDown, endNoted, getRouter_modRouter, getRouter_modRouter_ne _ _ (neighbour_ne hn)]
  rfl

theorem linkDown_of_bit {s : State} {net : Net} {u : Nat} {d : Dir} (h : (getRouter s u).down.getLsbD (linkBit net d) = true) :
    linkDown s net u d = true := by
  unfold linkDown
  rw [Bool.or_eq_true, Bool.or_eq_true]
  exact Or.inl (Or.inl h)

theorem linkDown_of_lost {s t : State} {net : Net} {u : Nat} {d : Dir} (h : getRouter t u = linkLost net d (getRouter s u)) :
    linkDown t net u d = true := by
  refine linkDown_of_bit ?_
  rw [h]
  exact getLsbD_setBit_self (linkBit_lt net d) _

theorem exec_meshLinkDown {net : Net} {u : Nat} {d : Dir} {cut : BitVec 4} {s : State} (hu : isUnit u = true)
    (hd : linkDown s net u d = false) :
    exec (.meshLinkDown net u ⟨d, cut⟩) s =
      .next (armDown (linkGone net u d (forEach [0, 1, 2, 3] (fun vc t => if cut.getLsbD vc then cutHead net u d vc t else t) s))) := by
  show execMeshLinkDown net u ⟨d, cut⟩ s = _
  unfold execMeshLinkDown
  rw [if_neg (by simp [hu]), if_neg (by simp [hd])]
  rfl

/-! ## Held outputs, replicas and messages that wait -/

theorem exec_holdIdle {u : Nat} {d : Port} {o : Nat} {s : State} (hu : isUnit u = true) (h : (d, o) ∈ (getRouter s u).heldOut) :
    exec (.holdIdle u d) s =
      .next (rtFlag u 4 (modRouter s u (fun r => { r with heldOut := r.heldOut.filter (fun h => h.1 != d) }))) := by
  show execHoldIdle u d s = _
  unfold execHoldIdle
  rw [if_neg (by simp [hu]), if_pos (List.any_eq_true.mpr ⟨_, h, by simp⟩)]
  exact congrArg Host.Outcome.next (if_pos hu)

/-- The oldest replica at router u is dropped, with the rows below where it went south and the rest of its row else. -/
theorem exec_mcDrop {u : Nat} {s : State} {f : Flight} (hu : isUnit u = true)
    (hf : s.flights.find? (fun f => match f.loc with | .replica v _ => v == u | _ => false) = some f) :
    exec (.mcDrop u) s =
      .next (mcSettle (dropRows u f.pkt (if f.loc = .replica u .s then span (unitY u + 1) (mcY1 f.pkt) else [unitY u])
        (if f.loc = .replica u .s then 0 else unitX u + 1)
        (modRouter (dropFlight f s) u (fun r => { r with mcDrops := incCnt r.mcDrops, flags := setBit r.flags 3 })))) := by
  obtain ⟨d, hloc⟩ : ∃ d, f.loc = .replica u d := by
    have h := List.find?_some hf
    split at h
    next v d hl => exact ⟨d, beq_iff_eq.mp h ▸ hl⟩
    next => cases h
  show execMcDrop u s = _
  unfold execMcDrop
  rw [if_neg (by simp [hu])]
  split
  next hn => exact absurd (hf.symm.trans hn) (Option.some_ne_none f)
  next g hg =>
    obtain rfl : f = g := Option.some.inj (hf.symm.trans hg)
    rw [hloc]
    cases d with
    | s => rw [if_pos rfl, if_pos rfl]
    | n => rw [if_neg (by simp), if_neg (by simp)]
    | e => rw [if_neg (by simp), if_neg (by simp)]
    | w => rw [if_neg (by simp), if_neg (by simp)]

/-- Settles O39: each command by its branch; what a failed link leaves in its two routers is `linkLost`. -/
theorem heldPathsLinksAndWaits : Obligations.HeldPathsLinksAndWaits := by
  intro s u hu
  refine ⟨fun d o hd => ?hold, fun net d cut hd => ?down, fun f hf => ?drop, fun hc hany => ?send, fun p hc hp ha => ?recv⟩
  case hold =>
    rw [exec_holdIdle hu hd]
    simp only [rtFlag, modRouter, getRouter_setRouter, setRouter_setRouter]
    rfl
  case down =>
    dsimp only
    generalize ht : forEach [0, 1, 2, 3] (fun vc t => if cut.getLsbD vc then cutHead net u d vc t else t) s = t
    have hself := getRouter_linkGone net u d t
    refine ⟨by rw [exec_meshLinkDown hu hd, ht], linkDown_of_lost hself, ?_, fun hreq h hh => ?_, fun v hv => ?_⟩
    · rw [hself]
      exact getLsbD_setBit_self (by decide) _
    · rw [hself, hreq] at hh
      exact bne_iff_ne.mp (List.mem_filter.mp hh).2
    · have hfar := getRouter_linkGone_neighbour (net := net) t hv
      refine ⟨linkDown_of_lost hfar, ?_⟩
      rw [hfar]
      exact getLsbD_setBit_self (by decide) _
  case drop => exact exec_mcDrop hu hf
  case send =>
    show execSendBlk u s = _
    unfold execSendBlk
    rw [if_neg (by simp [hc]), if_pos hany]
    rfl
  case recv =>
    show execRecvBlk u s = _
    unfold execRecvBlk
    rw [if_neg (by simp [hc]), hp]
    exact if_pos (by rw [ha]; rfl)

end Sys2Proof.Proofs
end

section
/-! PROOFS. Synchronisation objects (08 R296 to R301) and the replies at the source of a request (07 R253, R254, R278, R282, R283). -/

namespace Sys2Proof.Proofs

open Sys2Proof Sys2Proof.Machine

/-! ## A field controller whose reply waits (07 R247) -/

/-- A field controller whose last reply still waits at its injection port takes no SYNC. -/
theorem syncCmd_of_replyWaits {f : Nat} {s : State} (sop : Nat) (hf : f < 64) (h : replyWaits s (fcId f) = true) :
    syncCmd f sop s = .next s := by
  unfold syncCmd
  rw [if_neg (by omega)]
  split
  · exact if_pos h
  · rfl

/-- The SYNC of operation sop on object 0 of field 0 with operand 7, sent by the management complex. -/
def syncSeven (sop : Nat) : Packet :=
  { src := mgcId, dest := fcId 0, op := opSync, len := 0, payload := [BitVec.ofNat 64 (7 + sop * 2 ^ 42)] }

/-- Object 0 of field 0, at 9, is allocated; a SYNC on it has arrived while the controller's ACK of an earlier one waits at its injection
port. -/
def stalledSync (sop : Nat) : State :=
  { State.reset with
    objs := [(0, { value := 9, alloc := true })]
    flights := [{ net := .req, loc := .arrived (fcId 0), pkt := syncSeven sop },
                { net := .rpl, loc := .inject, pkt := { src := fcId 0, dest := mgcId, op := opAck } }] }

/-- Refutes O44: while a reply of the field controller waits to be injected, the next SYNC stays where it is, and FCS_OPS does not
advance. -/
theorem not_syncSignalsCount : ¬ Obligations.SyncSignalsCount := by
  intro h
  obtain ⟨t, ht, -, -, -, -, -, -, -, hops, -⟩ :=
    h (stalledSync 0) 0 0 (syncSeven 0) (by decide) (by decide +kernel) (by decide) (by decide) (by decide)
  have hstay : exec (.syncAdd 0) (stalledSync 0) = .next (stalledSync 0) :=
    show syncCmd 0 0 (stalledSync 0) = _ from syncCmd_of_replyWaits 0 (by decide) (by decide)
  obtain rfl : stalledSync 0 = t := Host.Outcome.next.inj (hstay.symm.trans ht)
  exact absurd hops (by decide)

/-- Refutes O45: while a reply of the field controller waits to be injected, a wait that holds gets neither its ACK nor its WSAT. -/
theorem not_syncWaits : ¬ Obligations.SyncWaits := by
  intro h
  obtain ⟨hholds, -⟩ := h (stalledSync 3) 0 false (syncSeven 3) (by decide) (by decide +kernel) (by decide) (by decide)
  have hstay : exec (.syncWaitGe 0) (stalledSync 3) = .next (stalledSync 3) :=
    show syncCmd 0 3 (stalledSync 3) = _ from syncCmd_of_replyWaits 3 (by decide) (by decide)
  have heq := Host.Outcome.next.inj (hstay.symm.trans (hholds (by decide)))
  exact absurd (congrArg (fun t => t.flights.length) heq) (by decide)

/-! ## Kinds of units -/

theorem isEndpoint_of_isUnit {u : Nat} (h : isUnit u = true) : isEndpoint u = true := by
  unfold isEndpoint
  rw [h]
  rfl

/-! ## Replies -/

section
variable {s s1 : State} {u op : Nat} {p : Packet} {o : Outst}

/-- A reply that names an outstanding request is handed on with it. -/
theorem replyCmd_of_found {f : Outst → Packet → State → State} (hu : isUnit u = true) (hp : arrivedWith s u op = some (p, s1))
    (ho : findOut (orderRisk u p s1) u p.seq = some o) : replyCmd u op f s = .next (f o p (orderRisk u p s1)) := by
  unfold replyCmd
  rw [if_neg (by simp [isEndpoint_of_isUnit hu]), hp]
  simp only [ho]

/-- A row with others to come leaves its refused targets for resending. -/
theorem mcRow_next {off : Nat} {rows rs sent bad : List Nat} {fail : Option (Nat × Nat)} {pd : Option Nat}
    (huse : o.use = .mput rows rs sent fail pd) (hrow : rows.contains off = true) (hmore : (rows.filter (fun r => r != off)).isEmpty = false) :
    mcRow u o off bad s =
      modOut u o.pkt.seq (fun o => { o with use := .mput (rows.filter (fun r => r != off)) (rs ++ bad) sent fail pd }) s := by
  unfold mcRow
  rw [huse]
  simp only [hrow, hmore, Bool.not_true, Bool.false_eq_true, if_false]

end

/-- A multicast WRITE of core 0 with SEQ 3 to column 0 of the rows from y on, of which rows 1 and 2 are still to answer. -/
def rowsOf (y : Nat) : Outst :=
  { pkt := { src := 0, dest := unitAt 0 y, op := opWrite, seq := 3, payload := [0] }, use := .mput [1, 2] [] [] none none }

/-- The MC_NACK of row 1, whose only target holds no copy. -/
def rowOneRefused : Packet := { src := 5, dest := 0, op := opMcNack, seq := 3, arg := 1, payload := [1] }

/-- Core 0 with two outstanding requests of the same SEQ, and with the packets given. -/
def sameSeq (l : List Flight) : State := { State.reset with mifs := [(0, { outst := [rowsOf 0, rowsOf 1] })], flights := l }

/-- Refutes O46: where two outstanding requests carry the same SEQ, the MC_NACK leaves for both the refused targets of the one that
answers to it, which are other units than those that the second request's own rows give. -/
theorem not_repliesComplete : ¬ Obligations.RepliesComplete := by
  intro h
  let s := sameSeq [{ net := .rpl, loc := .arrived 0, pkt := rowOneRefused }]
  have hp : arrivedWith s 0 opMcNack = some (rowOneRefused, sameSeq []) := rfl
  have ho : findOut (orderRisk 0 rowOneRefused (sameSeq [])) 0 3 = some (rowsOf 0) := rfl
  obtain ⟨-, hfound, -⟩ := h s (sameSeq []) 0 opMcNack rowOneRefused (rowsOf 0) .clean (by decide) hp
  obtain ⟨-, -, -, -, -, -, hnack⟩ := hfound ho
  have hclaim := hnack [1, 2] [] [] none none rfl rfl (by decide) (by decide)
  have hmodel : exec (.mcNack 0) s = .next (mcRow 0 (rowsOf 0) 1 (mcNackTargets (rowsOf 0) rowOneRefused) (sameSeq [])) :=
    replyCmd_of_found (f := fun o p s => mcRow 0 o p.arg (mcNackTargets o p) s) (by decide) hp ho
  rw [mcRow_next rfl (by decide) (by decide)] at hmodel
  have heq := Host.Outcome.next.inj (hmodel.symm.trans hclaim)
  exact absurd (congrArg (fun t => (getMif t 0).outst.map (·.use)) heq) (by decide)

end Sys2Proof.Proofs
end

section
/-! PROOFS. The static fabric (06 R217 to R239): lane transfers, joins, the combining adder, steering units, crossings that re-time and
reconvergence stalls. -/

namespace Sys2Proof.Proofs

open Sys2Proof Sys2Proof.Machine

/-! ## Lane transfers (06 R218, R219) -/

section
variable {s : State} {u k : Nat} {fab : Fab} {x : Xfer}

theorem exec_laneTransfer (hu : isUnit u = true) (hk : k < selCount fab) (hl : selLive s u fab k = true) :
    exec (.laneTransfer u fab k) s = .next (laneMove u fab k s) := by
  show execLaneTransfer u fab k s = _
  unfold execLaneTransfer
  rw [if_neg (by simp [hu]), if_neg (by omega), if_pos hl]

/-- The selectors of the output lanes. -/
theorem laneMove_out (hk : k < if fab = .ctl then 16 else 8) : laneMove u fab k s = laneOutMove u fab k s := by
  cases fab with
  | vec => exact if_pos (by simpa using hk)
  | scl => exact if_pos (by simpa using hk)
  | ctl => exact if_pos (by simpa using hk)

/-- An output lane that names a head its neighbour has room for moves it there. -/
theorem laneOutMove_of_open {v : Nat} (hx : srcHead s u fab (sourceOf (getSw s u).word fab k) = some x)
    (hv : neighbour u (dirOf (k / laneWays fab)) = some v)
    (ht : notTaken (getSw s u) fab (sourceOf (getSw s u).word fab k) k = true)
    (ha : laneActive s u v fab k (laneWays fab * oppN (k / laneWays fab) + k % laneWays fab) = true)
    (hn : (namers (getSw s v).word fab (1 + (laneWays fab * oppN (k / laneWays fab) + k % laneWays fab))).isEmpty = false)
    (hc : crossingOpen s u v (k / laneWays fab) = true) (hw : switchWorks s v = true)
    (hr : (skid (getSw s v) fab (laneWays fab * oppN (k / laneWays fab) + k % laneWays fab)).length < 4)
    (hs : fab ≠ .ctl → syncSlot s u (k / laneWays fab) = false) :
    laneOutMove u fab k s = modSw (srcTake u fab (sourceOf (getSw s u).word fab k) k s) v
      (skidPut fab (laneWays fab * oppN (k / laneWays fab) + k % laneWays fab) x) := by
  have hslot : (fab != .ctl && syncSlot s u (k / laneWays fab)) = false := by
    cases hf : fab != .ctl with
    | false => rfl
    | true => exact hs (bne_iff_ne.mp hf)
  unfold laneOutMove
  simp only [hx, hv, ht, ha, hn, hc, hw, hr, hslot, Bool.not_true, Bool.not_false, Bool.and_self, Bool.false_eq_true, if_false, if_true,
    decide_true]

/-- A VEC queue takes a head on its lane 0. -/
theorem queueMove_vec {q : Nat} (hf : unitFenced s u = false) (hx : srcHead s u .vec (sourceOf (getSw s u).word .vec k) = some x)
    (ht : notTaken (getSw s u) .vec (sourceOf (getSw s u).word .vec k) k = true)
    (hr : iqRoom (twoIn (getSw s u).word q) (qAt (unitIqs s u) q) 0 = true) :
    queueMove u .vec k q 0 s =
      modIq u q (iqTake (twoIn (getSw s u).word q) 0 x) (srcTake u .vec (sourceOf (getSw s u).word .vec k) k s) := by
  unfold queueMove
  simp only [hx, ht, hf, hr, Bool.not_true, Bool.or_self, Bool.false_eq_true, if_false, if_true]

/-- A queue of another network takes a head as one entry. -/
theorem queueMove_entry {q : Nat} (hfab : fab ≠ .vec) (hf : unitFenced s u = false)
    (hx : srcHead s u fab (sourceOf (getSw s u).word fab k) = some x)
    (ht : notTaken (getSw s u) fab (sourceOf (getSw s u).word fab k) k = true) (hr : (qAt (unitIqs s u) q).ents.length < 8) :
    queueMove u fab k q 0 s =
      modIq u q (fun t => { t with ents := t.ents ++ [{ bits := x.bits.zeroExtend 512 }] })
        (srcTake u fab (sourceOf (getSw s u).word fab k) k s) := by
  unfold queueMove
  cases fab with
  | vec => exact absurd rfl hfab
  | scl =>
    simp only [hx, ht, hf, hr, Bool.not_true, Bool.or_self, Bool.false_eq_true, if_false, if_true]
    rfl
  | ctl =>
    simp only [hx, ht, hf, hr, Bool.not_true, Bool.or_self, Bool.false_eq_true, if_false, if_true]
    rfl

theorem laneMove_vecQueue {q : Nat} (hq : q < 4) : laneMove u .vec (8 + 2 * q) s = queueMove u .vec (8 + 2 * q) q 0 s := by
  unfold laneMove
  dsimp only
  rw [if_neg (by omega), if_pos (by omega), show (8 + 2 * q - 8) / 2 = q by omega, show (8 + 2 * q - 8) % 2 = 0 by omega]

theorem laneMove_sclQueue {q : Nat} (hq : q < 4) : laneMove u .scl (8 + q) s = queueMove u .scl (8 + q) q 0 s := by
  unfold laneMove
  dsimp only
  rw [if_neg (by omega), if_pos (by omega), Nat.add_sub_cancel_left]

theorem laneMove_ctlQueue {q : Nat} (hq : q < 4) : laneMove u .ctl (16 + q) s = queueMove u .ctl (16 + q) q 0 s := by
  unfold laneMove
  dsimp only
  rw [if_neg (by omega), if_pos (by omega), Nat.add_sub_cancel_left]

end

/-! ## Joins, the adder and steering units (06 R229 to R236) -/

theorem getD_lmod {α : Type} (f : α → α) (d : α) {i : Nat} {l : List α} (h : i < l.length) : (lmod l i f).getD i d = f (l.getD i d) := by
  induction l generalizing i with
  | nil => exact absurd h (Nat.not_lt_zero _)
  | cons a l ih =>
    cases i with
    | zero => rfl
    | succ i => exact ih (Nat.lt_of_succ_lt_succ h)

section
variable {s : State} {u : Nat}

theorem exec_joinMove {j : Nat} (hu : isUnit u = true) (hj : j < 4) (hl : elemLive s u = true) (hon : elemOn (getSw s u).word j = true) :
    exec (.joinMove u j) s = .next (modSw s u (fun w => { w with joins := lmod w.joins j joinStep })) := by
  show execJoinMove u j s = _
  unfold execJoinMove
  rw [if_neg (by simp [hu]), if_neg (by omega), if_pos (by rw [hl, hon]; rfl)]

theorem exec_combiningAdd (hu : isUnit u = true) (hl : elemLive s u = true) (hon : elemOn (getSw s u).word 4 = true) :
    exec (.combiningAdd u) s = .next (modSw s u adderStep) := by
  show execCombiningAdd u s = _
  unfold execCombiningAdd
  rw [if_neg (by simp [hu]), if_pos (by rw [hl, hon]; rfl)]

/-- With one lane in use the adder fires on lane 0. -/
theorem adderStep_one {w : Switch} {a b : Xfer} {as bs : List Xfer} (h : selCode w.word .vec 25 = 0 ∨ selCode w.word .vec 27 = 0)
    (hw : w.ca0 = { f0 := a :: as, f1 := b :: bs }) :
    adderStep w = adderFlags (addXfer a b).2 { w with ca0 := { f0 := as, f1 := bs, o0 := some (addXfer a b).1 } } := by
  unfold adderStep
  rw [hw]
  simp only [adderLane]
  rw [if_neg (by rcases h with h | h <;> simp [h])]

theorem exec_steeringGroup {e : Nat} (hu : isUnit u = true) (he : e < 4) (hl : elemLive s u = true)
    (hg : e % 2 = 1 → steerGang (getSw s u).word e = false) :
    exec (.steeringGroup u e) s = .next (steerStep u e s) := by
  have hlead : (e % 2 == 1 && steerGang (getSw s u).word e) = false := by
    cases ho : e % 2 == 1 with
    | false => rfl
    | true => exact hg (beq_iff_eq.mp ho)
  show execSteeringGroup u e s = _
  unfold execSteeringGroup
  rw [if_neg (by simp [hu]), if_neg (by omega), if_pos (by rw [hl, hlead]; rfl)]

/-- A select whose token names input v moves its group from there to port 0. -/
theorem steerStep_select {e v : Nat} {ts : List (BitVec 4)} (hv : v ≤ 1) (hm : steerMode (getSw s u).word e = 1)
    (ht : ((getSw s u).steer.getD e {}).tokq = BitVec.ofNat 4 v :: ts) :
    steerStep u e s = groupEnd u e (gangMove u e v (some 0) s) := by
  have hval : (BitVec.ofNat 4 v).toNat = v := by
    rw [BitVec.toNat_ofNat]
    omega
  unfold steerStep
  simp only [hm, ht, hval]
  rw [if_neg (by decide), if_pos trivial, if_pos hv]

theorem gangMove_of_no_follower {e i : Nat} {port : Option Nat} (h : hasFollower (getSw s u).word e = false) :
    gangMove u e i port s = steerMove u e i port s := if_neg (Bool.eq_false_iff.mp h)

theorem steerMove_out0 {e i : Nat} {x : Xfer} (hg : ((getSw s u).steer.getD e {}).moved < steerG (getSw s u).word e)
    (hx : steerHead s u e i = some x) (ho : ((getSw s u).steer.getD e {}).out0 = none) :
    steerMove u e i (some 0) s = modSteer u e (fun y => { y with out0 := some x, moved := y.moved + 1 }) (steerTake u e i s) := by
  unfold steerMove
  dsimp only
  rw [if_neg (by omega)]
  simp only [hx, ho]
  rfl

/-! ## Crossings that re-time (01 R31) and reconvergence stalls (06 R239) -/

theorem exec_crossingRetime {f k : Nat} {d : Dir} {m : Crossing} (hf : f < 64) (hk : crossingAt f d = some k)
    (hm : mget? s.crossings k = some (m, true)) : exec (.crossingRetime f d) s = .next (putCrossing k m false s) := by
  show execCrossingRetime f d s = _
  unfold execCrossingRetime
  rw [if_neg (by omega), hk]
  exact congrArg Host.Outcome.next (by unfold retimeDone; rw [hm])

/-- The switch of u as a stall of side `side` of element e leaves it. -/
def stallNoted (e side : Nat) (w : Switch) : Switch :=
  { w with flags := setBit w.flags 3, recElem := if w.recValid then w.recElem else BitVec.ofNat 3 e,
           recSide := if w.recValid then w.recSide else side == 1, recValid := true }

/-- A stall that a frame has not yet recorded is recorded there and raised; the switch notes it in any case. -/
theorem exec_reconvStall {e side p : Nat} {f : Frame} (hu : isUnit u = true) (he : e < 5) (hside : side < 2) (hp : ownerOf s u = some p)
    (hx : (getPolder s p).state = 2) (hf : (getPolder s p).frame = some f) (hon : elemOn (getSw s u).word e = true)
    (hst : sideStalled (getSw s u) e side = true) :
    ∃ t, exec (.reconvStall u e side) s = .next t ∧ getSw t u = stallNoted e side (getSw s u) := by
  have hexec : exec (.reconvStall u e side) s =
      if f.reconv.contains (8 * u + e) then .next (setSw s u (stallNoted e side (getSw s u)))
      else .next (raise 0x36 (some p) none (some u) (e + 8 * side)
        (setPolder (setSw s u (stallNoted e side (getSw s u))) p
          { getPolder s p with frame := some { f with reconv := f.reconv ++ [8 * u + e] } })) := by
    show execReconvStall u e side s = _
    unfold execReconvStall
    rw [if_neg (by simp [hu]), if_neg (by omega), if_neg (by omega), hp]
    dsimp only
    rw [hf]
    dsimp only
    rw [if_pos (by rw [hx, hon, hst]; rfl)]
    rfl
  by_cases hc : f.reconv.contains (8 * u + e)
  · exact ⟨_, hexec.trans (if_pos hc), getSw_setSw _ _ _⟩
  · refine ⟨_, hexec.trans (if_neg hc), ?_⟩
    exact ((HostOnly.raise _ _ _ _ _ _).keeps (getSw · u) (fun _ _ => rfl)).trans (getSw_setSw s u (stallNoted e side (getSw s u)))

end

/-- Settles O40: each command by the branch of its case. -/
theorem fabricMoves : Obligations.FabricMoves := by
  intro s u hu
  refine ⟨fun fab k v x hl hk => ?lane, fun q x hq hf => ⟨fun hl hx ht hr => ?vec, fun hl hx ht hr => ?scl, fun hl hx ht hr => ?ctl⟩,
    fun hl => ⟨fun j a b as bs hj hon hjoin hlen => ?join, fun a b as bs hon hone hca => ?adder,
      fun e v x ts he hv _ hm hg hfol hgang htok hmoved hout hx => ?steer⟩,
    fun f k d m hf hk hm => exec_crossingRetime hf hk hm, fun e side p f he hside hp hx hf hon hst => ?stall⟩
  case lane =>
    intro d i code hx hv ht ha hn hc hw hr hs
    have hsel : k < selCount fab := by cases fab <;> simp [selCount] at hk ⊢ <;> omega
    rw [exec_laneTransfer hu hsel hl, laneMove_out hk, laneOutMove_of_open hx hv ht ha hn hc hw hr hs]
  case vec =>
    rw [exec_laneTransfer hu (by show _ < 28; omega) hl, laneMove_vecQueue hq, queueMove_vec hf hx ht hr]
  case scl =>
    rw [exec_laneTransfer hu (by show _ < 20; omega) hl, laneMove_sclQueue hq, queueMove_entry (by decide) hf hx ht hr]
  case ctl =>
    rw [exec_laneTransfer hu (by show _ < 40; omega) hl, laneMove_ctlQueue hq, queueMove_entry (by decide) hf hx ht hr]
  case join =>
    refine ⟨_, exec_joinMove hu hj hl hon, ?_, rfl⟩
    rw [modSw, getSw_setSw, getD_lmod _ _ (by omega), hjoin]
    rfl
  case adder =>
    rw [exec_combiningAdd hu hl hon, modSw, adderStep_one hone hca]
    rfl
  case steer =>
    rw [exec_steeringGroup hu he hl hgang, steerStep_select hv hm htok, gangMove_of_no_follower hfol,
      steerMove_out0 (by omega) hx hout]
  case stall =>
    obtain ⟨t, ht, hw⟩ := exec_reconvStall hu he hside hp hx hf hon hst
    refine ⟨t, ht, ?_⟩
    rw [hw]
    exact ⟨rfl, rfl, fun hv => ⟨by simp [stallNoted, hv], by simp [stallNoted, hv]⟩⟩

end Sys2Proof.Proofs
end

section
/-! PROOFS. Special-function and memory units (05 R172 to R191), and the accesses and messages that units serve (04 R138 to R141, 05 R187
to R214, 07 R251, R274). -/

namespace Sys2Proof.Proofs

open Sys2Proof Sys2Proof.Machine

theorem isUnit_of_isMu {u : Nat} (h : isMu u = true) : isUnit u = true := (Bool.and_eq_true_iff.mp h).1

/-! ## An SFU takes an entry (05 R172, R173) -/

section
variable {s : State} {u i : Nat} {d : SfuDesc} {p : SdProg} {c : Sfu}

/-- Where no descriptor waits for a seed, the lowest ready one takes an entry. -/
theorem sfuStep_of_ready {frameLo : W32} (hs : (numbered c).find? (fun e => descOpen c e.2.1 e.2.2 && needSeed c e.2.1 e.2.2) = none)
    (hr : (numbered c).find? (fun e => descOpen c e.2.1 e.2.2 && !needSeed c e.2.1 e.2.2) = some (i, d, p)) :
    sfuStep u frameLo c = sfuTake u frameLo i d p c := by
  unfold sfuStep
  simp only [hs, hr]

theorem exec_sfuInputEntry (hu : isSfu u = true) (hr : unitRuns s u = true) (hf : (getSfu s u).fenced = false) :
    exec (.sfuInputEntry u) s = .next (setSfu s u (sfuStep u (frameLoOf s u) (getSfu s u))) := by
  show execSfuInputEntry u s = _
  unfold execSfuInputEntry
  rw [if_neg (by simp [hu])]
  exact if_pos (by rw [hr, hf]; rfl)

/-- An entry of a function of one lane that uses no rows. -/
theorem sfuTake_lanes {frameLo : W32} (hfunc : d.func < 16) (hrow : d.rowop = 0) (hp : p.row = 0) :
    sfuTake u frameLo i d p c =
      sfuEmit d (joinLanes ((lanes (qHead c.siq d.inQ)).map (laneFn d c.cfg.table (rowValue c d))))
        { c with siq := lmod c.siq d.inQ (fun q => (qPop q).1),
                 prog := c.prog.set i { p with count := p.count + 1, sval := rowValue c d } } := by
  have hreduce : isReduce d = false := by simp [isReduce]; omega
  have hrandom : isRandom d = false := by simp [isRandom]; omega
  have huses : usesRows d = false := by rw [usesRows, hrow, hreduce, hrandom]; rfl
  have hstarts : rowStarts p = true := beq_iff_eq.mpr hp
  have hprog : { p with count := p.count + 1, row := 0, sval := rowValue c d } = { p with count := p.count + 1, sval := rowValue c d } := by
    rw [hp]
  unfold sfuTake
  simp only [hrandom, hreduce, huses, hstarts, hrow, entryLanes, Bool.false_and, bne_self_eq_false, Bool.false_eq_true, if_false, if_true]
  rw [if_neg (by omega), if_neg (by omega), hprog]
  rfl

end

/-! ## A memory unit's descriptors (05 R190, R191) -/

section
variable {s : State} {u d : Nat} {c : MuSd}

theorem sdLive_of_runs (hr : unitRuns s u = true) (hf : (getMu s u).fenced = false) : sdLive s u = true := by
  unfold sdLive
  dsimp only
  rw [hr, hf]
  rfl

/-- An idle descriptor with repetitions left: its start is a matter of its gate alone. -/
theorem exec_streamRepetition (hu : isMu u = true) (hd : d < 8) (hl : sdLive s u = true) (hc : (getMu s u).cfg.sds[d]? = some c)
    (hi : ((getMu s u).prog.getD d {}).running = false) (hleft : ((getMu s u).prog.getD d {}).left ≠ 0) :
    exec (.streamRepetition u d) s =
      if c.gate = 0 then .next (setMu s u { getMu s u with
        prog := (getMu s u).prog.set d { (getMu s u).prog.getD d {} with running := true, moved := 0 } })
      else if (qAt (getMu s u).miq (c.gate - 1)).ents.isEmpty then .next s
      else .next (setMu s u { getMu s u with
        miq := lmod (getMu s u).miq (c.gate - 1) (fun q => (qPop q).1),
        prog := (getMu s u).prog.set d { (getMu s u).prog.getD d {} with running := true, moved := 0 } }) := by
  show execStreamRepetition u d s = _
  unfold execStreamRepetition
  rw [if_neg (by simp [hu]), if_neg (by omega)]
  simp only [hc]
  rw [if_neg (by rw [hl, hi, decide_eq_false hleft]; decide)]
  rfl

/-- A SCRATCH bank is ready for every entry. -/
theorem exec_descriptorEntry (hu : isMu u = true) (hd : d < 8) (hl : sdLive s u = true) (hc : (getMu s u).cfg.sds[d]? = some c)
    (hr : ((getMu s u).prog.getD d {}).running = true) (hm : bankMode (getMu s u) c.bank = 1) (hq : sdQueueReady (getMu s u) c = true) :
    exec (.descriptorEntry u d) s =
      .next (setMu s u { sdMove c (sdOffset c ((getMu s u).prog.getD d {})) (getMu s u) with
        prog := (sdMove c (sdOffset c ((getMu s u).prog.getD d {})) (getMu s u)).prog.set d (sdAdvance c ((getMu s u).prog.getD d {})) }) := by
  have hready : sdBankReady (getMu s u) c (sdOffset c ((getMu s u).prog.getD d {})) = true := by simp [sdBankReady, hm]
  show execDescriptorEntry u d s = _
  unfold execDescriptorEntry
  rw [if_neg (by simp [hu]), if_neg (by omega)]
  simp only [hc]
  rw [if_neg (by rw [hl, hr]; decide), if_neg (show ¬(bankMode (getMu s u) c.bank = 2 && !winWaits (getMu s u) c.bank) by simp [hm]),
    if_pos (by rw [hq, hready]; rfl)]
  rfl

theorem sdMove_out {m : Mu} {o : Nat} (hdir : c.dir = false) (hm : bankMode m c.bank = 1) :
    sdMove c o m = { m with moq := lmod m.moq c.q (fun q =>
      { q with ents := q.ents ++ [{ bits := BitVec.ofNat 512 (leNat (rdN m.mem (0x30000 * c.bank + o) 64)) }] }) } := by
  unfold sdMove
  simp only [hdir, hm, Bool.false_eq_true, if_false]
  rfl

theorem sdMove_in {m : Mu} {o : Nat} (hdir : c.dir = true) (hm : bankMode m c.bank = 1) :
    sdMove c o m = { m with miq := lmod m.miq c.q (fun q => (qPop q).1),
                            mem := wrN m.mem (0x30000 * c.bank + o) (toLe 64 (qHead m.miq c.q).toNat) } := by
  unfold sdMove
  simp only [hdir, hm, if_true]
  rfl

theorem sdAdvance_eq (c : MuSd) (p : MsProg) :
    sdAdvance c p = if p.moved + 64 < c.len then { p with moved := p.moved + 64 }
      else { left := p.left - 1, running := false, rep := p.rep + 1, moved := 0 } := by
  unfold sdAdvance
  by_cases h : p.moved + 64 < c.len
  · rw [if_neg (by omega), if_pos h]
  · rw [if_pos (by omega), if_neg h]

end

/-- Settles O41. -/
theorem sfuAndMuRun : Obligations.SfuAndMuRun := by
  refine ⟨fun s u i d p hu hr hf hs hready => ?sfu, fun s u d c hu hd hr hf hc => ?mu⟩
  case sfu =>
    have hexec := exec_sfuInputEntry hu hr hf
    rw [sfuStep_of_ready hs hready] at hexec
    refine ⟨hexec, fun hfunc hrow hp => ?_⟩
    rw [hexec, sfuTake_lanes hfunc hrow hp, lanes, List.map_map]
    rfl
  case mu =>
    have hl := sdLive_of_runs hr hf
    refine ⟨fun hi hleft => ⟨fun hg => ?free, fun hg hq => ?gated⟩, fun hrun hm => ⟨fun hdir hq => ?out, fun hdir hq => ?into⟩⟩
    case free => rw [exec_streamRepetition hu hd hl hc hi hleft, if_pos hg]
    case gated => rw [exec_streamRepetition hu hd hl hc hi hleft, if_neg hg, if_neg (by simpa using hq)]
    case out =>
      have hready : sdQueueReady (getMu s u) c = true := by simpa [sdQueueReady, hdir] using hq
      rw [exec_descriptorEntry hu hd hl hc hrun hm hready, sdMove_out hdir hm, sdAdvance_eq]
      rfl
    case into =>
      have hready : sdQueueReady (getMu s u) c = true := by simpa [sdQueueReady, hdir] using hq
      rw [exec_descriptorEntry hu hd hl hc hrun hm hready, sdMove_in hdir hm, sdAdvance_eq]
      rfl

/-! ## Requests that a unit serves -/

section
variable {s t : State} {u op : Nat} {p : Packet} {f : Packet → State → Serve} {good : Packet → List W64 → State → State}

/-- A request that the unit serves is a matter of what serving it gives. -/
theorem serveReq_of_serves (h : Serves s u op p) :
    serveReq u op f good s =
      match f p s with
      | .done s d => .next (answer u p (good p d) none (orderRisk u p (dropReq u op s)))
      | .refuse s code => .next (answer u p id (some code) (orderRisk u p (dropReq u op s)))
      | .later s => .next (orderRisk u p (dropReq u op s))
      | .wait s => .next s := by
  obtain ⟨hnext, hport, hheld, hlen⟩ := h
  unfold serveReq
  simp only [hnext, hport, hheld, hlen, Bool.not_true, Bool.false_and, Bool.or_self, Bool.false_eq_true, if_false] <;> rfl

theorem serveReq_of_done {d : List W64} (h : Serves s u op p) (hd : f p s = .done t d) :
    serveReq u op f good s = .next (answered u op p (good p d) t) := by
  rw [serveReq_of_serves h, hd] <;> rfl

theorem serveReq_of_later (h : Serves s u op p) (hd : f p s = .later t) :
    serveReq u op f good s = .next (orderRisk u p (dropReq u op t)) := by
  rw [serveReq_of_serves h, hd]

theorem serveReq_of_wait (h : Serves s u op p) (hd : f p s = .wait t) : serveReq u op f good s = .next t := by
  rw [serveReq_of_serves h, hd]

/-- The words that a WRITE stores: those of a multicast follow its extent word. -/
def storedWords (p : Packet) : List W64 := if p.mcast then p.payload.drop 1 else p.payload

theorem exec_write (hu : isUnit u = true) (hf : isFc u = false) (s : State) :
    exec (.write u) s = serveReq u opWrite
      (fun p s => if isMu u then muWrite u (8 * p.daddr) p (storedWords p) s else coreWrite u (8 * p.daddr) (storedWords p) s)
      (fun p _ s => reply p u opAck 0 0 0 [] s) s := by
  show execWrite u s = _
  unfold execWrite
  rw [if_neg (by simp [hf]), if_neg (by simp [hu])]
  rfl

theorem exec_read (hu : isUnit u = true) (s : State) :
    exec (.read u) s = serveReq u opRead
      (fun p s => if isMu u then muRead u (8 * p.daddr) (p.len + 1) p s else coreRead u (8 * p.daddr) (p.len + 1) s)
      (fun p d s => reply p u opRdata (d.length - 1) p.arg 0 d s) s := if_neg (by simp [hu])

theorem not_isFc_of_isUnit (h : isUnit u = true) : isFc u = false := by
  unfold isUnit at h
  have hy : unitY u ≠ 1022 := by
    have := of_decide_eq_true (Bool.and_eq_true_iff.mp h).2
    omega
  unfold isFc
  rw [beq_eq_false_iff_ne.mpr hy]
  rfl

/-- A WRITE that is stored is acknowledged. -/
theorem exec_write_of_done (hu : isUnit u = true) (h : Serves s u opWrite p)
    (hd : (if isMu u then muWrite u (8 * p.daddr) p (storedWords p) s else coreWrite u (8 * p.daddr) (storedWords p) s) = .done t []) :
    exec (.write u) s = .next (answered u opWrite p (reply p u opAck 0 0 0 []) t) :=
  (exec_write hu (not_isFc_of_isUnit hu) s).trans (serveReq_of_done h hd)

theorem length_bytesWords (n : Nat) (bs : List Byte) : (bytesWords n bs).length = n := by
  induction n generalizing bs with
  | zero => rfl
  | succ n ih => exact congrArg (· + 1) (ih _)

/-- A READ that is served is answered with the words read. -/
theorem exec_read_of_done {bs : List Byte} (hu : isUnit u = true) (h : Serves s u opRead p)
    (hd : (if isMu u then muRead u (8 * p.daddr) (p.len + 1) p s else coreRead u (8 * p.daddr) (p.len + 1) s) =
      .done t (bytesWords (p.len + 1) bs)) :
    exec (.read u) s = .next (answered u opRead p (reply p u opRdata p.len p.arg 0 (bytesWords (p.len + 1) bs)) t) := by
  have hr := serveReq_of_done
    (f := fun p s => if isMu u then muRead u (8 * p.daddr) (p.len + 1) p s else coreRead u (8 * p.daddr) (p.len + 1) s)
    (good := fun p d s => reply p u opRdata (d.length - 1) p.arg 0 d s) h hd
  rw [length_bytesWords, Nat.add_sub_cancel] at hr
  exact (exec_read hu s).trans hr

/-! ### At a core -/

theorem outSram_of_le {a n : Nat} (h : a + n ≤ sramSize) : outSram a n = false := by
  unfold outSram
  rw [decide_eq_false (by omega : ¬a + n > sramSize), Bool.and_false]

theorem coreWrite_of_clear {a : Nat} {ws : List W64} (h : a + 8 * ws.length ≤ sramSize)
    (hr : inRing (getCore s u) a (8 * ws.length) = false) :
    coreWrite u a ws s = .done (modCore s u (fun c => { c with sram := wrN c.sram a (wordsBytes ws) })) [] := by
  unfold coreWrite
  dsimp only
  rw [if_neg (by rw [outSram_of_le h, hr]; decide)]
  rfl

theorem coreRead_of_le {a w : Nat} (h : a + 8 * w ≤ sramSize) :
    coreRead u a w s = .done s (bytesWords w (rdN (getCore s u).sram a (8 * w))) :=
  if_neg (by rw [outSram_of_le h]; decide)

/-! ### At a memory unit -/

theorem mem_span {a b x : Nat} (h : x ∈ span a b) : a ≤ x ∧ x ≤ b := by
  obtain ⟨i, hi, rfl⟩ := List.mem_map.mp h
  have := List.mem_range.mp hi
  omega

/-- Banks that are all SCRATCH pass the test of a direct access. -/
theorem inBanks_scratch {a n : Nat} {m : Mu} (h : ∀ b, a / 0x30000 ≤ b → b ≤ (a + n - 1) / 0x30000 → bankMode m b = 1) :
    inBanks a n (fun b => bankMode m b == 1) = true :=
  List.all_eq_true.mpr fun b hb => beq_iff_eq.mpr (h b (mem_span hb).1 (mem_span hb).2)

theorem muWrite_scratch {a : Nat} {ws : List W64} (h : a + 8 * ws.length ≤ 0xC0000)
    (hm : ∀ b, a / 0x30000 ≤ b → b ≤ (a + 8 * ws.length - 1) / 0x30000 → bankMode (getMu s u) b = 1) :
    muWrite u a p ws s = .done (modMu s u (fun c => { c with mem := wrN c.mem a (wordsBytes ws) })) [] := by
  unfold muWrite
  dsimp only
  rw [if_pos (show a + 8 * ws.length ≤ 4 * bankSize from h), if_pos (inBanks_scratch hm)]
  rfl

theorem muRead_scratch {a w : Nat} (h : a + 8 * w ≤ 0xC0000)
    (hm : ∀ b, a / 0x30000 ≤ b → b ≤ (a + 8 * w - 1) / 0x30000 → bankMode (getMu s u) b = 1) :
    muRead u a w p s = .done s (bytesWords w (rdN (getMu s u).mem a (8 * w))) := by
  unfold muRead
  dsimp only
  rw [if_pos (show a + 8 * w ≤ 4 * bankSize from h), if_pos (by rw [inBanks_scratch hm, Bool.or_true])]

/-- An access of k entries within the port of FIFO bank b lies in that range of the map and names that bank. -/
theorem fifoPort {a n b k : Nat} (hk : 0 < k) (hb : b < 4) (hn : n = 64 * k) (hlo : 0x600000 + 0x10000 * b ≤ a)
    (hhi : a + n ≤ 0x610000 + 0x10000 * b) :
    ¬a + n ≤ 4 * bankSize ∧ ¬(0x400000 ≤ a && a + n ≤ 0x600000) ∧ (0x600000 ≤ a && a + n ≤ 0x640000) = true ∧
      (a - 0x600000) / 0x10000 = b ∧ (a + n - 1 - 0x600000) / 0x10000 = b := by
  refine ⟨by show ¬_ ≤ 4 * 0x30000; omega, by simp; omega, by simp; omega, by omega, by omega⟩

theorem muWrite_fifo {a b k : Nat} {ws : List W64} (hb : b < 4) (hm : bankMode (getMu s u) b = 3) (hk : 0 < k) (hk4 : k ≤ 4)
    (hn : 8 * ws.length = 64 * k) (hlo : 0x600000 + 0x10000 * b ≤ a) (hhi : a + 8 * ws.length ≤ 0x610000 + 0x10000 * b)
    (hfree : k ≤ ((getMu s u).fifo.getD b {}).free) :
    muWrite u a p ws s = .done (modMu s u (fifoPushN b k (wordsBytes ws))) [] := by
  obtain ⟨h1, h2, h3, hbank, hend⟩ := fifoPort hk hb hn hlo hhi
  unfold muWrite
  dsimp only
  rw [if_neg h1, if_neg h2, if_pos h3, hbank, hend, hn, hm, Nat.mul_div_cancel_left _ (by decide), if_neg (by simp; omega),
    if_neg (by omega)]
  rfl

theorem muRead_fifo {a b k w : Nat} (hb : b < 4) (hm : bankMode (getMu s u) b = 3) (hk : 0 < k) (hk4 : k ≤ 4)
    (hn : 8 * w = 64 * k) (hlo : 0x600000 + 0x10000 * b ≤ a) (hhi : a + 8 * w ≤ 0x610000 + 0x10000 * b)
    (hheld : k ≤ ((getMu s u).fifo.getD b {}).held) :
    muRead u a w p s = .done (setMu s u (fifoPopN b k (getMu s u)).2) (bytesWords w (fifoPopN b k (getMu s u)).1) := by
  obtain ⟨h1, h2, h3, hbank, hend⟩ := fifoPort hk hb hn hlo hhi
  unfold muRead
  dsimp only
  rw [if_neg h1, if_neg h2, if_pos h3, hbank, hend, hn, hm, Nat.mul_div_cancel_left _ (by decide), if_neg (by simp; omega),
    if_neg (by omega)]

end

/-! ### At a field controller -/

theorem isFc_fcId {f : Nat} (h : f < 64) : isFc (fcId f) = true := by
  unfold isFc fcId unitAt unitX unitY
  simp
  omega

theorem unitX_fcId {f : Nat} (h : f < 64) : unitX (fcId f) = f := by
  unfold fcId unitAt unitX
  omega

theorem fcWrite_of_mgc {s : State} {f : Nat} {p : Packet} (hsrc : p.src = mgcId) (h : 8 * p.daddr + 8 * p.payload.length ≤ 0x40000) :
    fcWrite f p s = .done (modField s f (fun x => { x with fcSram := wrN x.fcSram (8 * p.daddr) (wordsBytes p.payload) })) [] := by
  unfold fcWrite
  rw [if_neg (by simp [hsrc])]
  exact if_neg (by show ¬_ > 0x40000; omega)

theorem exec_write_fc {s : State} {f : Nat} {p : Packet} (hf : f < 64) (hp : nextReq s (fcId f) opWrite = some p)
    (hh : heldBackReq s (fcId f) p = false) (hl : lenOk p = true) (hsrc : p.src = mgcId)
    (h : 8 * p.daddr + 8 * p.payload.length ≤ 0x40000) :
    exec (.write (fcId f)) s = .next (reply p (fcId f) opAck 0 0 0 [] (dropReq (fcId f) opWrite
      (modField s f (fun x => { x with fcSram := wrN x.fcSram (8 * p.daddr) (wordsBytes p.payload) })))) := by
  show execWrite (fcId f) s = _
  unfold execWrite
  rw [if_pos (isFc_fcId hf), unitX_fcId hf]
  unfold serveFc
  simp only [hp, hh, hl, fcWrite_of_mgc hsrc h, Bool.not_true, Bool.false_eq_true, if_false]

/-- Settles O42: each access is served in its branch, and what is served is answered. -/
theorem unitsServeAccesses : Obligations.UnitsServeAccesses := by
  intro s u p a ws n m
  refine ⟨fun hu hmu hs hle hring => ?coreWrite, fun hu hmu hs hle => ?coreRead, fun hmu hs hle hb => ?muWrite,
    fun hmu hs hle hb => ?muRead, fun b k hmu hb hmode hk hk4 hlo => ⟨fun hs hn hhi hfree => ?fifoWrite,
      fun hs hn hhi hheld => ?fifoRead⟩, fun f hf hp hh hsrc hl hle => exec_write_fc hf hp hh hl hsrc hle⟩
  case coreWrite =>
    refine exec_write_of_done hu hs ?_
    rw [if_neg (by simp [hmu])]
    exact coreWrite_of_clear hle hring
  case coreRead =>
    refine exec_read_of_done hu hs ?_
    rw [if_neg (by simp [hmu])]
    exact coreRead_of_le hle
  case muWrite =>
    refine exec_write_of_done (isUnit_of_isMu hmu) hs ?_
    rw [if_pos hmu]
    exact muWrite_scratch hle hb
  case muRead =>
    refine exec_read_of_done (isUnit_of_isMu hmu) hs ?_
    rw [if_pos hmu]
    exact muRead_scratch hle hb
  case fifoWrite =>
    refine exec_write_of_done (isUnit_of_isMu hmu) hs ?_
    rw [if_pos hmu]
    exact muWrite_fifo hb hmode hk hk4 hn hlo hhi hfree
  case fifoRead =>
    refine exec_read_of_done (isUnit_of_isMu hmu) hs ?_
    rw [if_pos hmu]
    exact muRead_fifo hb hmode hk hk4 hn hlo hhi hheld

end Sys2Proof.Proofs
end

section
/-! PROOFS. Messages and claims at the units that take them (04 R138 to R140, 05 R206, R207, R213, 07 R287 to R289). -/

namespace Sys2Proof.Proofs

open Sys2Proof Sys2Proof.Machine

/-! ## The inbox and the spill ring -/

/-- A message placed in the spill ring leaves the inbox as it is. -/
theorem inbox_ringPlace {c c' : Core} {m : Msg} (h : ringPlace c m = some c') : c'.inbox = c.inbox := by
  unfold ringPlace at h
  dsimp only at h
  split at h
  · cases h
  · repeat' split at h
    all_goals cases h
    all_goals rfl

theorem acceptMsg_inbox {c : Core} {m : Msg} (hr : c.ringUsed = 0) (hi : c.inbox.length < 16) :
    acceptMsg c m = some { c with inbox := c.inbox ++ [m] } := if_pos (by rw [decide_eq_true hr, decide_eq_true hi]; rfl)

theorem acceptMsg_ring {c : Core} {m : Msg} (h : c.ringUsed ≠ 0 ∨ c.inbox.length = 16) : acceptMsg c m = ringPlace c m := by
  refine if_neg ?_
  rcases h with h | h
  · simp [h]
  · simp [h]

theorem inbox_ringSkipPad (c : Core) : (ringSkipPad c).inbox = c.inbox := by
  unfold ringSkipPad
  dsimp only
  split
  · rfl
  · rfl

theorem inbox_length_ringToInbox (c : Core) : (ringToInbox c).inbox.length = c.inbox.length + 1 := by
  unfold ringToInbox
  dsimp only
  rw [inbox_ringSkipPad, List.length_append, inbox_ringSkipPad]
  rfl

section
variable {s : State} {u : Nat} {p : Packet}

/-- The message that a packet brings. -/
def msgOf (p : Packet) : Msg := { tag := p.tag, src := p.src, words := p.payload }

/-- A core takes a message as c'. -/
def msgInto (u : Nat) (p : Packet) (s : State) (c' : Core) : State :=
  modMif (setCore s u (tagCount false p.tag c')) u (fun x => { x with recvBlk := false })

/-- What a core does with the next message. -/
def msgServe (u : Nat) (p : Packet) (s : State) : Serve :=
  match acceptMsg (getCore s u) (msgOf p) with
  | none => .wait s
  | some c' => .later (if c'.inbox.length > (getCore s u).inbox.length then trace u 2 0 (inboxWords (msgOf p)) (msgInto u p s c')
      else msgInto u p s c')

theorem exec_msg (hu : isUnit u = true) (hm : isMu u = false) (s : State) :
    exec (.msg u) s = serveReq u opMsg (msgServe u) (fun _ _ s => s) s := by
  show execMsg u s = _
  unfold execMsg
  rw [if_neg (by simp [hu])]
  simp only [hm, Bool.false_eq_true, if_false]
  rfl

theorem exec_msg_inbox (hu : isUnit u = true) (hm : isMu u = false) (h : Serves s u opMsg p) (hr : (getCore s u).ringUsed = 0)
    (hi : (getCore s u).inbox.length < 16) :
    exec (.msg u) s = .next (orderRisk u p (dropReq u opMsg (trace u 2 0 (inboxWords (msgOf p))
      (msgInto u p s { getCore s u with inbox := (getCore s u).inbox ++ [msgOf p] })))) := by
  rw [exec_msg hu hm]
  refine serveReq_of_later h ?_
  unfold msgServe
  rw [acceptMsg_inbox hr hi]
  exact congrArg Serve.later (if_pos (by simp))

theorem exec_msg_ring {c' : Core} (hu : isUnit u = true) (hm : isMu u = false) (h : Serves s u opMsg p)
    (hc : (getCore s u).ringUsed ≠ 0 ∨ (getCore s u).inbox.length = 16) (hp : ringPlace (getCore s u) (msgOf p) = some c') :
    exec (.msg u) s = .next (orderRisk u p (dropReq u opMsg (msgInto u p s c'))) := by
  rw [exec_msg hu hm]
  refine serveReq_of_later h ?_
  unfold msgServe
  rw [acceptMsg_ring hc, hp]
  exact congrArg Serve.later (if_neg (by rw [inbox_ringPlace hp]; exact Nat.lt_irrefl _))

theorem exec_msg_waits (hu : isUnit u = true) (hm : isMu u = false) (h : Serves s u opMsg p)
    (hc : (getCore s u).ringUsed ≠ 0 ∨ (getCore s u).inbox.length = 16) (hp : ringPlace (getCore s u) (msgOf p) = none) :
    exec (.msg u) s = .next s := by
  rw [exec_msg hu hm]
  refine serveReq_of_wait h ?_
  unfold msgServe
  rw [acceptMsg_ring hc, hp]

theorem exec_ringToInbox (hu : isCc u = true) (hr : (getCore s u).ringUsed > 0) (hi : (getCore s u).inbox.length < 16)
    (hf : (getCore s u).fenced = false) :
    exec (.ringToInbox u) s =
      .next (trace u 2 0 (inboxWords ((ringToInbox (getCore s u)).inbox.getLastD { tag := 0, src := 0, words := [] }))
        (setCore s u (ringToInbox (getCore s u)))) := by
  show execRingToInbox u s = _
  unfold execRingToInbox
  rw [if_neg (by simp [hu])]
  exact if_pos (by rw [decide_eq_true hr, decide_eq_true hi, hf]; rfl)

/-! ## Work counters at their home (05 R206 to R208) -/

theorem exec_wclaimRequest (hu : isMu u = true) (s : State) :
    exec (.wclaimRequest u) s = serveReq u opWclaim (wclaimServe u) (fun p d s => reply p u opWval 0 0 0 d s) s :=
  if_neg (by simp [hu])

theorem exec_wdoneRequest (hu : isMu u = true) (s : State) :
    exec (.wdoneRequest u) s = serveReq u opWdone (wdoneServe u) (fun p _ s => reply p u opAck 0 0 0 [] s) s := if_neg (by simp [hu])

/-- The counter that a WCLAIM or a WDONE names. -/
def counterOf (p : Packet) : Nat := bitsOf (p.payload.headD 0).toNat 5 0

/-- A claim repeated with its SEQ has the value it had. -/
theorem wclaimServe_again {r : Replay} (hw : wcUsable (getMu s u) (counterOf p) = true)
    (hr : (getMu s u).replay.find? (fun r => r.c == counterOf p && r.src == p.src) = some r) (hq : r.seq = p.seq) :
    wclaimServe u p s = .done (setMu s u { getMu s u with wcReplays := incCnt (getMu s u).wcReplays }) [r.val.zeroExtend 64] := by
  unfold wclaimServe
  simp only [counterOf] at hw hr
  simp only [hw, hr, hq, Bool.not_true, Bool.false_eq_true, if_false, if_true]

/-- The first claim of a source takes the counter's next value. -/
theorem wclaimServe_first (hw : wcUsable (getMu s u) (counterOf p) = true)
    (hr : (getMu s u).replay.find? (fun r => r.c == counterOf p && r.src == p.src) = none)
    (hroom : (getMu s u).replay.length < 16384) :
    wclaimServe u p s =
      .done (setMu s u { getMu s u with
        wc := mput (getMu s u).wc (counterOf p) (claimValue (getWc (getMu s u) (counterOf p))).2,
        replay := (getMu s u).replay ++
          [{ c := counterOf p, src := p.src, seq := p.seq, val := BitVec.ofNat 32 (claimValue (getWc (getMu s u) (counterOf p))).1 }] })
        [BitVec.ofNat 64 (claimValue (getWc (getMu s u) (counterOf p))).1] := by
  unfold wclaimServe
  simp only [counterOf] at hw hr
  simp only [hw, hr, Bool.not_true, Bool.false_eq_true, if_false]
  exact if_neg (by omega)

theorem claimValue_simple {w : Wc} (h : w.mode = 1) : (claimValue w).1 = if w.pos < w.limit then w.pos else 0xFFFFFFFF := by
  unfold claimValue
  rw [if_pos h]
  split
  · rfl
  · rfl

theorem wdoneServe_of_step {x : Wc} (hw : wcUsable (getMu s u) (counterOf p) = true)
    (hx : wdoneStep (getWc (getMu s u) (counterOf p)) (bitsOf (p.payload.headD 0).toNat 63 32) = some x) :
    wdoneServe u p s = .done (setMu s u { getMu s u with wc := mput (getMu s u).wc (counterOf p) x }) [] := by
  unfold wdoneServe
  simp only [counterOf] at hw hx
  simp only [hw, hx, counterOf, Bool.not_true, Bool.false_eq_true, if_false]

end

/-- Settles O43. -/
theorem unitsServeMessages : Obligations.UnitsServeMessages := by
  intro s u p
  refine ⟨fun hu hmu hs => ⟨exec_msg_inbox hu hmu hs, fun c' hc hp => exec_msg_ring hu hmu hs hc hp, exec_msg_waits hu hmu hs⟩,
    fun hu hr hi hf => ⟨inbox_length_ringToInbox _, exec_ringToInbox hu hr hi hf⟩, fun hu hs => ?claim, fun hu hs => ?done,
    fun hu c hc => ?reset, fun hu b v hb hw => ?window, fun hu i v hi => ?tag⟩
  case claim =>
    intro m c hw
    refine ⟨fun r hr hq => ?_, fun hr hroom => ⟨?_, claimValue_simple⟩⟩
    · exact (exec_wclaimRequest hu s).trans (serveReq_of_done hs (wclaimServe_again hw hr hq))
    · exact (exec_wclaimRequest hu s).trans (serveReq_of_done hs (wclaimServe_first hw hr hroom))
  case done =>
    intro m w c t put hw
    refine ⟨fun hm => ?_, fun hm ht => ?_⟩
    · exact (exec_wdoneRequest hu s).trans (serveReq_of_done hs (wdoneServe_of_step hw (if_pos hm)))
    · exact (exec_wdoneRequest hu s).trans (serveReq_of_done hs (wdoneServe_of_step hw ((if_neg hm).trans (if_pos ht))))
  case reset =>
    show execWcCtlReset u c s = _
    unfold execWcCtlReset
    rw [if_neg (by simp [hu]), if_neg (by omega)]
  case window =>
    show execWinBaseWrite u b v s = _
    unfold execWinBaseWrite
    rw [if_neg (by simp [hu]), if_neg (by omega), if_neg (by simp [hw])]
  case tag =>
    show execTagcCfgWrite u i v s = _
    unfold execTagcCfgWrite
    rw [if_neg (by simp [hu]), if_neg (by omega)]
    rfl

end Sys2Proof.Proofs
end

section
/-! PROOFS. The memory system (10 R334 to R374): DREAD and DWRITE, translation and the edge ring, upkeep, and the stream engines. -/

namespace Sys2Proof.Proofs

open Sys2Proof Sys2Proof.Machine

/-! ## What counts in a MEC alone -/

/-- t is s with other MEC registers. -/
def MecsOnly (s t : State) : Prop := t = { s with mecs := t.mecs }

theorem MecsOnly.refl (s : State) : MecsOnly s s := rfl

theorem MecsOnly.trans {s t u : State} (h : MecsOnly s t) (h' : MecsOnly t u) : MecsOnly s u := by
  unfold MecsOnly at *
  rw [h', h]

theorem mecsOnly_modMec (s : State) (n : Nat) (f : Mec → Mec) : MecsOnly s (modMec s n f) := rfl

theorem mecsOnly_eccNote (n r : Nat) (ecc : Ecc) (s : State) : MecsOnly s (eccNote n r ecc s) := by
  unfold eccNote mecCe
  split
  · exact mecsOnly_modMec ..
  · split
    · exact mecsOnly_modMec ..
    · exact .refl s

/-- What is no MEC register is as before. -/
theorem MecsOnly.keeps {α : Type} {s t : State} (h : MecsOnly s t) (g : State → α) (hg : ∀ s m, g { s with mecs := m } = g s) : g t = g s := by
  rw [h]
  exact hg s _

@[simp] theorem rd_trackHwm (n k : Nat) (s : State) : (getMec (trackHwm n k s) n).rd = (getMec s n).rd := by
  unfold trackHwm
  simp only [modMec, getMec_setMec]
  split <;> rfl

@[simp] theorem rd_eccNote (n r : Nat) (ecc : Ecc) (s : State) : (getMec (eccNote n r ecc s) n).rd = (getMec s n).rd := by
  unfold eccNote mecCe
  split
  · simp [modMec]
  · split
    · simp [modMec]
    · rfl

/-! ## A MEC performs an access (10 R343 to R347) -/

/-- The state in which MEC n replies to an access that draws no error: its counts, and the words of a write. -/
def dramServed (n : Nat) (p : Packet) (a : Nat) (ecc : Ecc) (s : State) : State :=
  let write := p.op == opDwrite
  let len := 8 * awWords (p.payload.headD 0)
  let reads := if write then partGranules a len else granules a len
  let t := eccNote n reads.length ecc (modMec (trackHwm n (granules a len).length s) n (fun m => { m with rd := addCnt m.rd reads.length }))
  if write then dramWrite n a (p.payload.drop 1) t else t

section
variable {s : State} {n a : Nat} {p : Packet} {ecc : Ecc}

/-- An access that its source may make, with no error, is replied to. -/
theorem serveDram_of_good
    (hm : mayAccess s p a (8 * awWords (p.payload.headD 0)) (p.op == opDwrite) (awPaged (p.payload.headD 0)) = true)
    (ho : stackOn s (stackOf s a) = true)
    (hf : failing s (if p.op == opDwrite then partGranules a (8 * awWords (p.payload.headD 0))
      else granules a (8 * awWords (p.payload.headD 0))) ecc = []) (he : ecc ≠ .slotBad) :
    serveDram n p a ecc s =
      if p.op == opDwrite then reply p (mecId n) opAck 0 0 0 [] (dramServed n p a ecc s)
      else reply p (mecId n) opRdata (awWords (p.payload.headD 0) - 1) (awLand (p.payload.headD 0)) 0
        (bytesWords (awWords (p.payload.headD 0)) (rdN s.dram a (8 * awWords (p.payload.headD 0)))) (dramServed n p a ecc s) := by
  have hc : ∀ k f l, failing (modMec (trackHwm n k s) n f) l ecc = failing s l ecc := fun _ _ _ => rfl
  have hd : ∀ t, MecsOnly s t → t.dram = s.dram := fun t h => h.keeps (·.dram) fun _ _ => rfl
  unfold serveDram dramServed
  simp only [hm, ho, hc, hf, slotOf, if_neg he, Bool.not_true, Bool.false_eq_true, if_false, List.filter_nil, List.append_nil, List.isEmpty_nil]
  split
  · rfl
  · rw [hd _ ((mecsOnly_modMec (trackHwm n _ s) n _).trans (mecsOnly_eccNote ..))]

theorem mecsOnly_beforeWrite (r : Nat) (f : Mec → Mec) (k : Nat) : MecsOnly s (eccNote n r ecc (modMec (trackHwm n k s) n f)) :=
  (mecsOnly_modMec (trackHwm n k s) n f).trans (mecsOnly_eccNote n r ecc _)

theorem dramWrite_dram (n a : Nat) (ws : List W64) (s : State) : (dramWrite n a ws s).dram = wrN s.dram a (wordsBytes ws) := rfl

theorem dramServed_dram : (dramServed n p a ecc s).dram = if p.op == opDwrite then wrN s.dram a (wordsBytes (p.payload.drop 1)) else s.dram := by
  unfold dramServed
  have hd := fun r f k => (mecsOnly_beforeWrite (s := s) (n := n) (ecc := ecc) r f k).keeps (·.dram) fun _ _ => rfl
  simp only
  split
  · rw [dramWrite_dram, hd]
  · exact hd ..

theorem dramServed_rd : (getMec (dramServed n p a ecc s) n).rd = addCnt (getMec s n).rd (if p.op == opDwrite
    then partGranules a (8 * awWords (p.payload.headD 0)) else granules a (8 * awWords (p.payload.headD 0))).length := by
  have hr : ∀ r k, (getMec (eccNote n r ecc (modMec (trackHwm n k s) n (fun m => { m with rd := addCnt m.rd r }))) n).rd =
      addCnt (getMec s n).rd r := by
    intro r k
    rw [rd_eccNote, modMec, getMec_setMec, rd_trackHwm]
  unfold dramServed
  simp only
  split
  · simp only [dramWrite, modMec, getMec_setMec]
    exact hr ..
  · exact hr ..

theorem dramServed_frame : { dramServed n p a ecc s with dram := s.dram, badGranules := s.badGranules, mecs := s.mecs } = s := by
  have hm := fun r f k => (mecsOnly_beforeWrite (s := s) (n := n) (ecc := ecc) r f k).keeps
    (fun t : State => { t with dram := s.dram, badGranules := s.badGranules, mecs := s.mecs }) fun _ _ => rfl
  unfold dramServed
  simp only
  split
  · exact hm ..
  · exact hm ..

end

/-! ## A MEC takes a request (10 R344, R349) -/

/-- Taking a request off a port changes the packets and the mesh interfaces alone. -/
theorem taken_eq (u op : Nat) (p : Packet) (s : State) :
    ∃ fl mi, orderRisk u p (dropReq u op s) = { s with flights := fl, mifs := mi } := by
  unfold orderRisk dropReq
  split <;> split <;> exact ⟨_, _, rfl⟩

section
variable {s : State} {n op : Nat} {p : Packet} {ecc : Checks}

theorem mecTake_of_form (hn : n < 32) (hq : nextReq s (mecId n) op = some p) (hw : replyWaits s (mecId n) = false)
    (hk : trkFree s n (reqEntries p) = true) (hf : dramForm p = none) :
    mecTake n op ecc s = if awPaged (p.payload.headD 0) then .next (Machine.translate n p ecc (orderRisk (mecId n) p (dropReq (mecId n) op s)))
      else .next (serveDram n p (8 * awAddr (p.payload.headD 0)) ecc.data (orderRisk (mecId n) p (dropReq (mecId n) op s))) := by
  unfold mecTake
  rw [if_neg (by omega)]
  simp only [hq, hf, hw, hk, Bool.not_true, Bool.or_self, Bool.false_eq_true, if_false]

theorem exec_of_dramOp (hop : op = opDread ∨ op = opDwrite) :
    exec (if op = opDread then .dread n ecc else .dwrite n ecc) s = mecTake n op ecc s := by
  rcases hop with rfl | rfl <;> rfl

/-- A cached translation that gives an address forwards the request. -/
theorem translate_of_cached {e : W64} {pa : Nat} (hc : ecc.walk ≠ .cacheBad) (hm : ecc.walk ≠ .mirrorBad)
    (hr : 8 * awAddr (p.payload.headD 0) / 65536 < (mirrorOf s n p.ctx).2)
    (ht : tlbFind s n p.ctx (8 * awAddr (p.payload.headD 0) / 65536) = some e)
    (he : pteCheck e (8 * awAddr (p.payload.headD 0)) (p.op == opDwrite) = .ok pa) :
    Machine.translate n p ecc s = forward n p pa ecc.data (modMec s n (fun m => { m with hits := incCnt m.hits })) := by
  unfold Machine.translate
  simp only [lookupCheck, if_neg hc, if_neg hm, if_neg (Nat.not_le.mpr hr), ht, he]

theorem forward_of_home {pa : Nat} {c : Ecc} (h : stackOf s pa = n) : forward n p pa c s = serveDram n p pa c s := by
  unfold forward
  exact if_pos h

theorem forward_of_away {pa : Nat} {c : Ecc} (h : stackOf s pa ≠ n) (ho : targetOff s (mecId (stackOf s pa)) = false) :
    forward n p pa c s = { s with ring := s.ring ++ [{ dest := stackOf s pa, reply := false, pkt := p, pa := pa, origin := n }] } := by
  unfold forward
  simp only [if_neg h, ho, Bool.false_eq_true, if_false]

end

/-! ## The edge ring (10 R340, R349) -/

section
variable {s : State} {n : Nat} {ecc : Checks} {m : RingMsg} {l : List RingMsg}

theorem execRingRequest_of_taken (hn : n < 32) (hr : takeRing n false s.ring = some (m, l)) (ho : targetOff s (mecId n) = false)
    (hk : trkFree s n (if m.walk then 1 else reqEntries m.pkt) = true) :
    exec (.ringRequest n ecc) s =
      if m.walk then
        let r := pteRead n m.pa ecc.walk (trackHwm n 1 { s with ring := l })
        .next { r.2 with ring := r.2.ring ++ [{ m with dest := m.origin, reply := true, ok := r.1.isSome, pte := r.1.getD 0 }] }
      else .next (serveDram n m.pkt m.pa ecc.data { s with ring := l }) := by
  show execRingRequest n ecc s = _
  unfold execRingRequest
  rw [if_neg (by omega)]
  simp only [hr, ho, hk, Bool.not_true, Bool.or_self, Bool.false_eq_true, if_false]

/-- A good read of an entry answers its eight bytes and counts. -/
theorem pteRead_of_good {pa : Nat} {c : Ecc} (hp : populated pa = true) (ho : stackOn s (stackOf s pa) = true)
    (hf : failing s [pa / 64] c = []) :
    pteRead n pa c s = (some (BitVec.ofNat 64 (rdLe s.dram pa 8)), eccNote n 1 c (modMec s n (fun m => { m with rd := incCnt m.rd }))) := by
  unfold pteRead
  rw [hp, ho]
  simp only [Bool.not_true, Bool.or_self, Bool.false_eq_true, if_false]
  rw [show failing (modMec s n _) [pa / 64] c = [] from hf]
  rfl

theorem exec_ringReply_of_request (hn : n < 32) (hr : takeRing n true s.ring = some (m, l)) (he : m.eng = none) :
    exec (.ringReply ⟨n, ecc.data⟩) s =
      .next (walked n m.pkt (if m.ok then some m.pte else none) (!m.nocache) ecc.data { s with ring := l }) := by
  show execRingReply ⟨n, ecc.data⟩ s = _
  unfold execRingReply
  rw [if_neg (Nat.not_le.mpr hn)]
  simp only [hr, he]

theorem exec_ringReply_of_engine {e : Nat} (hn : n < 32) (hr : takeRing n true s.ring = some (m, l)) (he : m.eng = some e) :
    exec (.ringReply ⟨n, ecc.data⟩) s = .next (seWalked e m { s with ring := l }) := by
  show execRingReply ⟨n, ecc.data⟩ s = _
  unfold execRingReply
  rw [if_neg (Nat.not_le.mpr hn)]
  simp only [hr, he]

/-- The result of an engine's walk is kept, and cached where the entry gives a frame and nothing was dropped meanwhile. -/
theorem seWalked_of_ok {e va : Nat} (hw : (getSe s e).walk = some (m.pkt.ctx, va))
    (hv : awAddr (m.pkt.payload.headD 0) / 8192 = va / 65536) (ho : m.ok = true) :
    seWalked e m s = seGot e m.pkt.ctx (va / 65536) m.pte
      (if (sePage m.pte va ((seDesc (getSe s e)).elim false (·.store))).isOk && !m.nocache
       then tlbPut (e / 16) m.pkt.ctx (va / 65536) m.pte (modSe s e (fun x => { x with walk := none }))
       else modSe s e (fun x => { x with walk := none })) := by
  unfold seWalked
  simp only [hw, hv, ho, bne_self_eq_false, Bool.or_self, Bool.not_true, Bool.false_eq_true, if_false]
  cases seDesc (getSe s e) with
  | none => cases hp : sePage m.pte va false <;> simp [hp, Except.isOk, Except.toBool]
  | some d => cases hp : sePage m.pte va d.store <;> simp [hp, Except.isOk, Except.toBool]

end

/-- Settles O47: an access without error in its parts, and the walk, the ring and the engines by what each takes. -/
theorem dramServes : Obligations.DramServes := by
  intro s n ecc p hn
  refine ⟨fun a => ?serve, ?take, ?ringReq, ?ringRpl, ?engine, ?done⟩
  case serve =>
    intro w write len reads hm ho hf he
    exact ⟨dramServed n p a ecc.data s, serveDram_of_good hm ho hf he, dramServed_dram, dramServed_rd, dramServed_frame⟩
  case take =>
    intro op hop hq hw hk hf
    obtain ⟨fl, mi, hs1⟩ := taken_eq (mecId n) op p s
    have hx : exec (if op = opDread then .dread n ecc else .dwrite n ecc) s = _ :=
      (exec_of_dramOp hop).trans (mecTake_of_form hn hq hw hk hf)
    refine ⟨fun hp => ?physical, fun e pa hc hm hp hr ht he => ?paged⟩
    case physical => rw [hx, hp, if_neg Bool.false_ne_true]
    case paged =>
      rw [hp, if_pos rfl, translate_of_cached hc hm hr ht he] at hx
      have hk : ∀ a, stackOf (modMec (orderRisk (mecId n) p (dropReq (mecId n) op s)) n
          (fun m => { m with hits := incCnt m.hits })) a = stackOf s a := fun a => by rw [hs1]; rfl
      have ht : ∀ d, targetOff (modMec (orderRisk (mecId n) p (dropReq (mecId n) op s)) n
          (fun m => { m with hits := incCnt m.hits })) d = targetOff s d := fun d => by rw [hs1]; rfl
      refine ⟨fun hh => ?_, fun hh ho => ?_⟩
      · exact hx.trans (congrArg _ (forward_of_home ((hk pa).trans hh)))
      · refine hx.trans (congrArg _ ((forward_of_away (by rwa [hk]) (by rwa [hk, ht])).trans ?_))
        rw [hk]
  case ringReq =>
    intro m l hr ho hk
    have hx := execRingRequest_of_taken (ecc := ecc) hn hr ho hk
    refine ⟨fun hw => ?_, fun hw hp hs hf => ?_⟩
    · rw [hx, hw, if_neg Bool.false_ne_true]
    · replace hx := hx.trans (if_pos hw)
      have hpr : pteRead n m.pa ecc.walk (trackHwm n 1 { s with ring := l }) = _ := pteRead_of_good hp hs hf
      rw [hpr] at hx
      have ht : MecsOnly { s with ring := l } (eccNote n 1 ecc.walk (modMec (trackHwm n 1 { s with ring := l }) n
        (fun m => { m with rd := incCnt m.rd }))) := mecsOnly_beforeWrite ..
      have hl : (eccNote n 1 ecc.walk (modMec (trackHwm n 1 { s with ring := l }) n (fun m => { m with rd := incCnt m.rd }))).ring = l :=
        ht.keeps (·.ring) fun _ _ => rfl
      have hd : (trackHwm n 1 { s with ring := l }).dram = s.dram := rfl
      simp only [hl, hd, Option.isSome_some, Option.getD_some] at hx
      exact ⟨_, hx, ht.keeps (fun t : State => { t with mecs := s.mecs, ring := s.ring }) fun _ _ => rfl⟩
  case ringRpl =>
    intro m l hr
    exact ⟨exec_ringReply_of_request hn hr, fun e he => exec_ringReply_of_engine hn hr he⟩
  case engine =>
    rintro m e c va x hw rfl hv ho t st
    have hx := seWalked_of_ok hw hv ho
    have hst : (seDesc (getSe s e)).elim false (·.store) = st := by
      simp only [st, x]
      cases seDesc (getSe s e) <;> rfl
    rw [hst] at hx
    refine ⟨fun ⟨f, hf⟩ hn => ?_, fun h => ?_⟩
    · rw [hx, hf, hn]
      rfl
    · rw [hx]
      rcases h with ⟨f, hf⟩ | hn
      · rw [hf]
        rfl
      · rw [hn, Bool.not_true, Bool.and_false, if_neg Bool.false_ne_true]
  case done =>
    intro e pa va he hh
    refine ⟨?_, ?_⟩
    · unfold walked
      simp only [va] at he
      simp only [he, if_true]
      exact forward_of_home hh
    · unfold walked
      simp only [va] at he
      simp only [he, Bool.false_eq_true, if_false]
      exact forward_of_home hh

end Sys2Proof.Proofs
end

section
/-! PROOFS. Configuration and upkeep of the DRAM (10 R335, R351, R365 to R373). -/

namespace Sys2Proof.Proofs

open Sys2Proof Sys2Proof.Machine

/-! ## Interleaving (10 R335, R336) -/

theorem granule_cases (s : State) : granule s = 256 ∨ granule s = 4096 ∨ granule s = 65536 := by
  unfold granule
  split
  · exact .inl rfl
  · split
    · exact .inr (.inr rfl)
    · exact .inr (.inl rfl)

theorem stackOf_stackAddr (s : State) {k : Nat} (o : Nat) (hk : k < 32) : stackOf s (stackAddr s k o) = k := by
  unfold stackOf stackAddr
  rcases granule_cases s with h | h | h <;> simp only [h] <;> omega

theorem stackOffset_stackAddr (s : State) {k : Nat} (o : Nat) (hk : k < 32) : stackOffset s (stackAddr s k o) = o := by
  unfold stackOffset stackAddr
  rcases granule_cases s with h | h | h <;> simp only [h] <;> omega

/-- Stack and stack offset give the address back. -/
theorem stackAddr_stackOf (s : State) (a : Nat) : stackAddr s (stackOf s a) (stackOffset s a) = a := by
  unfold stackOffset stackOf stackAddr
  rcases granule_cases s with h | h | h <;> simp only [h] <;> omega

theorem stackOf_lt (s : State) (a : Nat) : stackOf s a < 32 := Nat.mod_lt _ (by decide)

/-- The address in t of what s holds at address a: the same stack, the same offset. -/
def sameOffset (s t : State) (a : Nat) : Nat := stackAddr t (stackOf s a) (stackOffset s a)

theorem sameOffset_injective (s t : State) : Function.Injective (sameOffset s t) := by
  intro a b h
  have hs : stackOf s a = stackOf s b := by
    simpa only [sameOffset, stackOf_stackAddr _ _ (stackOf_lt s _)] using congrArg (stackOf t) h
  have ho : stackOffset s a = stackOffset s b := by
    simpa only [sameOffset, stackOffset_stackAddr _ _ (stackOf_lt s _)] using congrArg (stackOffset t) h
  rw [← stackAddr_stackOf s a, hs, ho, stackAddr_stackOf]

theorem sameOffset_stackAddr (s t : State) {k : Nat} (o : Nat) (hk : k < 32) : sameOffset s t (stackAddr s k o) = stackAddr t k o := by
  rw [sameOffset, stackOf_stackAddr s o hk, stackOffset_stackAddr s o hk]

theorem mget_of_not_key {α : Type} (d : α) (m : Map α) (k : Nat) (h : ∀ e ∈ m, e.1 ≠ k) : mget d m k = d := by
  induction m with
  | nil => rfl
  | cons e m ih =>
    rw [mget, if_neg (h e List.mem_cons_self)]
    exact ih fun e' he => h e' (List.mem_cons_of_mem _ he)

/-- A byte moved with every other to an address of its own reads there as it read before. -/
theorem rd8_moved (l : Bytes) (g : Nat → Nat) (hg : Function.Injective g) (hl : l.Pairwise (fun a b => a.1 < b.1)) (d : Bytes) (a : Nat) :
    rd8 (l.foldl (fun d e => wr8 d (g e.1) e.2) d) (g a) = mget (rd8 d (g a)) l a := by
  induction l generalizing d with
  | nil => rfl
  | cons e l ih =>
    obtain ⟨he, hl⟩ := List.pairwise_cons.mp hl
    rw [List.foldl_cons, ih hl, rd8_wr8, mget]
    by_cases h : e.1 = a
    · rw [if_pos (congrArg g h.symm), if_pos h, mget_of_not_key _ _ _ fun x hx => Nat.ne_of_gt (h ▸ he x hx)]
    · rw [if_neg fun hc => h (hg hc).symm, if_neg h]

theorem rd8_regranule (v : BitVec 2) (s : State) (hi : Memory.wf s.dram = true) {k : Nat} (o : Nat) (hk : k < 32) :
    rd8 (regranule v s).dram (stackAddr (regranule v s) k o) = rd8 s.dram (stackAddr s k o) := by
  have hp := ((wf_iff s.dram).mp hi).1
  have h := rd8_moved s.dram (sameOffset s { s with ilv := v }) (sameOffset_injective _ _) hp [] (stackAddr s k o)
  rw [sameOffset_stackAddr s _ o hk] at h
  exact h.trans (rd8_eq _ _).symm

theorem memCfg_of_vacant {s : State} {v : W32} (hv : s.polders.all (fun e => e.2.state == 0) = true) (h : v.toNat % 4 ≠ 3) :
    memCfg v s = (stOk, regranule (BitVec.ofNat 2 v.toNat) s) := by
  unfold memCfg
  rw [show allVacant s = true from hv]
  exact (if_neg (by decide)).trans (if_neg h)

/-! ## Dropped translations (10 R351) -/

/-- Reading a map of which every object was changed, where the change leaves the default as it is. -/
theorem mget_map {α : Type} {d : α} {f : α → α} (hd : f d = d) (m : Map α) (k : Nat) :
    mget d (m.map (fun e => (e.1, f e.2))) k = f (mget d m k) := by
  induction m with
  | nil => exact hd.symm
  | cons e m ih =>
    rw [List.map_cons, mget, mget]
    split
    · rfl
    · exact ih

theorem tlb_tlbDrop (c : Option Nat) (s : State) (k : Nat) :
    (getMec (tlbDrop c s) k).tlb = (getMec s k).tlb.filter (fun x => !dropsCtx c x.1) :=
   congrArg Mec.tlb (mget_map (d := ({} : Mec)) (f := fun m => { m with tlb := m.tlb.filter (fun x => !dropsCtx c x.1) }) rfl s.mecs k)

theorem got_tlbDrop (c : Option Nat) (s : State) (e : Nat) :
    (getSe (tlbDrop c s) e).got = (getSe s e).got.filter (fun x => !dropsCtx c x.1) :=
  congrArg Se.got (mget_map (d := ({} : Se)) (f := fun x => { x with got := x.got.filter (fun x => !dropsCtx c x.1) }) rfl s.ses e)

theorem exec_memTlbInvCtx {s : State} {h : Req} {c : Nat} (hc : c < 8192) :
    exec (.memTlbInvCtx h c) s = .next (complete h 0 [] { tlbDrop (some c) s with tlbBusy := true }) := by
  show execMemTlbInvCtx h c s = _
  unfold execMemTlbInvCtx
  exact if_neg (by omega)

/-! ## Background work (10 R365 to R369) -/

@[simp] theorem getMec_modMec (s : State) (n : Nat) (f : Mec → Mec) : getMec (modMec s n f) n = f (getMec s n) := getMec_setMec ..

@[simp] theorem modMec_modMec (s : State) (n : Nat) (f g : Mec → Mec) : modMec (modMec s n f) n g = modMec s n (fun m => g (f m)) := by
  simp [modMec]

/-- Equal registers after make an equal state. -/
theorem modMec_congr {s : State} {n : Nat} {f g : Mec → Mec} (h : f (getMec s n) = g (getMec s n)) : modMec s n f = modMec s n g :=
  congrArg (setMec s n) h

theorem tripCheck_of_cool {s : State} (h : tripDue s = false) : tripCheck s = s := by
  unfold tripCheck
  rw [h]
  rfl

section
variable {s : State} {n : Nat}

theorem refreshed_eq : refreshed n s = tempRead n ((Config.freeValue s.free).toNat % 256)
    (modMec { s with free := s.free + 1 } n (fun m => { m with refreshes := m.refreshes + 1 })) := rfl

theorem tempRead_refreshes (b : Nat) : (getMec (tempRead n b s) n).refreshes = (getMec s n).refreshes := by
  unfold tempRead
  rw [getMec_modMec]
  simp only
  split <;> rfl

theorem tempRead_tempNow (b : Nat) : (getMec (tempRead n b s) n).tempNow = BitVec.ofNat 8 b := by
  unfold tempRead
  rw [getMec_modMec]
  simp only
  split <;> rfl

theorem exec_refresh (hn : n < 32) (ho : stackOn s n = true) : exec (.refresh n) s = .next (tripCheck (refreshed n s)) := by
  show execRefresh n s = _
  unfold execRefresh
  rw [if_neg (by omega), if_neg (by simp [ho])]

theorem exec_calibrationDue (hn : n < 32) (ho : stackOn s n = true) :
    exec (.calibrationDue n) s = .next (modMec s n (fun m => if m.calLeft = 0 then { m with calLeft := 32 } else m)) := by
  show execCalibrationDue n s = _
  unfold execCalibrationDue
  rw [if_neg (by omega), if_neg (by simp [ho])]

theorem exec_mecTelemetry {t : Telemetry} (hn : n < 32) (ho : stackOn s n = true) (hf : foreground s n = false) (hc : (getMec s n).calLeft = 0) :
    exec (.mecTelemetry n t) s = .next (tripCheck (mecTelemetry n t s)) := by
  show execMecTelemetry n t s = _
  unfold execMecTelemetry
  rw [if_neg (by omega), if_neg (by simp [ho, hf, hc])]

/-- A temperature reading, with its maximum and the pass that it makes due. -/
theorem mecTelemetry_eq {b : Nat} (od : Nat) (hb : b < 256) (hc : (getMec s n).calLeft = 0) :
    mecTelemetry n ⟨b, od⟩ s = modMec s n (fun m => { m with
      tempNow := BitVec.ofNat 8 b, tempMax := BitVec.ofNat 8 (max m.tempMax.toNat b), odEcc := BitVec.ofNat 64 od,
      calLeft := if b ≥ m.tempCal.toNat + 5 ∨ m.tempCal.toNat ≥ b + 5 then 32 else 0 }) := by
  unfold mecTelemetry tempRead
  rw [modMec_modMec]
  refine modMec_congr ?_
  have hm : b % 2 ^ 8 = b := Nat.mod_eq_of_lt hb
  simp only [tempMoved, BitVec.toNat_ofNat, hm, Nat.mod_eq_of_lt hb, Bool.or_eq_true, decide_eq_true_eq]
  split
  · rfl
  · rw [hc]

theorem exec_patrolScrub_clean (hn : n < 32) (ho : stackOn s n = true)
    (hf : foreground s n = false ∨ scrubBehind s (getMec s n) = true) (hb : scrubBehind s (scrubNext (getMec s n)) = false)
    (hg : ∀ g ∈ scrubReads s n (4096 * (getMec s n).scrubPos.toNat), s.badGranules.contains g = false) :
    exec (.patrolScrub n .clean) s = .next (modMec s n scrubNext) := by
  show execPatrolScrub n .clean s = _
  unfold execPatrolScrub
  rw [if_neg (by omega), if_neg (by rcases hf with h | h <;> simp [ho, h])]
  have hs : scrubBehind (modMec s n scrubNext) (getMec (modMec s n scrubNext) n) = false := by rw [getMec_modMec]; exact hb
  have hl : (scrubReads s n (4096 * (getMec s n).scrubPos.toNat)).filter (fun g => (modMec s n scrubNext).badGranules.contains g) = [] :=
    List.filter_eq_nil_iff.mpr fun g h => by rw [show (modMec s n scrubNext).badGranules = s.badGranules from rfl, hg g h]; decide
  simp only [hs, Bool.false_eq_true, if_false, hl]
  rfl

theorem exec_calLate (hn : n < 32) (hc : (getMec s n).calLeft ≠ 0) : exec (.calLate n) s =
    .next (raise 0x52 none none none n (modMec s n (fun m => { calDone s m with flags := setBit m.flags 4 }))) := by
  show execCalLate n s = _
  unfold execCalLate
  rw [if_neg (by omega), if_neg hc]

end

/-- Settles O48: the stacks keep their bytes since address and offset answer each other; the rest by what each command changes. -/
theorem dramMaintenance : Obligations.DramMaintenance := by
  intro s h n hn
  refine ⟨fun v hv h3 => ?interleave, fun c hc => ?one, ?all, fun ho => ⟨?refresh, ?due, ?telemetry, ?scrub⟩, fun hc => exec_calLate hn hc⟩
  case interleave =>
    refine ⟨regranule (BitVec.ofNat 2 v.toNat) s, ?_, rfl, rfl, fun hi k o hk => rd8_regranule _ s hi.1 o hk⟩
    show Host.Outcome.next (complete h (memCfg v s).1 [] (memCfg v s).2) = _
    rw [memCfg_of_vacant hv h3]
    rfl
  case one =>
    exact ⟨_, exec_memTlbInvCtx hc, rfl, fun k => tlb_tlbDrop (some c) s k, fun e => got_tlbDrop (some c) s e, rfl⟩
  case all =>
    refine ⟨{ tlbDrop none s with tlbBusy := true }, rfl, rfl, fun k => ?_, fun e => ?_, ?_⟩
    · exact (tlb_tlbDrop none s k).trans (List.filter_eq_nil_iff.mpr fun _ _ => Bool.false_ne_true)
    · exact (got_tlbDrop none s e).trans (List.filter_eq_nil_iff.mpr fun _ _ => Bool.false_ne_true)
    · show s.ring.map (fun m => if m.walk && true then { m with nocache := true } else m) = _
      simp only [Bool.and_true]
  case refresh =>
    refine ⟨fun ht => ?_, ?_, ?_, rfl⟩
    · rw [exec_refresh hn ho, tripCheck_of_cool ht]
    · rw [refreshed_eq, tempRead_refreshes, getMec_modMec]
      rfl
    · rw [refreshed_eq, tempRead_tempNow]
      exact BitVec.eq_of_toNat_eq (by simp)
  case due =>
    rw [exec_calibrationDue hn ho]
    refine congrArg _ (modMec_congr ?_)
    split
    · rfl
    · rfl
  case telemetry =>
    intro b od hb hf hc t ht
    have he : mecTelemetry n ⟨b, od⟩ s = t := mecTelemetry_eq od hb hc
    rw [exec_mecTelemetry hn ho hf hc, he, tripCheck_of_cool ht]
  case scrub => exact fun hf hb hg => exec_patrolScrub_clean hn ho hf hb hg

end Sys2Proof.Proofs
end

section
/-! PROOFS. Stream engines (10 R353 to R360). -/

namespace Sys2Proof.Proofs

open Sys2Proof Sys2Proof.Machine

section
variable {s : State} {e : Nat} {ecc : Checks} {d : SeDesc}

/-- What the descriptor in progress does before its iterations: nothing without CTXSEL. -/
def seBefore (s : State) (e : Nat) (d : SeDesc) : Option State :=
  if d.ctxsel then seBatch e (getSe s e) (getPolder s (getSe s e).owner.toNat).cfg s else none

/-- Has the descriptor in progress the contexts that its iterations go over. -/
def seListed (x : Se) (d : SeDesc) : Prop := d.ctxsel = false ∨ (x.batchOk = true ∧ x.listN = some x.list.length ∧ x.list ≠ [])

/-- A batch that has not come is waited for (10 R356). -/
theorem seBefore_of_waiting {c : PolderCfg} (hd : d.ctxsel = true) (hb : (getSe s e).batchOk = false) (hs : (getSe s e).batchSent = false)
    (hr : seRoom s e = true) (hc : (getPolder s (getSe s e).owner.toNat).cfg = some c) (hm : c.maxBatch ≠ 0) :
    seBefore s e d = some (modSe (request (mecId (e / 16)) (syncPacket (mecId (e / 16)) c.batchSync (seFrameNo s (getSe s e)) 4 0)
      (.seSync e false true) s) e (fun x => { x with batchSent := true })) := by
  unfold seBefore seBatch
  rw [if_pos hd, hc, Option.getD_some, if_neg hm, hb, hs, hr]
  rfl

theorem seBefore_of_listed (h : seListed (getSe s e) d) : seBefore s e d = none := by
  unfold seBefore
  rcases h with hd | ⟨hb, hn, -⟩
  · rw [hd]
    rfl
  · split
    · unfold seBatch
      split
      · rfl
      · simp only [hb, hn, Bool.not_true, Bool.false_eq_true, if_false, Nat.lt_irrefl]
    · rfl

theorem seCount_of_listed {x : Se} (h : seListed x d) : seCount x d ≠ 0 := by
  unfold seCount
  rcases h with hd | ⟨-, hn, hl⟩
  · rw [hd]
    exact Nat.one_ne_zero
  · split
    · rw [hn, Option.getD_some]
      exact fun h0 => hl (List.length_eq_zero_iff.mp h0)
    · decide

section
variable (he : e < 512) (hr : (getSe s e).running = true) (hh : (getSe s e).halted = false) (hw : (getSe s e).walk = none)
  (ho : targetOff s (mecId (e / 16)) = false) (hd : seDesc (getSe s e) = some d)
include he hr hh hw ho hd

/-- A running engine first does what its descriptor does before its iterations. -/
theorem exec_seIteration_of_before {t : State} (hb : seBefore s e d = some t) : exec (.seIteration ⟨e, ecc⟩) s = .next t := by
  unfold seBefore at hb
  show execSeIteration ⟨e, ecc⟩ s = _
  unfold execSeIteration
  simp only [Nat.not_le.mpr he, hr, hh, hw, ho, hd, hb, Bool.not_true, Option.isSome_none, Bool.or_self, Bool.false_eq_true, if_false]

variable (hl : seListed (getSe s e) d)
include hl

/-- With its contexts at hand it waits for the gate of the iteration (10 R357). -/
theorem exec_seIteration_of_gated {v : Nat} (hg : (getSe s e).gateOk = false) (hv : seGate d (getSe s e).iter = some v)
    (hs : (getSe s e).gateSent = false) (hm : seRoom s e = true) : exec (.seIteration ⟨e, ecc⟩) s =
      .next (modSe (seSyncReq e d.gateObj v 3 true false s) e (fun x => { x with gateSent := true })) := by
  have hb := seBefore_of_listed hl
  unfold seBefore at hb
  show execSeIteration ⟨e, ecc⟩ s = _
  unfold execSeIteration
  simp only [Nat.not_le.mpr he, hr, hh, hw, ho, hd, hb, if_neg (seCount_of_listed hl), hg, hv, hs, hm, Bool.not_true, Option.isSome_none,
    Bool.or_self, Bool.false_eq_true, if_false]

/-- Without a gate to wait for it begins the iteration and moves its rows. -/
theorem exec_seIteration_of_open (hg : (getSe s e).gateOk = true ∨ seGate d (getSe s e).iter = none)
    (hk : (getSe s e).openIts.contains (seKey (getSe s e).desc (getSe s e).iter) = false) : exec (.seIteration ⟨e, ecc⟩) s =
      .next (seMove e 4096 ecc (modSe s e (fun x => { x with openIts := x.openIts ++ [seKey x.desc x.iter] }))) := by
  have hb := seBefore_of_listed hl
  unfold seBefore at hb
  have hv : (if (getSe s e).gateOk then none else seGate d (getSe s e).iter) = none := by
    rcases hg with h | h
    · exact if_pos h
    · rw [h, ite_self]
  show execSeIteration ⟨e, ecc⟩ s = _
  unfold execSeIteration
  simp only [Nat.not_le.mpr he, hr, hh, hw, ho, hd, hb, if_neg (seCount_of_listed hl), hv, Bool.not_true, Option.isSome_none, Bool.or_self,
    Bool.false_eq_true, if_false]
  refine congrArg (fun t => Host.Outcome.next (seMove e 4096 ecc t)) (congrArg (setSe s e) ?_)
  simp only [hk, Bool.false_eq_true, if_false]

end

/-- An iteration begun with nothing outstanding leaves the list, and signals where its descriptor asks (10 R357). -/
theorem exec_seIterationDone {k : Nat} (he : e < 512)
    (hf : (getSe s e).openIts.find? (fun k => !(((getSe s e).running && decide ((getSe s e).desc < (getSe s e).cfg.length)) &&
      k == seKey (getSe s e).desc (getSe s e).iter) && !seBusy s e k) = some k)
    (hd : (getSe s e).cfg[k / 65536]? = some d) (hr : d.doneEn = true → seRoom s e = true) :
    exec (.seIterationDone e) s = .next (seSettle e (if d.doneEn
      then seSyncReq e d.doneObj 1 0 false false (modSe s e (fun x => { x with openIts := x.openIts.filter (fun j => j != k) }))
      else modSe s e (fun x => { x with openIts := x.openIts.filter (fun j => j != k) }))) := by
  show execSeIterationDone e s = _
  unfold execSeIterationDone
  simp only [Nat.not_le.mpr he, hf, hd, if_false]
  cases h : d.doneEn with
  | false => rfl
  | true =>
    rw [hr h]
    rfl

end

/-- Settles O49: an engine by what its descriptor still waits for, and the end of its iterations. -/
theorem enginesRun : Obligations.EnginesRun := by
  intro s e ecc d he x n
  refine ⟨fun hr hh hw ho hd => ⟨?batch, ?gate, ?begin, ?move⟩, fun f hf => ?frame, fun hf => ?noFrame, ?done⟩
  case batch =>
    exact fun hc hb hs hm c hp h0 => exec_seIteration_of_before he hr hh hw ho hd (seBefore_of_waiting hc hb hs hm hp h0)
  case gate => exact fun hl hg v hv hs hm => exec_seIteration_of_gated he hr hh hw ho hd hl hg hv hs hm
  case begin => exact fun hl hg hk => exec_seIteration_of_open he hr hh hw ho hd hl hg hk
  case move =>
    intro k pas ecc' s' cp ch addrs hs hp hk hm hres hl w ws
    have hfit : (decide (seTrans s e + granCount (addrs.map Int.toNat) ≤ (getSe s e).pfdepth) &&
        trkFree s (e / 16) (granCount (addrs.map Int.toNat)) && seRoom s e) = true := by
      rw [Bool.and_eq_true, Bool.and_eq_true, decide_eq_true_eq]
      exact ⟨⟨hp, hk⟩, hm⟩
    unfold seMove
    simp only [show seDesc (getSe s e) = some d from hd]
    refine (if_neg (by rw [show _ = true from hfit]; decide)).trans ?_
    have hres : seResolve e (getSe s e).owner.toNat d (seCtx (getSe s e) d (getSe s e).iter).1 addrs ecc.walk s = (.ok pas, ecc', s') := hres
    have hl : (seChunkFit d (seCtx (getSe s e) d (getSe s e).iter).2 (getSe s e).iter (getSe s e).pfdepth (getSe s e).row (getSe s e).off).2.1 ≥
      d.rows * d.planes := hl
    simp only [show List.filterMap id (seChunkFit d (seCtx (getSe s e) d (getSe s e).iter).2 (getSe s e).iter (getSe s e).pfdepth (getSe s e).row
      (getSe s e).off).1 = addrs from rfl, hres, hs, if_pos hl, Bool.false_eq_true, if_false]
    rfl
  case frame =>
    unfold seFrameNo
    simp only [x, hf]
  case noFrame =>
    unfold seFrameNo
    simp only [x, hf]
  case done =>
    intro k hk hd hr
    exact exec_seIterationDone he hk hd hr

end Sys2Proof.Proofs
end

section
/-! PROOFS. The Nimmos link (12 R405 to R426). -/

namespace Sys2Proof.Proofs

open Sys2Proof Sys2Proof.Machine

/-- Port NA, to which the peer gives no credit for an EVT or UMSG frame, holds back one EVT frame. -/
def withoutCredit : State := { State.reset with host := { State.reset.host with na := { txWait := [.evt []] } } }

/-- A completion needs no credit: it leaves at once, and the EVT frame that came before it goes on waiting. -/
theorem sendFrame_withoutCredit : getPort (sendFrame 0 (.cpl 0 0 0 []) withoutCredit) 0 =
    { tx := [(0, .cpl 0 0 0 [])], txNext := 1, txWait := [.evt []] } := by decide

/-- Refutes O50: the frames of a port do not keep the order in which they were sent, for a completion passes an EVT frame that waits for
credit. -/
theorem not_linkRuns : ¬ Obligations.LinkRuns := by
  intro h
  obtain ⟨-, -, -, -, -, horder, -⟩ := h withoutCredit ⟨0, 0, 0⟩ 0 (by decide)
  have hlists := (horder (.cpl 0 0 0 [])).1
  simp only [sendFrame_withoutCredit] at hlists
  exact absurd hlists (by decide)

end Sys2Proof.Proofs
end

section
/-! PROOFS. Span links (13 R441 to R456). -/

namespace Sys2Proof.Proofs

open Sys2Proof Sys2Proof.Machine

/-- A READ that ends with KILL (07 R248), on its way over a span link. -/
def killedRead : SpanPkt := { dwafer := 0, swafer := 0, hops := 0, reply := false, pkt := { dest := 0, op := opRead, src := 0, killed := true } }

/-- The words of a packet do not say that it ends with KILL. -/
theorem spanUnpack_killedRead :
    spanUnpack (spanPack killedRead).length (spanPack killedRead) = some [{ killedRead with pkt := { killedRead.pkt with killed := false } }] := by
  decide

/-- Refutes O51: a packet that ends with KILL is read back as one that does not. -/
theorem not_spanRuns : ¬ Obligations.SpanRuns := by
  intro h
  obtain ⟨-, -, -, hback, -⟩ := h State.reset 0 ⟨0, 0, 0⟩ (by decide)
  have hread := hback killedRead (by decide) (by decide) (by decide) (by decide) (by decide) (by decide) (by decide) (by decide) (by decide)
    (by decide) (by decide) (by decide) rfl (by decide)
  rw [spanUnpack_killedRead] at hread
  exact absurd hread (by decide)

end Sys2Proof.Proofs
end

section
/-! PROOFS. The commands of a polder (02 R71 to R73). -/

namespace Sys2Proof.Proofs

open Sys2Proof Sys2Proof.Machine

/-! ## A command taken from a queue (12 R427) -/

/-- A queue whose command is taken: exec runs it. -/
theorem hostCmd_of_taken {s : State} {q opc : Nat} {f : Cmd → State → State} (h : Taken s q opc) :
    hostCmd q opc f s = .next (f (headCmd s q) (takeCmd q s)) := by
  obtain ⟨hq, hr, hop, hb⟩ := h
  have hop' : (descriptor (getQ s q) (getQ s q).sqHead.toNat).opc = BitVec.ofNat 8 opc := hop
  unfold hostCmd
  simp only [Nat.not_le.mpr hq, hr, hop', hb, BEq.rfl, Bool.and_self, if_false, if_true]
  rfl

/-! ## POLDER_HALT within a frame (02 R73) -/

/-- The first frame of a polder, due at the next tick. -/
def firstFrame : Frame := { num := 0, start := 0, effDiv := 1, deadline := 1, dwTick := 4 }

/-- Polder 1 is RUNNING within its first frame, and queue 0 holds POLDER_HALT of it. -/
def haltInFrame : State :=
  { State.reset with
    polders := [(1, { state := 2, frame := some firstFrame })]
    boot := { State.reset.boot with ready := true }
    host := { queues := [(0, { sq := [(0, 3), (1, 1)], sqTail := 1 })] } }

/-- Refutes O52: POLDER_HALT of a polder within a frame also records the mclk at which it was taken. -/
theorem not_polderCommandsRun : ¬ Obligations.PolderCommandsRun := by
  intro h
  have htaken : Taken haltInFrame 0 0x03 := ⟨by decide, by decide, by decide, rfl⟩
  obtain ⟨-, -, -, -, hhalt, -⟩ := h haltInFrame 0
  have hclaim := (hhalt htaken rfl rfl rfl).1 firstFrame rfl
  have hmodel : execPolderHalt 0 haltInFrame = _ := hostCmd_of_taken htaken
  have heq := Host.Outcome.next.inj (hmodel.symm.trans hclaim)
  exact absurd (congrArg (fun t => (getPolder t 1).hostAt) heq) (by decide)

end Sys2Proof.Proofs
end

section
/-! PROOFS. The configuration commands (11 R392 to R401). -/

namespace Sys2Proof.Proofs

open Sys2Proof Sys2Proof.Machine

/-! ## Checks in order (11 R396) -/

section
variable {q : Nat} {p : Option Nat} {l : List (Nat × List Bad)} {f : State → State} {s : State}

theorem checked_of_pass (h : firstRefusal l = none) : checked q p l f s = f s := by
  unfold checked
  simp only [h]

theorem checked_of_refusal {code : Nat} {y : Bad} (h : firstRefusal l = some (code, y)) : checked q p l f s = refuse q p code y s := by
  unfold checked
  simp only [h]

end

/-! ## What the writes of a configuration leave -/

theorem copyOut_keeps {β : Type} (g : State → β) (hg : ∀ n a ws s, g (dramWrite n a ws s) = g s) (n a : Nat) (ws : List W64) (s : State) :
    g (copyOut n a ws s) = g s := by
  induction n generalizing a ws s with
  | zero => rfl
  | succ n ih =>
    unfold copyOut
    split
    · rfl
    · exact (ih ..).trans (hg ..)

theorem writeImages_keeps {β : Type} (g : State → β) (hg : ∀ s m, g { s with mus := m } = g s) (c : PolderCfg) (absent : Nat → Bool)
    (bank : Nat → Nat) (i : Nat) (valid : Nat → BitVec 4 → BitVec 4) (s : State) : g (writeImages c absent bank i valid s) = g s := by
  refine forEach_keeps g (fun x s => ?_) _ s
  simp only
  split
  · rfl
  · exact hg s _

theorem archiveCopy_keeps {β : Type} (g : State → β) (hg : ∀ n a ws s, g (dramWrite n a ws s) = g s)
    (ha : ∀ s l n, g { s with conf := { s.conf with archive := l, archUsed := n } } = g s) (c : PolderCfg) (b : Nat → Byte) (s : State) :
    g (archiveCopy c b s) = g s := by
  unfold archiveCopy
  split
  · rfl
  · split
    · rfl
    · exact (ha _ _ _).trans ((ha _ _ _).trans (copyOut_keeps g hg ..))

theorem noteStaged_polders (c : PolderCfg) (i : BitVec 2) (s : State) : (noteStaged c i s).polders = s.polders := by
  refine forEach_keeps (·.polders) (fun u s => ?_) _ s
  split
  · rfl
  · rfl

theorem getPolder_noteStaged (c : PolderCfg) (i : BitVec 2) (s : State) (p : Nat) : getPolder (noteStaged c i s) p = getPolder s p := by
  unfold getPolder
  rw [noteStaged_polders]

/-! ## POLDER_LOAD (11 R395) -/

theorem loadWrite_of_fault {q p m : Nat} {b : Nat → Byte} {s : State}
    (h : storeUe (polderOf b (polderLayout p b)) (remapWhole (stagedRects b) s) = some m) :
    loadWrite q p b s = storeRefused q p m (3 * bankSize) (freeUsed s) := by
  unfold loadWrite
  simp only [h]

theorem loadWrite_of_good {q p : Nat} {b : Nat → Byte} {s : State}
    (h : storeUe (polderOf b (polderLayout p b)) (remapWhole (stagedRects b) s) = none) :
    loadWrite q p b s = loadStage p b (freeUsed s) := by
  unfold loadWrite
  simp only [h]

section
variable (p : Nat) (b : Nat → Byte) (s : State)

/-- The state of a load before its bytes are written. -/
def loadNoted : State := noteTaken b (modPolder s p (fun x => { x with staging := some (polderOf b (polderLayout p b)), staged := false }))

/-- What neither DRAM, the archive, the memory units nor LD_STAT.PHASE show is as it was before the bytes. -/
theorem loadStage_keeps {β : Type} (g : State → β) (hm : ∀ s m, g { s with mus := m } = g s)
    (hp : ∀ s n, g { s with conf := { s.conf with phase := n } } = g s) (hg : ∀ n a ws s, g (dramWrite n a ws s) = g s)
    (ha : ∀ s l n, g { s with conf := { s.conf with archive := l, archUsed := n } } = g s) : g (loadStage p b s) = g (loadNoted p b s) := by
  unfold loadStage
  exact (hp _ _).trans ((writeImages_keeps g hm ..).trans (archiveCopy_keeps g hg ha ..))

/-- The polder's next configuration is staged, and no other object of the polder changes. -/
theorem loadStage_polders : (loadStage p b s).polders =
    (modPolder s p (fun x => { x with staging := some (polderOf b (polderLayout p b)), staged := false })).polders :=
  loadStage_keeps p b s (·.polders) (fun _ _ => rfl) (fun _ _ => rfl) (fun _ _ _ _ => rfl) fun _ _ _ => rfl

theorem noteTaken_busy (s : State) : (noteTaken b s).conf.busy = s.conf.busy := by
  unfold noteTaken modConf
  dsimp only

theorem loadNoted_busy : (loadNoted p b s).conf.busy = s.conf.busy := by
  unfold loadNoted
  rw [noteTaken_busy]
  rfl

theorem loadStage_busy : (loadStage p b s).conf.busy = s.conf.busy := by
  have h := loadStage_keeps p b s (·.conf.busy) (fun _ _ => rfl) (fun _ _ => rfl) (fun _ _ _ _ => rfl) fun _ _ _ => rfl
  simp only [loadNoted_busy] at h
  exact h

theorem loadStage_digest : (loadStage p b s).conf.digest = bsDigest b :=
  loadStage_keeps p b s (·.conf.digest) (fun _ _ => rfl) (fun _ _ => rfl) (fun _ _ _ _ => rfl) fun _ _ _ => rfl

end

/-! ## POLDER_STAGE (11 R397) -/

theorem stageWrite_of_fault {q p i m : Nat} {b : Nat → Byte} {a : PolderCfg} {s : State}
    (h : storeUe (polderOf b (polderLayout p b)) s = some m) (ha : (getPolder s p).cfg = some a) :
    stageWrite q p i b s = storeRefused q p m (bankSize * (configBank a m).getD 3 + slotBytes * i) (slotInvalid p i (freeUsed s)) := by
  unfold stageWrite
  simp only [h, ha]

theorem stageWrite_of_good {q p i : Nat} {b : Nat → Byte} {s : State} (h : storeUe (polderOf b (polderLayout p b)) s = none) :
    stageWrite q p i b s = confEnd q stOk (stageSlot p i b (freeUsed s)) := by
  unfold stageWrite
  simp only [h]

/-- Polder x once slot i holds configuration c. -/
def slotFilled (x : Polder) (i : Nat) (c : PolderCfg) : Polder :=
  { x with slotValid := setBit x.slotValid i, slotDigest := lset x.slotDigest i c.digest, slotCfg := mput x.slotCfg i c,
           active := if x.active.toNat == i && c.digest != x.cfgActive then 7 else x.active }

theorem getPolder_stageSlot (p i : Nat) (b : Nat → Byte) (s : State) :
    getPolder (stageSlot p i b s) p = slotFilled (getPolder s p) i (polderOf b (polderLayout p b)) := by
  have h : (stageSlot p i b s).polders = (setPolder s p (slotFilled (getPolder s p) i (polderOf b (polderLayout p b)))).polders := by
    unfold stageSlot
    exact (writeImages_keeps (·.polders) (fun _ _ => rfl) ..).trans (archiveCopy_keeps (·.polders) (fun _ _ _ _ => rfl) (fun _ _ _ => rfl) ..)
  unfold getPolder
  rw [h]
  exact getPolder_setPolder ..

theorem mget?_mput_self {α : Type} (m : Map α) (k : Nat) (v : α) : mget? (mput m k v) k = some v := by
  induction m with
  | nil => simp [mput, mget?]
  | cons e m ih =>
    unfold mput
    split
    · simp [mget?]
    · split
      · simp [mget?]
      · rename_i h
        rw [mget?, if_neg h, ih]

/-! ## The commands once they are taken -/

/-- LD_STAT shows that the checks run (R395 step 1). -/
def checking (s : State) : State := modConf s (fun k => { k with phase := 1 })

section
variable {s : State} {q p : Nat} {b : Nat → Byte} (hp : polderArg (headCmd s q) = p) (hb : stagedByte (takeCmd q s) = b)
include hp hb

theorem exec_polderLoad (hc : Taken s q 0x01)
    (hs : confStatus (takeCmd q s) ((getPolder (takeCmd q s) p).state == 0) (rectFields (stagedRects b)) = none) :
    exec (.polderLoad q) s = .next (checked q (some p) (verifyChecks (takeCmd q s) 1 b) (fun s => checked q (some p)
      (polderChecks (remapWhole (stagedRects b) s) p false b) (loadWrite q p b) (checking s)) (confBegin q 0 p 0 (takeCmd q s))) := by
  have hx : execPolderLoad q s = _ := hostCmd_of_taken hc
  simp only [hp, hb, hs] at hx
  exact hx

theorem exec_polderStage (hc : Taken s q 0x07)
    (hs : confStatus (takeCmd q s) (mayStage (getPolder (takeCmd q s) p)) (rectFields (rectsOf (getPolder (takeCmd q s) p))) = none) :
    exec (.polderStage q) s = .next (checked q (some p) (verifyChecks (takeCmd q s) 1 b) (fun u => checked q (some p)
      (polderChecks u p true b) (stageWrite q p (slotArg (headCmd s q)) b) (checking u)) (confBegin q 1 p 0 (takeCmd q s))) := by
  have hx : execPolderStage q s = _ := hostCmd_of_taken hc
  simp only [hp, hb, hs] at hx
  exact hx

end

theorem exec_polderSwap {s : State} {q p : Nat} {c : PolderCfg} (hp : polderArg (headCmd s q) = p) (hc : Taken s q 0x08)
    (hs : confStatus (takeCmd q s) (maySwap (getPolder (takeCmd q s) p) (slotArg (headCmd s q)))
      (rectFields (rectsOf (getPolder (takeCmd q s) p))) = none)
    (hslot : mget? (getPolder (takeCmd q s) p).slotCfg (slotArg (headCmd s q)) = some c)
    (hb : (getPolder (takeCmd q s) p).state ≠ 2 ∨ budgetFits c (nextPeriod (takeCmd q s)) = true) :
    exec (.polderSwap q) s = .next (setPolder (confBegin q 2 p 2 (takeCmd q s)) p { getPolder (takeCmd q s) p with
      staging := some c, staged := false, swapPend := true, swapSlot := BitVec.ofNat 2 (slotArg (headCmd s q)),
      swapHeld := (getPolder (takeCmd q s) p).await.isSome }) := by
  have hx : execPolderSwap q s = _ := hostCmd_of_taken hc
  simp only [hp, hs, hslot] at hx
  have hb : ¬(((getPolder (takeCmd q s) p).state == 2 && !budgetFits c (nextPeriod (takeCmd q s))) = true) := by
    rcases hb with h | h <;> simp [h]
  exact hx.trans (congrArg _ (if_neg hb))

theorem exec_routeLoad {s : State} {q : Nat} {b : Nat → Byte} (hb : stagedByte (takeCmd q s) = b) (hc : Taken s q 0x09)
    (hs : confStatus (takeCmd q s) (!(takeCmd q s).epoch.armed) [] = none) :
    exec (.routeLoad q) s = .next (checked q none (verifyChecks (takeCmd q s) 2 b ++ routeChecks b) (fun u =>
      if bankSound (checking u) (bankNow (checking u) (routeBankOf b (routeLayout b) (bankOf u u.epoch.epoch))) then routeStage q b (checking u)
      else routeRefuse q (checking u)) (confBegin q 3 0 0 (takeCmd q s))) := by
  have hx : execRouteLoad q s = _ := hostCmd_of_taken hc
  simp only [hb, hs] at hx
  exact hx

theorem exec_stagingDone {s : State} {p : Nat} {c : PolderCfg} (hp : p < 256) (hc : (getPolder s p).staging = some c)
    (hd : (getPolder s p).staged = false) : exec (.stagingDone p) s = .next (modConf (setPolder
      (noteStaged c (if (getPolder s p).swapPend then (getPolder s p).swapSlot else 0) s) p { getPolder s p with staged := true })
      (fun k => { k with phase := 3 })) := by
  show execStagingDone p s = _
  unfold execStagingDone
  simp only [Nat.not_le.mpr hp, hc, hd, modPolder, getPolder_noteStaged, Bool.false_eq_true, if_false]

/-- Settles O53: each command by its status row, its checks and what it writes. -/
theorem configCommandsRun : Obligations.ConfigCommandsRun := by
  intro s q p i t b x phase
  refine ⟨fun ht hs => ⟨fun hv hc => ⟨fun m hk => ?loadFault, fun hk => ?load⟩, fun code y hv => ?loadRefused⟩,
    fun ht hs hv hc => ⟨fun m a hk ha => ?stageFault, fun hk => ?stage⟩, fun ht hs c hslot hb => exec_polderSwap rfl ht hs hslot hb,
    fun ht hs hv => (exec_routeLoad rfl ht hs).trans (congrArg _ (checked_of_pass hv)),
    fun p c hp hst hsd => exec_stagingDone hp hst hsd⟩
  case loadFault =>
    rw [exec_polderLoad (p := p) (b := b) rfl rfl ht hs, checked_of_pass hv, checked_of_pass hc, loadWrite_of_fault (s := checking (confBegin q 0 p 0 t)) hk]
    rfl
  case load =>
    refine ⟨loadStage p b (freeUsed (phase 1 (confBegin q 0 p 0 t))), ?_, ?_, ?_, rfl, ?_, loadStage_digest ..⟩
    · rw [exec_polderLoad (p := p) (b := b) rfl rfl ht hs, checked_of_pass hv, checked_of_pass hc, loadWrite_of_good (s := checking (confBegin q 0 p 0 t)) hk]
      rfl
    · rw [getPolder, loadStage_polders]
      exact congrArg Polder.staging (getPolder_setPolder ..)
    · rw [getPolder, loadStage_polders]
      exact congrArg Polder.staged (getPolder_setPolder ..)
    · rw [loadStage_busy]
      rfl
  case loadRefused => rw [exec_polderLoad (p := p) (b := b) rfl rfl ht hs, checked_of_refusal hv]
  case stageFault =>
    rw [exec_polderStage (p := p) (b := b) rfl rfl ht hs, checked_of_pass hv, checked_of_pass hc, stageWrite_of_fault (s := checking (confBegin q 1 p 0 t)) hk ha]
    rfl
  case stage =>
    refine ⟨stageSlot p i b (freeUsed (phase 1 (confBegin q 1 p 0 t))), ?_, ?_, ?_, ?_⟩
    · rw [exec_polderStage (p := p) (b := b) rfl rfl ht hs, checked_of_pass hv, checked_of_pass hc, stageWrite_of_good (s := checking (confBegin q 1 p 0 t)) hk]
      rfl
    · rw [getPolder_stageSlot]
      rfl
    · rw [getPolder_stageSlot]
      exact mget?_mput_self ..
    · rw [getPolder_stageSlot]
      rfl

end Sys2Proof.Proofs
end

section
/-! PROOFS. Contexts: their commands, the rounding seed, the digest chain and sealing (02 R79, 03 R114, 12 R431, 16 R538 to R543). -/

namespace Sys2Proof.Proofs

open Sys2Proof Sys2Proof.Machine

/-! ## The digest chain (16 R538, R541) -/

theorem getCtx_congr {s t : State} (h : s.ctxs = t.ctxs) (c : Nat) : getCtx s c = getCtx t c := by
  unfold getCtx
  rw [h]

/-- The journal has lost an entry of the context. -/
def journalGap (x : Ctx) : Ctx := { x with shRec := { x.shRec with jnlGap := true } }

/-- The journal changes no context but, where it loses the entry, the gap bit of its own. -/
theorem journal_ctxs (c : Nat) (e : List Byte) (s : State) :
    (journal c e s).ctxs = s.ctxs ∨ (journal c e s).ctxs = (modCtx s c journalGap).ctxs := by
  have hc : ∀ a bs s, (copyBytes a bs s).ctxs = s.ctxs := fun _ _ _ => copyOut_keeps (·.ctxs) (fun _ _ _ _ => rfl) ..
  unfold journal
  simp only
  split
  · exact .inl rfl
  · split
    · exact .inr rfl
    · refine .inl ((hc _ _ _).trans ?_)
      split
      · exact hc ..
      · rfl

theorem journal_queue (c : Nat) (e : List Byte) (s : State) : (journal c e s).sec.queue = s.sec.queue := by
  have hc : ∀ a bs s, (copyBytes a bs s).sec.queue = s.sec.queue := fun _ _ _ => copyOut_keeps (·.sec.queue) (fun _ _ _ _ => rfl) ..
  unfold journal
  simp only
  split
  · rfl
  · split
    · rfl
    · refine (hc _ _ _).trans ?_
      split
      · exact hc ..
      · rfl

section
variable (c typ : Nat) (tick : W64) (body : List Byte) (s : State)

/-- The entry extends the digest of its context; of the rest only what the record keeps changes. -/
theorem getCtx_applyEntry : ∃ r, getCtx (applyEntry c typ tick body s) c =
    { getCtx s c with digest := chain (getCtx s c).digest (entryBytes typ tick body), shRec := r } := by
  unfold applyEntry
  simp only
  generalize entryBytes typ tick body = e
  generalize hx : chain (getCtx s c).digest e = d
  generalize ht : modCtx s c (fun x => { x with digest := chain x.digest e, shRec := countEntry typ x.shRec }) = t
  have hc : getCtx t c = { getCtx s c with digest := d, shRec := countEntry typ (getCtx s c).shRec } := by
    rw [← ht, getCtx_modCtx, hx]
  rcases journal_ctxs c e t with h | h
  · exact ⟨_, (getCtx_congr h c).trans hc⟩
  · refine ⟨_, (getCtx_congr h c).trans ((getCtx_modCtx t c journalGap).trans (congrArg journalGap hc))⟩

theorem getCtx_applyEntry_ne {j : Nat} (h : j ≠ c) : getCtx (applyEntry c typ tick body s) j = getCtx s j := by
  unfold applyEntry
  simp only
  generalize entryBytes typ tick body = e
  generalize ht : modCtx s c (fun x => { x with digest := chain x.digest e, shRec := countEntry typ x.shRec }) = t
  have hc : getCtx t j = getCtx s j := by rw [← ht, getCtx_modCtx_ne _ _ h]
  rcases journal_ctxs c e t with h' | h'
  · exact (getCtx_congr h' j).trans hc
  · exact (getCtx_congr h' j).trans ((getCtx_modCtx_ne t journalGap h).trans hc)

theorem applyEntry_queue : (applyEntry c typ tick body s).sec.queue = s.sec.queue := journal_queue ..

end

/-- What the record keeps of the opening of context c (16 R539). -/
def openRecord (c : Nat) (s : State) : OpenRec :=
  let p := getPolder s (getCtx s c).polder.toNat
  { prio := (getCtx s c).prio, pmode := pmodeOf p, openTick := s.tick.count, unmeasured := !p.wgtValid, nrect := (rectsOf p).length,
    rects := rectsOf p, cfgDigest := p.cfgActive, wgtDigest := weightOf p }

/-- The record keeps the digest after OPEN. -/
def keepOpening (x : Ctx) : Ctx := { x with shRec := { x.shRec with dOpen := x.digest } }

theorem startDigest_eq (c : Nat) (s : State) : startDigest c s = modCtx (applyEntry c 1 s.tick.count
    (openBody c (getCtx s c) (getPolder s (getCtx s c).polder.toNat)) (setCtx s c { getCtx s c with digest := 0, shRec := openRecord c s }))
    c keepOpening := rfl

/-- The digest after OPEN starts the chain, and the record keeps it. -/
theorem getCtx_startDigest (c : Nat) (s : State) : ∃ r : OpenRec, getCtx (startDigest c s) c = keepOpening { getCtx s c with
    digest := chain 0 (entryBytes 1 s.tick.count (openBody c (getCtx s c) (getPolder s (getCtx s c).polder.toNat))), shRec := r } := by
  obtain ⟨r, hr⟩ := getCtx_applyEntry c 1 s.tick.count (openBody c (getCtx s c) (getPolder s (getCtx s c).polder.toNat))
    (setCtx s c { getCtx s c with digest := 0, shRec := openRecord c s })
  rw [getCtx_setCtx] at hr
  exact ⟨r, by rw [startDigest_eq, getCtx_modCtx, hr]⟩

/-! ## The mirrors (10 R351) -/

theorem mirrorWrite_keeps {β : Type} (g : State → β) (hm : ∀ s m, g { s with mecs := m } = g s) (ht : ∀ c s, g (tlbDrop c s) = g s) (c : Nat)
    (b : BitVec 29) (k : BitVec 15) (s : State) : g (mirrorWrite c b k s) = g s :=
  (forEach_keeps g (fun _ _ => hm _ _) _ _).trans (ht _ _)

theorem getMec_forEach_of_not_mem (f : Mec → Mec) {l : List Nat} {n : Nat} (h : n ∉ l) (s : State) :
    getMec (forEach l (fun n s => modMec s n f) s) n = getMec s n := by
  induction l generalizing s with
  | nil => rfl
  | cons a l ih =>
    obtain ⟨ha, hl⟩ := not_or.mp (mt List.mem_cons.mpr h)
    rw [forEach_cons, ih hl]
    exact getMec_setMec_ne s a n _ ha

/-- What f makes true of every MEC is true of each listed one. -/
theorem getMec_forEach_all {P : Mec → Prop} {f : Mec → Mec} (hf : ∀ x, P (f x)) {l : List Nat} {n : Nat} (h : n ∈ l) (s : State) :
    P (getMec (forEach l (fun n s => modMec s n f) s) n) := by
  induction l generalizing s with
  | nil => exact absurd h List.not_mem_nil
  | cons a l ih =>
    rw [forEach_cons]
    by_cases hl : n ∈ l
    · exact ih hl _
    · obtain rfl := (List.mem_cons.mp h).resolve_right hl
      rw [getMec_forEach_of_not_mem f hl, getMec_modMec]
      exact hf _

theorem mget?_merase_self {α : Type} (m : Map α) (k : Nat) : mget? (merase m k) k = none := by
  induction m with
  | nil => rfl
  | cons e m ih =>
    unfold merase at ih ⊢
    by_cases h : e.1 = k
    · rw [List.filter_cons_of_neg (by simp [h])]
      exact ih
    · rw [List.filter_cons_of_pos (by simp [h]), mget?, if_neg h]
      exact ih

theorem mirror_tlbDrop (c : Option Nat) (s : State) (n : Nat) : (getMec (tlbDrop c s) n).mirror = (getMec s n).mirror := by
  have h := mget_map (d := ({} : Mec)) (f := fun m => { m with tlb := m.tlb.filter (fun x => !dropsCtx c x.1) }) rfl s.mecs n
  have hm := congrArg Mec.mirror h
  exact hm

/-- A mirror entry of no page is none. -/
theorem mirror_mirrorWrite_zero (c : Nat) (b : BitVec 29) (s : State) {n : Nat} (h : n < 32) :
    mget? (getMec (mirrorWrite c b 0 s) n).mirror c = none :=
  getMec_forEach_all (P := fun m => mget? m.mirror c = none) (fun _ => mget?_merase_self _ c) (List.mem_range.mpr h) _

/-! ## Seeds (03 R114) -/

theorem seedPut_seeds (c : Nat) (v : W64) (s : State) : mget 0 (seedPut c v s).seeds c = v := by
  unfold seedPut
  simp only
  split
  · rename_i h
    rw [mget_merase, if_pos rfl, h]
  · exact mget_mput_self ..

theorem seedPut_fields {c f : Nat} {v : W64} {s : State} {x : Field} (h : (f, x) ∈ (seedPut c v s).fields) (hu : x.up = true) :
    mget 0 x.seeds c = v := by
  obtain ⟨e, -, he⟩ := List.mem_map.mp h
  obtain ⟨-, rfl⟩ := Prod.mk.inj he
  by_cases hup : e.2.up = true
  · simp only [if_pos hup]
    split
    · rename_i h
      rw [mget_merase, if_pos rfl, h]
    · exact mget_mput_self ..
  · rw [if_neg hup] at hu
    exact absurd hu hup

/-! ## Records (16 R542, R543) -/

theorem length_cntBytes (c : Cnt) : (cntBytes c).length = 8 := toLe_length ..

theorem length_digestBytes (d : W512) : (digestBytes d).length = 64 := toLe_length ..

theorem length_recordBody (c : Nat) (x : Ctx) (p : Polder) (tick : W64) : 640 ≤ (recordBody c x p tick).length := by
  unfold recordBody rectBytes serialBytes
  simp only [List.length_append, toLe_length, length_cntBytes, length_digestBytes, zeros, List.length_replicate, List.length_map,
    List.length_range, List.length_cons, List.length_nil, List.length_flatMap, List.map_const', List.sum_replicate_nat]
  omega

theorem length_sealedBytes (s : State) (b : List Byte) : b.length ≤ (sealedBytes s b).length := by
  unfold sealedBytes
  rw [List.length_append, List.length_append]
  omega

/-! ## The commands -/

section
variable {s : State} {q : Nat}

theorem copyCmd_of_fits {c : Cmd} {bs : List Byte}
    (h : bufferStatus s (bitsOf c.a1.toNat 40 0) (bitsOf c.a2.toNat 31 0) bs.length = none) :
    copyCmd q c bs s = finish q 0 bs.length (copyBytes (bitsOf c.a1.toNat 40 0) bs s) := by
  unfold copyCmd
  simp only [h]
  rfl

/-- The state in which CTX_OPEN starts the digest. -/
def ctxOpened (n : Nat) (x : Ctx) (s : State) : State := tlbDrop (some n) (mirrorWrite n x.ptBase x.ptPages (setCtx s n x))

theorem ctxOpened_keeps {β : Type} (g : State → β) (hm : ∀ s m, g { s with mecs := m } = g s) (ht : ∀ c s, g (tlbDrop c s) = g s) (n : Nat)
    (x : Ctx) (s : State) : g (ctxOpened n x s) = g (setCtx s n x) :=
  (ht _ _).trans (mirrorWrite_keeps g hm ht ..)

theorem getCtx_ctxOpened (n : Nat) (x : Ctx) (s : State) : getCtx (ctxOpened n x s) n = x :=
  (ctxOpened_keeps (getCtx · n) (fun _ _ => rfl) (fun _ _ => rfl) n x s).trans (getCtx_setCtx ..)

/-- A context just opened by a command. -/
def openCtx (c : Cmd) : Ctx :=
  { state := 1, polder := BitVec.ofNat 8 (bitsOf c.a0.toNat 23 16), prio := BitVec.ofNat 4 (bitsOf c.a0.toNat 27 24),
    ptBase := BitVec.ofNat 29 (bitsOf c.a1.toNat 40 0 / 4096), ptPages := BitVec.ofNat 15 (bitsOf c.a2.toNat 14 0), tag := c.a3, seedDue := true }

theorem exec_ctxOpen (ht : Taken s q 0x10) (hs : (getCtx s (ctxArg (headCmd s q))).state = 0)
    (hp : (getPolder s (bitsOf (headCmd s q).a0.toNat 23 16)).state = 1 ∨ (getPolder s (bitsOf (headCmd s q).a0.toNat 23 16)).state = 2 ∨
      (getPolder s (bitsOf (headCmd s q).a0.toNat 23 16)).state = 3)
    (hr : (getPolder s (bitsOf (headCmd s q).a0.toNat 23 16)).releasing = false) (hk : bitsOf (headCmd s q).a2.toNat 14 0 ≤ 16384)
    (ha : bitsOf (headCmd s q).a1.toNat 40 0 % 4096 = 0)
    (hd : dramRange (bitsOf (headCmd s q).a1.toNat 40 0) (8 * bitsOf (headCmd s q).a2.toNat 14 0) = true) :
    exec (.ctxOpen q) s = .next (finish q 0 0 (startDigest (ctxArg (headCmd s q))
      (ctxOpened (ctxArg (headCmd s q)) (openCtx (headCmd s q)) (takeCmd q s)))) := by
  have hx : execCtxOpen q s = _ := hostCmd_of_taken ht
  refine hx.trans (congrArg Host.Outcome.next ((if_neg ?_).trans (if_neg ?_)))
  · rw [show getCtx (takeCmd q s) (ctxArg (headCmd s q)) = getCtx s (ctxArg (headCmd s q)) from rfl, hs]
    rw [show getPolder (takeCmd q s) (bitsOf (headCmd s q).a0.toNat 23 16) = getPolder s (bitsOf (headCmd s q).a0.toNat 23 16) from rfl, hr]
    rcases hp with h | h | h <;> simp [h]
  · simp [Nat.not_lt.mpr hk, ha, hd]

end

theorem seedPut_ctxs (c : Nat) (v : W64) (s : State) : (seedPut c v s).ctxs = s.ctxs := rfl

theorem getMec_seedPut (c : Nat) (v : W64) (s : State) (n : Nat) : getMec (seedPut c v s) n = getMec s n := rfl

theorem tlbDrop_ctxs (c : Option Nat) (s : State) : (tlbDrop c s).ctxs = s.ctxs := rfl

theorem mirrorWrite_ctxs (c : Nat) (b : BitVec 29) (k : BitVec 15) (s : State) : (mirrorWrite c b k s).ctxs = s.ctxs :=
  mirrorWrite_keeps (·.ctxs) (fun _ _ => rfl) tlbDrop_ctxs c b k s

/-- Context n once it is freed: no entry, no mirror, no seed. -/
def ctxFreed (n : Nat) (s : State) : State := seedPut n 0 (tlbDrop (some n) (mirrorWrite n 0 0 { s with ctxs := merase s.ctxs n }))

theorem getCtx_ctxFreed (n k : Nat) (s : State) : getCtx (ctxFreed n s) k = if k = n then {} else getCtx s k := by
  unfold ctxFreed getCtx
  rw [seedPut_ctxs, tlbDrop_ctxs, mirrorWrite_ctxs]
  exact mget_merase ..

theorem mirror_ctxFreed (n : Nat) (s : State) : mget? (getMec (ctxFreed n s) 0).mirror n = none := by
  unfold ctxFreed
  rw [getMec_seedPut, mirror_tlbDrop]
  exact mirror_mirrorWrite_zero n 0 _ (by decide)

theorem exec_seedWrite {s : State} {k : Nat} (hk : k < 8192) (hd : (getCtx s k).seedDue = true) :
    exec (.seedWrite k) s = .next (seedPut k (openSeed (getCtx s k)) (setCtx s k { getCtx s k with seedDue := false })) := by
  show execSeedWrite k s = _
  unfold execSeedWrite
  simp only [Nat.not_le.mpr hk, hd, Bool.not_true, Bool.false_eq_true, if_false]

/-- The queue after an entry of its first event. -/
def nextQueue (ev : TrEvent) (rest : List TrEvent) (more : List (Nat × List Byte)) : List TrEvent :=
  if more.isEmpty then rest else { ev with ctxs := more } :: rest

theorem exec_treatmentEntry {s : State} {ev : TrEvent} {rest : List TrEvent} {k : Nat} {body : List Byte} {more : List (Nat × List Byte)}
    (hq : s.sec.queue = ev :: rest) (hc : ev.ctxs = (k, body) :: more) : exec .treatmentEntry s =
      .next (applyEntry k ev.typ ev.tick body (modSec s (fun x => { x with queue := nextQueue ev rest more }))) := by
  show execTreatmentEntry s = _
  unfold execTreatmentEntry
  simp only [hq, hc]
  rfl

theorem exec_sealRecord {s : State} {k : Nat} (hk : k < 8192) (hs : (getCtx s k).state = 5) (hw : entryWaits s k = false) :
    exec (.sealRecord k) s = .next (let u := applyEntry k 10 s.tick.count (closeBody (getCtx s k)) s
      setCtx u k { getCtx u k with state := 6, record := sealedBytes u (recordBody k (getCtx u k) (getPolder u (getCtx u k).polder.toNat) u.tick.count) }) := by
  show execSeal k s = _
  unfold execSeal
  simp only [Nat.not_le.mpr hk, hs, hw, bne_self_eq_false, Bool.or_self, Bool.false_eq_true, if_false]

/-- A context command that its context's state admits. -/
theorem next_of_pass {s : State} {q opc : Nat} {f : Cmd → State → State} {u : State} (ht : Taken s q opc)
    (h : f (headCmd s q) (takeCmd q s) = u) : hostCmd q opc f s = .next u := (hostCmd_of_taken ht).trans (congrArg _ h)

/-- Settles O54: each command by the test of its context's state and what it writes; entries and seals by the digest chain. -/
theorem contextsRun : Obligations.ContextsRun := by
  intro s q n c x t y0 done
  refine ⟨fun ht hs hpst hrel hk ha hd => ?opened, fun ht hs hd hl => ?submit, fun ht => ⟨fun hs => ?park, fun hs => ?parkRunning⟩,
    fun ht hs => ?unpark, fun ht hs => ?prio, fun ht hs hp => ?close, fun ht hs hb => ?record, fun ht hs => ?free, fun k hk hd => ?seed,
    fun ev rest k body more hq hc => ?entry, fun k hk hs hw => ?sealed⟩
  case opened =>
    have hc : getCtx (ctxOpened n (openCtx c) t) n = openCtx c := getCtx_ctxOpened ..
    have hp : ∀ k, getPolder (ctxOpened n (openCtx c) t) k = getPolder s k := fun k =>
      ctxOpened_keeps (getPolder · k) (fun _ _ => rfl) (fun _ _ => rfl) n (openCtx c) t
    have ht' : (ctxOpened n (openCtx c) t).tick = s.tick := ctxOpened_keeps (·.tick) (fun _ _ => rfl) (fun _ _ => rfl) n (openCtx c) t
    have h8 : (openCtx c).polder.toNat = bitsOf c.a0.toNat 23 16 := Nat.mod_eq_of_lt (Nat.mod_lt _ (by decide))
    obtain ⟨r, hr⟩ := getCtx_startDigest n (ctxOpened n (openCtx c) t)
    rw [hc, hp, ht', h8, show openBody n (openCtx c) = openBody n y0 from rfl] at hr
    have hx : exec (.ctxOpen q) s = .next (finish q 0 0 (startDigest n (ctxOpened n (openCtx c) t))) :=
      exec_ctxOpen ht hs hpst hrel hk ha hd
    refine ⟨_, hx, ?_⟩
    rw [hr]
    exact ⟨rfl, h8, Nat.mod_eq_of_lt (Nat.mod_lt _ (by decide)), rfl, Nat.mod_eq_of_lt (Nat.mod_lt _ (by decide)), rfl, rfl, rfl, rfl, rfl⟩
  case submit =>
    show execCtxSubmit q s = _
    refine next_of_pass ht ?_
    refine (if_neg ?_).trans ((if_neg hl).trans ((if_neg ?_).trans ?_))
    · show ¬((x.state != 1) = true)
      simp [hs]
    · show ¬(x.seedDue = true)
      simp [hd]
    · have hleft : BitVec.ofNat 16 (bitsOf c.a1.toNat 15 0) = BitVec.ofNat 16 c.a1.toNat :=
        BitVec.eq_of_toNat_eq (by simp [bitsOf])
      exact congrArg (fun l => finish q 0 0 (setCtx t n { x with
        state := 2
        left := l
        adv := BitVec.ofNat 12 (bitsOf c.a1.toNat 27 16)
        readyTick := s.tick.count.toNat })) hleft
  case park =>
    show execCtxPark q s = _
    refine next_of_pass ht ?_
    refine if_pos ?_
    show (decide (x.state = 1) || decide (x.state = 2)) = true
    simpa using hs
  case parkRunning =>
    show execCtxPark q s = _
    refine next_of_pass ht ?_
    refine (if_neg ?_).trans (if_pos hs)
    show ¬((decide (x.state = 1) || decide (x.state = 2)) = true)
    simp [hs]
  case unpark =>
    show execCtxUnpark q s = _
    refine next_of_pass ht ?_
    refine (if_neg ?_).trans ?_
    · show ¬((x.state != 4) = true)
      simp [hs]
    · show (if (x.left != 0) = true then finish q 0 0 (setCtx t n { x with state := 2, readyTick := s.tick.count.toNat })
        else finish q 0 0 (setCtx t n { x with state := 1 })) = _
      by_cases hl : x.left = 0
      · rw [if_neg (by simp [hl]), if_pos hl]
      · rw [if_pos (bne_iff_ne.mpr hl), if_neg hl]
  case prio =>
    show execCtxPrio q s = _
    refine next_of_pass ht ?_
    refine (if_pos ?_).trans rfl
    show [1, 2, 4].contains x.state = true
    rcases hs with h | h | h <;> simp [h]
  case close =>
    show execCtxClose q s = _
    refine next_of_pass ht ?_
    refine (if_neg ?_).trans (if_neg (Nat.not_le.mpr hp))
    show ¬((!([1, 2, 4].contains x.state)) = true)
    rcases hs with h | h | h <;> simp [h]
  case record =>
    show execCtxRecord q s = _
    refine next_of_pass ht ?_
    refine (if_neg ?_).trans (copyCmd_of_fits hb)
    show ¬((x.state != 6) = true)
    simp [hs]
  case free =>
    have hc : ∀ k, getCtx (ctxFreed n t) k = if k = n then {} else getCtx s k := fun k => getCtx_ctxFreed ..
    refine ⟨ctxFreed n t, ?_, hc, seedPut_seeds .., mirror_ctxFreed n t⟩
    show execCtxFree q s = _
    refine next_of_pass ht (if_neg ?_)
    show ¬((x.state != 6) = true)
    simp [hs]
  case seed =>
    refine ⟨_, exec_seedWrite hk hd, ?_, seedPut_seeds .., fun f x hf hu => seedPut_fields hf hu⟩
    exact congrArg Ctx.seedDue (getCtx_setCtx ..)
  case entry =>
    refine ⟨_, exec_treatmentEntry hq hc, ?_, ?_, ?_, fun j hj => getCtx_applyEntry_ne _ _ _ _ _ hj⟩
    · rw [applyEntry_queue]
      show nextQueue ev rest more = _
      cases more <;> rfl
    · obtain ⟨r, hr⟩ := getCtx_applyEntry k ev.typ ev.tick body (modSec s (fun x => { x with queue := nextQueue ev rest more }))
      rw [hr]
      rfl
    · obtain ⟨r, hr⟩ := getCtx_applyEntry k ev.typ ev.tick body (modSec s (fun x => { x with queue := nextQueue ev rest more }))
      rw [hr]
      rfl
  case sealed =>
    obtain ⟨r, hr⟩ := getCtx_applyEntry k 10 s.tick.count (closeBody (getCtx s k)) s
    refine ⟨_, exec_sealRecord hk hs hw, ?_, ?_, ?_⟩
    · rw [getCtx_setCtx]
    · rw [getCtx_setCtx, hr]
    · rw [getCtx_setCtx]
      exact Nat.le_trans (length_recordBody ..) (length_sealedBytes ..)

end Sys2Proof.Proofs
end

section
/-! PROOFS. The power commands (14 R459, R460, R466, R485, R486). -/

namespace Sys2Proof.Proofs

open Sys2Proof Sys2Proof.Machine

/-! ## Domains -/

@[simp] theorem getDom_modDom (s : State) (d : Nat) (f : Dom → Dom) : getDom (modDom s d f) d = f (getDom s d) := getDom_setDom ..

@[simp] theorem getField_modField (s : State) (f : Nat) (g : Field → Field) : getField (modField s f g) f = g (getField s f) :=
  getField_setField ..

theorem getField_modField_ne (s : State) {f k : Nat} (g : Field → Field) (h : k ≠ f) : getField (modField s f g) k = getField s k :=
  getField_setField_ne s f k _ h

theorem mecsReset_keeps {β : Type} (g : State → β) (hm : ∀ s a b c, g { s with mecs := a, mifs := b, ses := c } = g s) (l : List Nat) (s : State) :
    g (mecsReset l s) = g s :=
  forEach_keeps g (fun _ s => hm s _ _ _) l s

theorem getDom_spanTrain (p : Nat) (s : State) (d : Nat) : getDom (spanTrain p s) d = getDom s d := by
  unfold spanTrain
  split <;> rfl

theorem getDom_linkTrain (p : Nat) (s : State) (d : Nat) : getDom (linkTrain p s) d = getDom s d := by
  unfold linkTrain
  split
  · unfold modPort getDom
    rw [setPort_power]
  · rfl

section
variable {s : State} {d : Nat}

/-- A domain that is switched on starts, or is on at once (R459). -/
theorem getDom_domainOn (hd : d ≤ 100) : (getDom (domainOn d s) d).st = if d < 96 then 3 else 1 := by
  unfold domainOn
  by_cases hf : d < 64
  · rw [if_pos hf, if_pos (by omega), fieldStart, getDom_modDom]
  · rw [if_neg hf]
    by_cases hs : d < 96
    · obtain ⟨n, rfl⟩ : ∃ n, d = 64 + n := ⟨d - 64, by omega⟩
      rw [if_pos hs, if_pos hs, Nat.add_sub_cancel_left, stackStart, getDom_modDom]
    · rw [if_neg hs, if_neg hs]
      by_cases hq : d < 100
      · obtain ⟨n, rfl⟩ : ∃ n, d = 96 + n := ⟨d - 96, by omega⟩
        rw [if_pos hq, Nat.add_sub_cancel_left, quadOn]
        rw [forEach_keeps (getDom · (96 + n)) (fun p s => getDom_spanTrain p s _)]
        rw [mecsReset_keeps (getDom · (96 + n)) (fun _ _ _ _ => rfl), getDom_modDom]
      · obtain rfl : d = 100 := by omega
        rw [if_neg hq, linksOn, forEach_keeps (getDom · 100) (fun p s => getDom_linkTrain p s _), getDom_modDom]

theorem getField_domainOn (hd : d < 64) : (getField (domainOn d s) d).starting = true ∧ (getField (domainOn d s) d).setPoint = stepSupply s d 3 := by
  unfold domainOn
  rw [if_pos hd]
  unfold fieldStart
  rw [show getField (modDom (modField s d _) d _) d = getField (modField s d _) d from rfl, getField_modField]
  exact ⟨rfl, rfl⟩

theorem getDom_domainOff (hd : 64 ≤ d) : (getDom (domainOff d s) d).st = 0 := by
  unfold domainOff
  rw [if_neg (by omega)]
  by_cases hs : d < 96
  · obtain ⟨n, rfl⟩ : ∃ n, d = 64 + n := ⟨d - 64, by omega⟩
    rw [if_pos hs, Nat.add_sub_cancel_left]
    show (getDom (modDom s (64 + n) (fun x => { x with st := 0 })) (64 + n)).st = 0
    rw [getDom_modDom]
  · obtain ⟨n, rfl⟩ : ∃ n, d = 96 + n := ⟨d - 96, by omega⟩
    rw [if_neg hs, Nat.add_sub_cancel_left, quadOff, getDom_modDom]

theorem getField_domainOff (s : State) (hd : d < 64) : (getField (domainOff d s) d).change = some { target := 4, why := .command, wait := 0 } := by
  unfold domainOff
  rw [if_pos hd, getField_modField]

theorem stackBits_domainOff (s : State) (hl : 64 ≤ d) (hu : d < 96) : (domainOff d s).stackBits = clrBit s.stackBits (d - 64) := by
  unfold domainOff
  rw [if_neg (Nat.not_lt.mpr hl), if_pos hu]
  rfl

/-! ## PWR_DOMAIN (R459) -/

variable {q : Nat} (ht : Taken s q 0x20) (hd : domArg (headCmd s q) ≤ 100) (hc : domChanging s (domArg (headCmd s q)) = false)
include ht hd hc

/-- A domain that is already as asked. -/
theorem exec_pwrDomain_asIs {df : Bool} (h : ((headCmd s q).a1.getLsbD 0 = true ∧ (getDom s (domArg (headCmd s q))).st = 1) ∨
    ((headCmd s q).a1.getLsbD 0 = false ∧ (getDom s (domArg (headCmd s q))).st = 0)) :
    exec (.pwrDomain q df) s = .next (finish q 0 0 (takeCmd q s)) := by
  show execPwrDomain q df s = _
  refine next_of_pass ht ((if_neg (Nat.not_lt.mpr hd)).trans (if_pos ?_))
  have hc : domChanging (takeCmd q s) (domArg (headCmd s q)) = false := hc
  have hg : getDom (takeCmd q s) (domArg (headCmd s q)) = getDom s (domArg (headCmd s q)) := rfl
  rw [hg, hc]
  rcases h with ⟨ho, hst⟩ | ⟨ho, hst⟩ <;> rw [ho, hst] <;> rfl

theorem exec_pwrDomain_on {df : Bool} (ho : (headCmd s q).a1.getLsbD 0 = true) (hst : (getDom s (domArg (headCmd s q))).st = 0)
    (ha : df = false ∨ s.boot.single = true) :
    exec (.pwrDomain q df) s = .next (finish q 0 0 (domainOn (domArg (headCmd s q)) (takeCmd q s))) := by
  have hx : execPwrDomain q df s = _ := hostCmd_of_taken ht
  have hc : domChanging (takeCmd q s) (domArg (headCmd s q)) = false := hc
  have hg : (getDom (takeCmd q s) (domArg (headCmd s q))).st = 0 := hst
  have h2 : (df && !(takeCmd q s).boot.single) = false := by
    rcases ha with h | h
    · rw [h, Bool.false_and]
    · rw [show (takeCmd q s).boot.single = true from h, Bool.not_true, Bool.and_false]
  simp only [ho, hg, hc, h2, if_neg (Nat.not_lt.mpr hd)] at hx
  exact hx

theorem exec_pwrDomain_off {df : Bool} (ho : (headCmd s q).a1.getLsbD 0 = false) (hst : (getDom s (domArg (headCmd s q))).st = 1)
    (h100 : domArg (headCmd s q) ≠ 100) (hm : mayOff s (domArg (headCmd s q)) = true) (ha : df = false ∨ s.boot.single = true) :
    exec (.pwrDomain q df) s = .next (finish q 0 0 (domainOff (domArg (headCmd s q)) (takeCmd q s))) := by
  have hx : execPwrDomain q df s = _ := hostCmd_of_taken ht
  have hc : domChanging (takeCmd q s) (domArg (headCmd s q)) = false := hc
  have hg : (getDom (takeCmd q s) (domArg (headCmd s q))).st = 1 := hst
  have hm : mayOff (takeCmd q s) (domArg (headCmd s q)) = true := hm
  have h2 : (df && !(takeCmd q s).boot.single) = false := by
    rcases ha with h | h
    · rw [h, Bool.false_and]
    · rw [show (takeCmd q s).boot.single = true from h, Bool.not_true, Bool.and_false]
  simp only [ho, hg, hc, h2, hm, h100, if_neg (Nat.not_lt.mpr hd)] at hx
  exact hx

end

/-! ## Ceilings, trust and the saves (R466, R485, R486) -/

theorem getField_ceilReturn_self (s : State) (f : Nat) : (getField (ceilReturn f s) f).ceil = (getField s f).ceil := by
  unfold ceilReturn
  simp only
  split
  · unfold fieldStart
    rw [show getField (modDom (modField s f _) f _) f = getField (modField s f _) f from rfl, getField_modField]
  · rfl

theorem getField_ceilReturn_ne (s : State) {f k : Nat} (h : k ≠ f) : getField (ceilReturn f s) k = getField s k := by
  unfold ceilReturn
  simp only
  split
  · unfold fieldStart
    rw [show getField (modDom (modField s f _) f _) k = getField (modField s f _) k from rfl, getField_modField_ne _ _ h]
  · rfl

/-- Domain d is trusted again (R470). -/
def trusted (d : Nat) (s : State) : State :=
  let t := modDom s d (fun x => { x with suspect := false })
  if d < 64 then modField t d (fun x => { x with breachN := 0, clearN := 0, suspectN := 0 }) else t

theorem getDom_trusted (d : Nat) (s : State) : getDom (trusted d s) d = { getDom s d with suspect := false } := by
  have h : getDom (trusted d s) d = getDom (modDom s d (fun x => { x with suspect := false })) d := by
    unfold trusted
    simp only
    split <;> rfl
  rw [h, getDom_modDom]

theorem getField_trusted {d : Nat} (s : State) (h : d < 64) :
    getField (trusted d s) d = { getField s d with breachN := 0, clearN := 0, suspectN := 0 } := by
  unfold trusted
  simp only [if_pos h, getField_modField]
  rfl

/-- Both saves are erased (R486). -/
def savesCleared (s : State) : State :=
  modPower s (fun w => { w with save0 := none, save1 := none, brnSaved := false, brnIncomplete := false, brnCause := 0, brnSlot := false, brnTick := 0 })

theorem exec_brnRead {s : State} {q : Nat} {b : Bool} {x : Save} (ht : Taken s q 0x24) (hb : s.power.brnSaved = true)
    (hx : newestSave s.power = some (b, x)) :
    exec (.brnRead q) s = .next (copyCmd q (headCmd s q) (savePart s.sec.dik x (bitsOf (headCmd s q).a0.toNat 2 0)) (takeCmd q s)) := by
  have h : execBrnRead q s = _ := hostCmd_of_taken ht
  have hb : (takeCmd q s).power.brnSaved = true := hb
  have hx : newestSave (takeCmd q s).power = some (b, x) := hx
  simp only [hb, if_true, hx] at h
  exact h

theorem writePwrCap_of_legal {v : W64} (s : State) (h : 80 ≤ bitsOf v.toNat 8 0) (h' : bitsOf v.toNat 8 0 ≤ 360) :
    writePwrCap v s = (stOk, modPower s (fun w => { w with cap := v.truncate 9 })) := by
  have hv : BitVec.ofNat 9 (bitsOf v.toNat 8 0) = v.truncate 9 := BitVec.eq_of_toNat_eq (by simp [bitsOf])
  unfold writePwrCap
  simp only [hv]
  exact if_neg (by simp [Nat.not_lt.mpr h, Nat.not_lt.mpr h'])

/-- Settles O55: each command by the tests that admit it and what it writes. -/
theorem powerCommandsRun : Obligations.PowerCommandsRun := by
  intro s q c t d f p on agree
  refine ⟨fun ht hd hc => ⟨fun df ho hst => ?isOn, fun df ho hst => ?isOff, fun df ho hst ha => ?turnOn, fun df ho hst h1 hm ha => ?turnOff⟩,
    fun ht hv => ?ceil, fun ht hst hs hn hp => ?hint, fun ht hd => ?trust, fun ht hb b x hx hs => ?saveRead, fun ht hc => ?saveClear,
    fun h v hl hu => ?cap⟩
  case isOn => exact exec_pwrDomain_asIs ht hd hc (.inl ⟨ho, hst⟩)
  case isOff => exact exec_pwrDomain_asIs ht hd hc (.inr ⟨ho, hst⟩)
  case turnOn => exact ⟨_, exec_pwrDomain_on ht hd hc ho hst ha, getDom_domainOn hd, fun hf => getField_domainOn hf⟩
  case turnOff =>
    exact ⟨domainOff d t, exec_pwrDomain_off ht hd hc ho hst h1 hm ha, fun hf => getField_domainOff t hf, fun hf => getDom_domainOff hf,
      fun hl hu => stackBits_domainOff t hl hu⟩
  case ceil =>
    refine ⟨ceilReturn f (modField t f (fun x => { x with ceil := bitsOf c.a1.toNat 2 0 })), ?_, ?_, fun g hg => ?_⟩
    · show execPwrCeil q s = _
      exact next_of_pass ht (if_neg (Nat.not_lt.mpr hv))
    · rw [getField_ceilReturn_self, getField_modField]
    · rw [getField_ceilReturn_ne _ hg, getField_modField_ne _ _ hg]
      rfl
  case hint =>
    show execPwrHint q s = _
    refine next_of_pass ht ((if_neg ?_).trans (if_neg ?_))
    · show ¬((!([1, 2, 3].contains (getPolder s p).state) || decide (c.a2.toNat ≤ s.tick.count.toNat)) = true)
      rcases hst with h | h | h <;> simp [h, Nat.not_le.mpr hs]
    · show ¬((decide (bitsOf c.a3.toNat 15 0 = 0) || !polderIn s p f) = true)
      simp [hn, hp]
  case trust =>
    refine ⟨trusted d t, ?_, getDom_trusted .., fun hf => getField_trusted t hf⟩
    show execPwrTrust q s = _
    exact next_of_pass ht (if_neg (Nat.not_lt.mpr hd))
  case saveRead => rw [exec_brnRead ht hb hx, copyCmd_of_fits hs]
  case saveClear =>
    refine ⟨savesCleared t, ?_, rfl, rfl, rfl, rfl, rfl⟩
    show execBrnClear q s = _
    refine next_of_pass ht (if_neg ?_)
    show ¬(s.ctxs.any (fun e => e.2.state == 5 && e.2.shRec.reason == 1) = true)
    rw [List.any_eq_true]
    rintro ⟨e, he, h⟩
    simp only [Bool.and_eq_true, beq_iff_eq] at h
    exact (hc e he).elim (· h.1) (· h.2)
  case cap =>
    show regDone h (writePwrCap v s) = _
    rw [writePwrCap_of_legal s hl hu]
    rfl

end Sys2Proof.Proofs
end

section
/-! PROOFS. The shelf of a state: what boot and power keep, the fields, the polders and the tick generator. The operations of the command queues, the mesh,
the units, the span and the links leave it alone. -/

namespace Sys2Proof.Proofs

open Sys2Proof Sys2Proof.Machine

/-- What the shelf of a state is made of. -/
structure Shelf where
  boot : Boot
  power : Power
  fields : Map Field
  polders : Map Polder
  tick : Tick

/-- The shelf of a state. -/
def shelf (s : State) : Shelf := ⟨s.boot, s.power, s.fields, s.polders, s.tick⟩

/-- An update of any other part leaves the shelf. -/
@[simp] theorem shelf_upd (s : State) (pending dram ilv sec free now tlbBusy stackBits epoch crossings ctxs seeds cores sfus mus
    switches routers mifs flights mcRows mgcGroups objs badGranules mecs ses ring conf host span dbg) :
    shelf { s with pending := pending, dram := dram, ilv := ilv, sec := sec, free := free, now := now, tlbBusy := tlbBusy,
                   stackBits := stackBits, epoch := epoch, crossings := crossings, ctxs := ctxs, seeds := seeds, cores := cores,
                   sfus := sfus, mus := mus, switches := switches, routers := routers, mifs := mifs, flights := flights,
                   mcRows := mcRows, mgcGroups := mgcGroups, objs := objs, badGranules := badGranules, mecs := mecs, ses := ses,
                   ring := ring, conf := conf, host := host, span := span, dbg := dbg } = shelf s := rfl

@[simp] theorem shelf_ite (c : Prop) [Decidable c] (a b : State) : shelf (if c then a else b) = if c then shelf a else shelf b := by
  split <;> rfl

theorem shelf_foldl {α : Type} (l : List α) (f : State → α → State) (s : State) (h : ∀ a t, shelf (f t a) = shelf t) :
    shelf (l.foldl f s) = shelf s := by
  induction l generalizing s with
  | nil => rfl
  | cons a l ih => rw [List.foldl_cons, ih, h]

@[simp] theorem shelf_forEach {α : Type} (l : List α) (f : α → State → State) (s : State) (h : ∀ a t, shelf (f a t) = shelf t) :
    shelf (forEach l f s) = shelf s := shelf_foldl l _ s h

@[simp] theorem shelf_setCore (s : State) (u : Nat) (c : Core) : shelf (setCore s u c) = shelf s := (rfl)

@[simp] theorem shelf_setSfu (s : State) (u : Nat) (c : Sfu) : shelf (setSfu s u c) = shelf s := (rfl)

@[simp] theorem shelf_setMu (s : State) (u : Nat) (m : Mu) : shelf (setMu s u m) = shelf s := (rfl)

@[simp] theorem shelf_setSw (s : State) (u : Nat) (w : Switch) : shelf (setSw s u w) = shelf s := (rfl)

@[simp] theorem shelf_setRouter (s : State) (u : Nat) (r : Router) : shelf (setRouter s u r) = shelf s := (rfl)

@[simp] theorem shelf_setMif (s : State) (u : Nat) (m : MeshIf) : shelf (setMif s u m) = shelf s := (rfl)

@[simp] theorem shelf_setCtx (s : State) (c : Nat) (x : Ctx) : shelf (setCtx s c x) = shelf s := (rfl)

@[simp] theorem shelf_setMec (s : State) (n : Nat) (x : Mec) : shelf (setMec s n x) = shelf s := (rfl)

@[simp] theorem shelf_setSe (s : State) (e : Nat) (x : Se) : shelf (setSe s e x) = shelf s := (rfl)

@[simp] theorem shelf_setQ (s : State) (q : Nat) (x : CmdQ) : shelf (setQ s q x) = shelf s := (rfl)

@[simp] theorem shelf_setMbx (s : State) (n : Nat) (x : Mbx) : shelf (setMbx s n x) = shelf s := (rfl)

@[simp] theorem shelf_setPort (s : State) (p : Nat) (x : NPort) : shelf (setPort s p x) = shelf s := by
  unfold setPort
  split <;> rfl

@[simp] theorem shelf_setSpan (s : State) (p : Nat) (x : SpanPort) : shelf (setSpan s p x) = shelf s := (rfl)

@[simp] theorem shelf_modCore (s : State) (u : Nat) (f : Core → Core) : shelf (modCore s u f) = shelf s := (rfl)

@[simp] theorem shelf_modSfu (s : State) (u : Nat) (f : Sfu → Sfu) : shelf (modSfu s u f) = shelf s := (rfl)

@[simp] theorem shelf_modMu (s : State) (u : Nat) (f : Mu → Mu) : shelf (modMu s u f) = shelf s := (rfl)

@[simp] theorem shelf_modSw (s : State) (u : Nat) (f : Switch → Switch) : shelf (modSw s u f) = shelf s := (rfl)

@[simp] theorem shelf_modRouter (s : State) (u : Nat) (f : Router → Router) : shelf (modRouter s u f) = shelf s := (rfl)

@[simp] theorem shelf_modMif (s : State) (u : Nat) (f : MeshIf → MeshIf) : shelf (modMif s u f) = shelf s := (rfl)

@[simp] theorem shelf_modCtx (s : State) (c : Nat) (f : Ctx → Ctx) : shelf (modCtx s c f) = shelf s := (rfl)

@[simp] theorem shelf_modMec (s : State) (n : Nat) (f : Mec → Mec) : shelf (modMec s n f) = shelf s := (rfl)

@[simp] theorem shelf_modSe (s : State) (e : Nat) (f : Se → Se) : shelf (modSe s e f) = shelf s := (rfl)

@[simp] theorem shelf_modPort (s : State) (p : Nat) (f : NPort → NPort) : shelf (modPort s p f) = shelf s :=
  shelf_setPort _ _ _

@[simp] theorem shelf_modSpan (s : State) (p : Nat) (f : SpanPort → SpanPort) : shelf (modSpan s p f) = shelf s := (rfl)

@[simp] theorem shelf_modSec (s : State) (f : Sec → Sec) : shelf (modSec s f) = shelf s := (rfl)

@[simp] theorem shelf_modConf (s : State) (f : Conf → Conf) : shelf (modConf s f) = shelf s := (rfl)

@[simp] theorem shelf_modHost (s : State) (f : HostIf → HostIf) : shelf (modHost s f) = shelf s := (rfl)

@[simp] theorem shelf_raise (code : Nat) (polder ctx unit : Option Nat) (arg : Nat) (s : State) : shelf (raise code polder ctx unit arg s) = shelf s := by
  unfold raise
  simp

@[simp] theorem shelf_eventsByCode (s0 s : State) : shelf (eventsByCode s0 s) = shelf s := by
  unfold eventsByCode
  simp

@[simp] theorem shelf_finishOne (q status result : Nat) (s : State) :
    shelf (finishOne q status result s) = shelf s := by
  unfold finishOne
  dsimp only
  repeat' split
  all_goals simp

@[simp] theorem shelf_takeCmd (q : Nat) (s : State) : shelf (takeCmd q s) = shelf s := by
  unfold takeCmd
  simp

@[simp] theorem shelf_skipReserved (n q : Nat) (s : State) : shelf (skipReserved n q s) = shelf s := by
  induction n generalizing s with
  | zero => rfl
  | succ n ih =>
    unfold skipReserved
    dsimp only
    split <;> simp [ih]

@[simp] theorem shelf_finish (q status result : Nat) (s : State) : shelf (finish q status result s) = shelf s := by
  unfold finish
  simp

@[simp] theorem shelf_refuseAt (q : Nat) (p : Option Nat) (code off : Nat) (unit : Option Nat) (s : State) : shelf (refuseAt q p code off unit s) = shelf s := by
  unfold refuseAt
  simp

@[simp] theorem shelf_trEvent (typ : Nat) (ctxs : List (Nat × List Byte)) (s : State) : shelf (trEvent typ ctxs s) = shelf s := by
  unfold trEvent
  simp

@[simp] theorem shelf_lostEvent (f : Frame) (cause : Nat) (s : State) : shelf (lostEvent f cause s) = shelf s := by
  unfold lostEvent
  simp

@[simp] theorem shelf_weightsEvent (p : Nat) (digest : W512) (unmeasured : Bool) (s : State) : shelf (weightsEvent p digest unmeasured s) = shelf s := by
  unfold weightsEvent
  simp

@[simp] theorem shelf_loseFrame (f : Frame) (s : State) : shelf (loseFrame f s) = shelf s := by
  unfold loseFrame
  simp

@[simp] theorem shelf_injectAt (u : Nat) (p : Packet) (s : State) : shelf (injectAt u p s) = shelf s := by
  unfold injectAt
  simp

@[simp] theorem shelf_inject (p : Packet) (s : State) : shelf (inject p s) = shelf s := by
  unfold inject
  simp

@[simp] theorem shelf_send (p : Packet) (s : State) : shelf (send p s) = shelf s := by
  unfold send
  simp

@[simp] theorem shelf_request (u : Nat) (p : Packet) (use : Use) (s : State) : shelf (request u p use s) = shelf s := by
  unfold request
  simp

@[simp] theorem shelf_requestOnly (u : Nat) (p : Packet) (s : State) : shelf (requestOnly u p s) = shelf s := by
  unfold requestOnly
  simp

@[simp] theorem shelf_abandon (u : Nat) (s : State) : shelf (abandon u s) = shelf s := by
  unfold abandon
  simp

@[simp] theorem shelf_takeFree (s : State) : shelf (takeFree s).2 = shelf s := (rfl)

@[simp] theorem shelf_routeRefuse (q : Nat) (s : State) : shelf (routeRefuse q s) = shelf s := by
  unfold routeRefuse
  simp

@[simp] theorem shelf_buildUndone (s : State) : shelf (buildUndone s) = shelf s := by
  unfold buildUndone
  simp

@[simp] theorem shelf_bankRefused (s : State) :
    shelf (bankRefused s) = shelf s := by
  unfold bankRefused
  dsimp only
  repeat' split
  all_goals simp

@[simp] theorem shelf_armEpoch (s : State) : shelf (armEpoch s) = shelf s := by
  unfold armEpoch
  simp

@[simp] theorem shelf_armDown (s : State) : shelf (armDown s) = shelf s := by
  unfold armDown
  simp

@[simp] theorem shelf_endNoted (net : Net) (u : Nat) (d : Dir) (s : State) : shelf (endNoted net u d s) = shelf s := by
  unfold endNoted
  simp

@[simp] theorem shelf_crossingsFail (f : Nat) (s : State) : shelf (crossingsFail f s) = shelf s := by
  unfold crossingsFail
  refine shelf_forEach _ _ _ (fun d t => ?_)
  dsimp only
  split
  · rfl
  · split
    · rfl
    · refine shelf_forEach _ _ _ (fun i v => ?_)
      split <;> simp

@[simp] theorem shelf_objsLost (f : Nat) (s : State) : shelf (objsLost f s) = shelf s := by
  unfold objsLost
  simp

@[simp] theorem shelf_dramWrite (n a : Nat) (ws : List W64) (s : State) : shelf (dramWrite n a ws s) = shelf s := (rfl)

@[simp] theorem shelf_pageFault (n ctx va : Nat) (r : PfReason) (s : State) : shelf (pageFault n ctx va r s) = shelf s := by
  unfold pageFault
  simp

theorem shelf_wbackAddr (s : State) (p a : Nat) (paged : Bool) (ctx : Nat) : shelf (wbackAddr s p a paged ctx).2 = shelf s := by
  unfold wbackAddr
  extract_lets n m pte at_
  cases at_ with
  | error r => simp
  | ok pa =>
    dsimp only
    split
    · rfl
    · split <;> rfl

/-- Looking up where a line is written back leaves the shelf. -/
theorem shelf_of_wbackAddr {s t : State} {p a ctx : Nat} {paged : Bool} {o : Option Nat} (h : wbackAddr s p a paged ctx = (o, t)) :
    shelf t = shelf s := by
  have hw := shelf_wbackAddr s p a paged ctx
  rw [h] at hw
  exact hw

@[simp] theorem shelf_seHalt (p : Nat) (s : State) : shelf (seHalt p s) = shelf s := by
  unfold seHalt
  simp

@[simp] theorem shelf_spFlag (p i : Nat) (s : State) : shelf (spFlag p i s) = shelf s := by
  unfold spFlag
  simp

@[simp] theorem shelf_modSpanCfg (s : State) (f : Span → Span) : shelf (modSpanCfg s f) = shelf s := (rfl)

@[simp] theorem shelf_spanSend (q : Nat) (k : SpanPkt) (s : State) : shelf (spanSend q k s) = shelf s := by
  unfold spanSend
  simp

@[simp] theorem shelf_ringPut (p c : Nat) (k : SpanPkt) (s : State) : shelf (ringPut p c k s) = shelf s := by
  unfold ringPut
  simp

@[simp] theorem shelf_spanOn (p c : Nat) (fell : Bool) (k : SpanPkt) (s : State) : shelf (spanOn p c fell k s) = shelf s := by
  unfold spanOn
  simp

@[simp] theorem shelf_spanLost (p : Nat) (s : State) : shelf (spanLost p s) = shelf s := by
  unfold spanLost
  simp

@[simp] theorem shelf_spanReplyHere (k : SpanPkt) (s : State) :
    shelf (spanReplyHere k s) = shelf s := by
  unfold spanReplyHere
  dsimp only
  repeat' split
  all_goals simp

@[simp] theorem shelf_spanReply (p : Nat) (k : SpanPkt) (s : State) : shelf (spanReply p k s) = shelf s := by
  unfold spanReply
  simp

@[simp] theorem shelf_spanNack (p code : Nat) (ingress : Bool) (k : SpanPkt) (s : State) : shelf (spanNack p code ingress k s) = shelf s := by
  unfold spanNack
  simp

@[simp] theorem shelf_spanInject (p : Nat) (k : SpanPkt) (s : State) : shelf (spanInject p k s) = shelf s := by
  unfold spanInject
  simp

@[simp] theorem shelf_spanIngress (p : Nat) (k : SpanPkt) (s : State) : shelf (spanIngress p k s) = shelf s := by
  unfold spanIngress
  simp

@[simp] theorem shelf_spanRoute (p : Nat) (k : SpanPkt) (s : State) : shelf (spanRoute p k s) = shelf s := by
  unfold spanRoute
  simp

@[simp] theorem shelf_fallBack (t : Nat → Bool) (s : State) : shelf (fallBack t s) = shelf s := by
  unfold fallBack
  simp

@[simp] theorem shelf_sendReach (but hops m : Nat) (s : State) : shelf (sendReach but hops m s) = shelf s := by
  unfold sendReach
  simp

@[simp] theorem shelf_spanLinkDown (p : Nat) (s : State) : shelf (spanLinkDown p s) = shelf s := by
  unfold spanLinkDown
  simp

@[simp] theorem shelf_spanOff (ports : List Nat) (s : State) : shelf (spanOff ports s) = shelf s := by
  unfold spanOff
  simp

@[simp] theorem shelf_spanClear (s : State) : shelf (spanClear s) = shelf s := by
  unfold spanClear
  simp

@[simp] theorem shelf_lostFrames (p : Nat) (s : State) : shelf (lostFrames p s) = shelf s := by
  unfold lostFrames
  simp

@[simp] theorem shelf_loseAccesses (s : State) : shelf (loseAccesses s) = shelf s := by
  unfold loseAccesses
  simp

@[simp] theorem shelf_lineLost (u : Nat) (s : State) : shelf (lineLost u s) = shelf s := by
  unfold lineLost
  simp

@[simp] theorem shelf_dropInjected (u : Nat) (s : State) : shelf (dropInjected u s) = shelf s := by
  unfold dropInjected
  simp

@[simp] theorem shelf_unitActivate (pmode : W32) (u : Nat) (x : UnitCfg) (s : State) :
    shelf (unitActivate pmode u x s) = shelf s := by
  unfold unitActivate
  repeat' split
  all_goals simp

@[simp] theorem shelf_unitHalt (u : Nat) (s : State) : shelf (unitHalt u s) = shelf s := by
  unfold unitHalt
  simp

@[simp] theorem shelf_lineOut (u p k : Nat) (l : Line) (s : State) : shelf (lineOut u p k l s) = shelf s := by
  unfold lineOut
  extract_lets
  split
  · rename_i h
    simp [shelf_of_wbackAddr h]
  · rename_i h
    simp [shelf_of_wbackAddr h]

@[simp] theorem shelf_portOut (u p : Nat) (s : State) : shelf (portOut u p s) = shelf s := by
  unfold portOut
  refine shelf_forEach _ _ _ (fun f t => ?_)
  dsimp only
  split
  · rename_i h
    simp [shelf_of_wbackAddr h]
  · rename_i h
    simp [shelf_of_wbackAddr h]

@[simp] theorem shelf_unitOut (u : Nat) (s : State) : shelf (unitOut u s) = shelf s := by
  unfold unitOut
  split
  · rfl
  split
  · simp
  · rfl

@[simp] theorem shelf_keepDramErr (old : State) (u : Nat) (s : State) : shelf (keepDramErr old u s) = shelf s := by
  unfold keepDramErr
  simp

@[simp] theorem shelf_holdCycle (u : Nat) (s : State) : shelf (holdCycle u s) = shelf s := by
  unfold holdCycle
  simp

@[simp] theorem shelf_haltUnits (p : Nat) (s : State) : shelf (haltUnits p s) = shelf s := by
  unfold haltUnits
  simp

@[simp] theorem shelf_finishWhere (t : Cmd → Bool) (status : Nat) (s : State) : shelf (finishWhere t status s) = shelf s := by
  unfold finishWhere
  refine shelf_forEach _ _ _ (fun q w => ?_)
  split
  · split <;> simp
  · rfl

@[simp] theorem shelf_archiveTrim (s : State) : shelf (archiveTrim s) = shelf s := by
  unfold archiveTrim
  simp

@[simp] theorem shelf_putCrossing (k : Nat) (m : Crossing) (retime : Bool) (s : State) : shelf (putCrossing k m retime s) = shelf s := by
  unfold putCrossing
  simp

@[simp] theorem shelf_recross (f : Nat) (s : State) : shelf (recross f s) = shelf s := by
  unfold recross
  simp

@[simp] theorem shelf_mbxClear (n : Nat) (s : State) : shelf (mbxClear n s) = shelf s := by
  unfold mbxClear
  simp

@[simp] theorem shelf_dropFlights (f : Nat) (s : State) : shelf (dropFlights f s) = shelf s := by
  unfold dropFlights
  simp

@[simp] theorem shelf_unitsOff (f : Nat) (s : State) : shelf (unitsOff f s) = shelf s := by
  unfold unitsOff
  simp

@[simp] theorem shelf_copyOut (k a : Nat) (ws : List W64) (s : State) : shelf (copyOut k a ws s) = shelf s := by
  induction k generalizing a ws s with
  | zero => rfl
  | succ k ih =>
    unfold copyOut
    dsimp only
    split
    · rfl
    · simp [ih]

@[simp] theorem shelf_copyBytes (a : Nat) (bs : List Byte) (s : State) : shelf (copyBytes a bs s) = shelf s := by
  unfold copyBytes
  simp

@[simp] theorem shelf_journal (c : Nat) (e : List Byte) (s : State) :
    shelf (journal c e s) = shelf s := by
  unfold journal
  dsimp only
  repeat' split
  all_goals simp

@[simp] theorem shelf_applyEntry (c typ : Nat) (tick : W64) (body : List Byte) (s : State) : shelf (applyEntry c typ tick body s) = shelf s := by
  unfold applyEntry
  simp

@[simp] theorem shelf_restorePolder (f p : Nat) (s : State) :
    shelf (restorePolder f p s) = shelf s := by
  unfold restorePolder
  repeat' split
  all_goals simp

@[simp] theorem shelf_drainEntries (s : State) : shelf (drainEntries s) = shelf s := by
  unfold drainEntries
  refine (shelf_foldl _ _ _ (fun ev t => ?_)).trans rfl
  exact shelf_foldl _ _ _ (fun e w => shelf_applyEntry _ _ _ _ _)

@[simp] theorem shelf_markContexts (typ : Nat) (b : Byte) (s : State) : shelf (markContexts typ b s) = shelf s := by
  unfold markContexts
  simp

end Sys2Proof.Proofs
end

section
/-! PROOFS. What halts, overruns, lost frames and the loss of a field's waiters leave of boot, power, the tick generator and the fields: all but the power
hints, and of a field all but what is pre-positioned, its probes, its waiters and what its controller holds. -/

namespace Sys2Proof.Proofs

open Sys2Proof Sys2Proof.Machine

/-- A field without what is pre-positioned for it, its probes, its waiters and its controller's memory and firmware. -/
def fieldCore (x : Field) : Field := { x with prepos := [], probes := [], waiters := [], fcSram := [], firmware := none }

section
variable {x y : Field} (h : fieldCore x = fieldCore y)
include h
theorem up_of_core : x.up = y.up := (congrArg Field.up h :)
theorem step_of_core : x.step = y.step := (congrArg Field.step h :)
theorem starting_of_core : x.starting = y.starting := (congrArg Field.starting h :)
theorem draining_of_core : x.draining = y.draining := (congrArg Field.draining h :)
theorem why_of_core : x.why = y.why := (congrArg Field.why h :)
theorem supply_of_core : x.supply = y.supply := (congrArg Field.supply h :)
end

/-- What the steady part of a state is made of. -/
structure Steady where
  boot : Boot
  power : Power
  fields : Nat → Field
  tick : Tick

/-- The steady part of a state. -/
def steady (s : State) : Steady := ⟨s.boot, { s.power with hints := [] }, fun f => fieldCore (getField s f), s.tick⟩

theorem steady_of_shelf {s t : State} (h : shelf t = shelf s) : steady t = steady s := by
  have hb : t.boot = s.boot := congrArg Shelf.boot h
  have hp : t.power = s.power := congrArg Shelf.power h
  have hf : t.fields = s.fields := congrArg Shelf.fields h
  have ht : t.tick = s.tick := congrArg Shelf.tick h
  unfold steady getField
  rw [hb, hp, hf, ht]

theorem steady_ite (c : Prop) [Decidable c] (a b : State) : steady (if c then a else b) = if c then steady a else steady b := by
  split <;> rfl

@[simp] theorem steady_forEach {α : Type} (l : List α) (f : α → State → State) (s : State) (h : ∀ a t, steady (f a t) = steady t) :
    steady (forEach l f s) = steady s := by
  unfold forEach
  induction l generalizing s with
  | nil => rfl
  | cons a l ih => rw [List.foldl_cons, ih, h]

/-- A change of the fields that leaves the core of each one. -/
theorem steady_fields (s : State) (g : Nat × Field → Field) (h : ∀ e, fieldCore (g e) = fieldCore e.2) :
    steady { s with fields := s.fields.map (fun e => (e.1, g e)) } = steady s := by
  have hm : ∀ (m : Map Field) (f : Nat), fieldCore (mget {} (m.map (fun e => (e.1, g e))) f) = fieldCore (mget {} m f) := by
    intro m f
    induction m with
    | nil => rfl
    | cons e m ih =>
      rw [List.map_cons, mget, mget]
      split
      · exact h e
      · exact ih
  exact congrArg (fun f => Steady.mk _ _ f s.tick) (funext (hm s.fields))

@[simp] theorem steady_setPolder (s : State) (p : Nat) (x : Polder) : steady (setPolder s p x) = steady s := (rfl)
@[simp] theorem steady_modPolder (s : State) (p : Nat) (f : Polder → Polder) : steady (modPolder s p f) = steady s := (rfl)
@[simp] theorem steady_hintSpent (p t : Nat) (s : State) : steady (hintSpent p t s) = steady s := (rfl)

@[simp] theorem steady_raise (code : Nat) (polder ctx unit : Option Nat) (arg : Nat) (s : State) :
    steady (raise code polder ctx unit arg s) = steady s := steady_of_shelf (shelf_raise ..)

@[simp] theorem steady_modCtx (s : State) (c : Nat) (f : Ctx → Ctx) : steady (modCtx s c f) = steady s := (rfl)

@[simp] theorem steady_preposEnd (p n : Nat) (s : State) : steady (preposEnd p n s) = steady s :=
  steady_fields s _ (fun _ => rfl)

@[simp] theorem steady_probesDrop (p : Nat) (s : State) : steady (probesDrop p s) = steady s :=
  steady_fields s _ (fun _ => rfl)

@[simp] theorem steady_dropWaiters (t : Nat → Waiter → Bool) (s : State) : steady (dropWaiters t s) = steady s :=
  steady_fields s _ (fun _ => rfl)

@[simp] theorem steady_loseFrame (f : Frame) (s : State) : steady (loseFrame f s) = steady s := steady_of_shelf (shelf_loseFrame ..)

@[simp] theorem steady_finishWhere (t : Cmd → Bool) (status : Nat) (s : State) : steady (finishWhere t status s) = steady s :=
  steady_of_shelf (shelf_finishWhere ..)

@[simp] theorem steady_dropAwait (p : Nat) (s : State) : steady (dropAwait p s) = steady s := by
  unfold dropAwait
  split
  · simp [steady_ite]
  · rfl

@[simp] theorem steady_dikewatchDone (p : Nat) (s : State) : steady (dikewatchDone p s) = steady s := by
  unfold dikewatchDone
  dsimp only
  split
  · simp [steady_ite]
  · rfl

@[simp] theorem steady_overrunOf (p cause : Nat) (f : Frame) (s : State) : steady (overrunOf p cause f s) = steady s := by
  unfold overrunOf
  simp [steady_ite]

@[simp] theorem steady_overrun (p cause : Nat) (s : State) : steady (overrun p cause s) = steady s := by
  unfold overrun
  split <;> simp

@[simp] theorem steady_overrunDue (p : Nat) (s : State) : steady (overrunDue p s) = steady s := by
  unfold overrunDue
  simp [steady_ite]

@[simp] theorem steady_frameDue (p : Nat) (s : State) : steady (frameDue p s) = steady s := by
  unfold frameDue
  dsimp only
  split <;> simp [steady_ite]

@[simp] theorem steady_haltedWith (p cause : Nat) (s : State) : steady (haltedWith p cause s) = steady s := by
  unfold haltedWith
  simp

@[simp] theorem steady_haltAbrupt (p cause : Nat) (s : State) : steady (haltAbrupt p cause s) = steady s := by
  have hu : steady (haltUnits p s) = steady s := steady_of_shelf (shelf_haltUnits ..)
  unfold haltAbrupt
  simp [steady_ite, hu]

@[simp] theorem steady_haltAll (cause : Nat) (s : State) : steady (haltAll cause s) = steady s := by
  unfold haltAll
  simp

@[simp] theorem steady_fieldWaiters (f : Nat) (s : State) : steady (fieldWaiters f s) = steady s := by
  have hp : ∀ (e : Nat × Waiter) (t : State), steady (place .rpl (.arrived e.2.src) (waiterReply e.1 opNack nkReset e.2) t) = steady t :=
    fun _ _ => rfl
  unfold fieldWaiters refuseNow
  dsimp only
  rw [steady_forEach _ _ _ hp, steady_dropWaiters, steady_dropWaiters]

@[simp] theorem steady_dropFaults (f : Nat) (s : State) :
    steady (dropFaults f s) = { steady s with boot := (dropFaults f s).boot } := by
  have hx : ∀ (l : List FaultRec) (t : State), steady (forEach l (fun x s => match ownerOf s x.unit with
      | some p => dropAwait p (dikewatchDone p s) | none => s) t) = steady t := by
    intro l t
    refine steady_forEach _ _ _ (fun x w => ?_)
    split <;> simp
  exact congrArg (fun k : Steady => { k with boot := (dropFaults f s).boot }) (hx _ s)

@[simp] theorem steady_confDropped (p : Nat) (s : State) : steady (confDropped p s) = steady s := by
  have hl : ∀ c t, steady (loadUndone c t) = steady t := by
    intro c t
    refine steady_of_shelf ?_
    unfold loadUndone
    simp
  have ha : ∀ t, steady (archiveTrim t) = steady t := fun t => steady_of_shelf (shelf_archiveTrim t)
  unfold confDropped
  split
  · rfl
  · dsimp only
    rw [ha, steady_modPolder]
    split
    · exact hl _ _
    · rfl

@[simp] theorem steady_confAbort (p status : Nat) (s : State) : steady (confAbort p status s) = steady s :=
  (steady_of_shelf (shelf_finish ..)).trans (steady_confDropped p s)

@[simp] theorem steady_configDown (f : Nat) (s : State) : steady (configDown f s) = steady s := by
  unfold configDown
  dsimp only
  split
  · simp [steady_ite]
  · rfl

/-! ## Changes of fields and power domains -/

/-- Fields with one changed. -/
def fieldPut (f : Nat) (g : Field → Field) (k : Steady) : Steady :=
  { k with fields := fun j => if j = f then fieldCore (g (k.fields f)) else k.fields j }

/-- A change of a field that looks at its core alone. -/
theorem steady_modField (s : State) (f : Nat) {g : Field → Field} (hg : ∀ x, fieldCore (g x) = fieldCore (g (fieldCore x))) :
    steady (modField s f g) = fieldPut f g (steady s) := by
  refine congrArg (fun k => Steady.mk _ _ k s.tick) (funext (fun j => ?_))
  by_cases hj : j = f
  · subst hj
    exact (congrArg fieldCore (getField_modField ..)).trans ((hg _).trans (if_pos rfl).symm)
  · exact (congrArg fieldCore (getField_modField_ne _ _ hj)).trans (if_neg hj).symm

/-- A change of a field that leaves its core. -/
theorem steady_modField_of_core (s : State) (f : Nat) {g : Field → Field} (hg : ∀ x, fieldCore (g x) = fieldCore x) :
    steady (modField s f g) = steady s := by
  refine congrArg (fun k => Steady.mk _ _ k s.tick) (funext (fun j => ?_))
  by_cases hj : j = f
  · subst hj
    rw [getField_modField, hg]
  · rw [getField_modField_ne _ _ hj]

/-- Power domains with one changed. -/
def domPut (d : Nat) (g : Dom → Dom) (k : Steady) : Steady :=
  { k with power := { k.power with doms := mput k.power.doms d (g (mget {} k.power.doms d)) } }

@[simp] theorem steady_modDom (s : State) (d : Nat) (g : Dom → Dom) : steady (modDom s d g) = domPut d g (steady s) := (rfl)

theorem core_getField (s : State) (f : Nat) : fieldCore (getField s f) = (steady s).fields f := (rfl)

theorem getDom_of_steady (s : State) (d : Nat) : getDom s d = mget {} (steady s).power.doms d := (rfl)

/-! ## A field loses its supply, goes down, comes up -/

/-- What a field keeps whose logic has lost its supply. -/
def unpowered (x : Field) : Field := { x with waiters := [], probes := [], fcSram := [], seeds := [], firmware := none, setPoint := 0, supply := 0 }

/-- A field that is down. -/
def downed (x : Field) : Field :=
  { x with step := 4, up := false, draining := false, starting := false, change := none, prepos := [], resetPhase := 0, dark := false,
           held := false }

theorem steady_fieldPowerLost (f : Nat) (s : State) : steady (fieldPowerLost f s) = fieldPut f unpowered (steady s) := by
  have h : shelf (fieldPowerLost f s) = shelf (modField s f unpowered) := by
    unfold fieldPowerLost
    rw [shelf_unitsOff, shelf_mbxClear, shelf_dropFlights]
    rfl
  rw [steady_of_shelf h, steady_modField _ _ (fun _ => rfl)]

theorem steady_fieldGone (f : Nat) (s : State) :
    steady (fieldGone f s) =
      fieldPut f unpowered (domPut f (fun d => { d with st := 0 }) (fieldPut f downed { steady s with boot := (dropFaults f (fieldWaiters f s)).boot })) := by
  unfold fieldGone
  dsimp only
  rw [steady_of_shelf (shelf_armDown _), steady_fieldPowerLost, steady_configDown, steady_of_shelf (shelf_crossingsFail _ _),
    steady_of_shelf (shelf_recross _ _), steady_modDom]
  have hg : ∀ t, steady (modField t f downed) = fieldPut f downed (steady t) := fun t => steady_modField t f (fun _ => rfl)
  exact congrArg (fun k => fieldPut f unpowered (domPut f _ k)) ((hg _).trans (by rw [steady_finishWhere, steady_dropFaults, steady_fieldWaiters]))

theorem steady_fcMulticast (g a : Nat) (ws : List W64) (s : State) : steady (fcMulticast g a ws s) = steady s :=
  steady_forEach _ _ _ (fun _ _ => steady_modField_of_core _ _ (fun _ => rfl))

theorem steady_fcStart (f : Nat) (s : State) : steady (fcStart f s) = steady s := steady_modField_of_core _ _ (fun _ => rfl)

@[simp] theorem steady_fcLoad (x0 x1 : Nat) (s : State) : steady (fcLoad x0 x1 s) = steady s :=
  (steady_forEach _ _ _ steady_fcStart).trans ((steady_fcMulticast _ _ _ _).trans rfl)

/-! ## A field comes up -/

@[simp] theorem steady_weightsInvalid (p : Nat) (s : State) : steady (weightsInvalid p s) = steady s := by
  unfold weightsInvalid
  dsimp only
  split
  · rw [steady_of_shelf (shelf_weightsEvent ..), steady_raise, steady_setPolder]
  · rfl

@[simp] theorem steady_archiveTrim (s : State) : steady (archiveTrim s) = steady s := steady_of_shelf (shelf_archiveTrim s)

theorem steady_slotsLost (f : Nat) (s : State) : steady (slotsLost f s) = steady s := by
  unfold slotsLost
  simp

/-- Rows that are fenced change the fault map and its flags alone. -/
theorem steady_modBoot (s : State) (g : Boot → Boot) : steady (modBoot s g) = { steady s with boot := g s.boot } := (rfl)

theorem steady_mapChange (s : State) (g : FaultMap → FaultMap) : steady (mapChange g s) = { steady s with boot := (mapChange g s).boot } := (rfl)

theorem steady_rowChange (f r : Nat) (g : RowMap → RowMap) (s : State) :
    steady (rowChange f r g s) = { steady s with boot := (rowChange f r g s).boot } := steady_mapChange s _

theorem steady_fenceRow (f r row : Nat) (s : State) : steady (fenceRow f r row s) = { steady s with boot := (steady (fenceRow f r row s)).boot } := by
  unfold fenceRow
  rw [steady_raise, steady_modBoot, steady_rowChange]

theorem steady_fenceSpent (f : Nat) (s : State) : steady (fenceSpent f s) = { steady s with boot := (steady (fenceSpent f s)).boot } := by
  have hg := forEach_keeps (fun t => ((steady t).power, (steady t).fields, (steady t).tick)) (f := fun r => fenceRow f r 1)
    (fun r t => by rw [steady_fenceRow]) ((List.range 100).filter (fun r => (fmapRow s f r).row == 0 && !rowUsable (presentRow s f r))) s
  exact congrArg (fun k : Power × (Nat → Field) × Tick => Steady.mk (steady (fenceSpent f s)).boot k.1 k.2.1 k.2.2) hg

theorem shelf_restorePolders (f : Nat) (l : List Nat) (s : State) : shelf (forEach l (restorePolder f) s) = shelf s :=
  shelf_forEach _ _ _ (shelf_restorePolder f)

theorem steady_fieldRestore (f : Nat) (s : State) :
    ∃ sd, steady (fieldRestore f s) = fieldPut f (fun x => { fcReset x with seeds := sd, saved := false }) (steady s) := by
  unfold fieldRestore
  dsimp only
  refine ⟨_, (steady_modField _ _ (fun _ => rfl)).trans (congrArg _ ?_)⟩
  split
  · rw [steady_of_shelf (shelf_restorePolders ..), steady_fcLoad]
  · rw [steady_of_shelf (shelf_objsLost ..), steady_of_shelf (shelf_restorePolders ..), steady_fcLoad]

theorem stepSupply_of_boot {s t : State} (h : t.boot = s.boot) (f n : Nat) : stepSupply t f n = stepSupply s f n := by
  unfold stepSupply calOf
  rw [h]

/-! ## What a shedding or a wafer reset leaves of boot, power and the tick generator -/

/-- Boot, power without its hints and domains, and the tick generator. -/
def kept (s : State) : Boot × Power × Tick := (s.boot, { s.power with hints := [], doms := [] }, s.tick)

theorem kept_of_steady {s t : State} (h : steady t = steady s) : kept t = kept s :=
  congrArg (fun k : Steady => (k.boot, { k.power with doms := [] }, k.tick)) h

theorem kept_of_shelf {s t : State} (h : shelf t = shelf s) : kept t = kept s := kept_of_steady (steady_of_shelf h)

theorem kept_forEach {α : Type} (l : List α) (f : α → State → State) (s : State) (h : ∀ a t, kept (f a t) = kept t) :
    kept (forEach l f s) = kept s := forEach_keeps kept (f := f) h l s

theorem kept_modDom (s : State) (d : Nat) (g : Dom → Dom) : kept (modDom s d g) = kept s := (rfl)

theorem kept_linksOff (s : State) : kept (linksOff s) = kept s := by
  unfold linksOff
  dsimp only
  rw [kept_modDom]
  refine kept_of_shelf ?_
  simp

theorem kept_stackOff (n : Nat) (s : State) : kept (stackOff n s) = kept s := (rfl)

theorem kept_mecsReset (l : List Nat) (s : State) : kept (mecsReset l s) = kept s :=
  mecsReset_keeps kept (fun _ _ _ _ => rfl) l s

theorem kept_quadOff (q : Nat) (s : State) : kept (quadOff q s) = kept s := by
  unfold quadOff
  dsimp only
  rw [kept_modDom, kept_mecsReset]
  exact kept_of_shelf (shelf_spanOff _ s)

theorem kept_fieldsOff (s : State) : kept (fieldsOff s) = kept s := by
  unfold fieldsOff
  dsimp only
  rw [kept_forEach _ _ _ (fun _ _ => kept_modDom _ _ _)]
  rfl

/-- A field without its supply is down. -/
theorem fields_fieldsOff (s : State) : ∀ e ∈ (fieldsOff s).fields, e.2.up = false := by
  have hf : (fieldsOff s).fields = (List.range 64).map (fun f => (f, fieldDark (getField s f))) := by
    unfold fieldsOff
    dsimp only
    rw [forEach_keeps (·.fields) (f := fun f s => modDom s f (fun d => { d with st := 0 })) (fun _ _ => rfl)]
    rfl
  rw [hf]
  intro e he
  obtain ⟨f, _, rfl⟩ := List.mem_map.mp he
  rfl

end Sys2Proof.Proofs
end

section
/-! PROOFS. What a start of the module leaves: the boot's network step, a boot that fails, the saves it examines and restores. They change
boot, the fields, the power domains, the boot's records of the saves, the pins, the links, the event log, the contexts and RUN alone. -/

namespace Sys2Proof.Proofs

open Sys2Proof Sys2Proof.Machine

/-- Power without its domains, ALERT_N and what BRN_STAT shows. -/
def powerStable (w : Power) : Power :=
  { w with doms := [], alert := false, brnSaved := false, brnIncomplete := false, brnCause := 0, brnSlot := false, brnTick := 0 }

/-- The host interface without its ports, the event log and what waits for the host. -/
def hostStable (h : HostIf) : HostIf :=
  { h with na := {}, nb := {}, log := [], nextEvt := 0, evtLost := {}, umsgLost := {}, hold := [], accesses := [] }

/-- What a start leaves of a state. -/
def stable (s : State) : State :=
  { s with boot := {}, fields := [], ctxs := [], tick := { s.tick with run := false }, power := powerStable s.power, host := hostStable s.host }

theorem stable_forEach {α : Type} (l : List α) {f : α → State → State} (h : ∀ a t, stable (f a t) = stable t) (s : State) :
    stable (forEach l f s) = stable s := forEach_keeps stable h l s

theorem stable_ite (c : Prop) [Decidable c] (a b : State) : stable (if c then a else b) = if c then stable a else stable b := by
  split <;> rfl

theorem stable_raise (code : Nat) (p c u : Option Nat) (arg : Nat) (s : State) : stable (raise code p c u arg s) = stable s := by
  unfold raise
  dsimp only
  split <;> rfl

theorem stable_eventsByCode (s0 s : State) : stable (eventsByCode s0 s) = stable s := (rfl)

theorem stable_setPort (s : State) (p : Nat) (x : NPort) : stable (setPort s p x) = stable s := by
  unfold setPort
  split <;> rfl

theorem stable_lostFrames (p : Nat) (s : State) : stable (lostFrames p s) = stable s :=
  (rfl : stable (lostFrames p s) = stable (modPort s p (fun x => { x with tx := [], txWait := [], oldTx := [], oldWait := [] }))).trans
    (stable_setPort ..)

theorem stable_modDom (s : State) (d : Nat) (g : Dom → Dom) : stable (modDom s d g) = stable s := (rfl)

theorem stable_loseAccesses (s : State) : stable (loseAccesses s) = stable s := (rfl)

theorem stable_linksOff (s : State) : stable (linksOff s) = stable s := by
  unfold linksOff
  dsimp only
  rw [stable_modDom, stable_loseAccesses]
  exact stable_forEach _ (fun p t => (stable_lostFrames p _).trans (stable_setPort ..)) s

theorem stable_bootFail (err : Nat) (s : State) : stable (bootFail err s) = stable s := by
  unfold bootFail
  extract_lets s1
  have h1 : stable s1 = stable s := by
    unfold s1
    rw [stable_ite, stable_linksOff, ite_self]
  clear_value s1
  exact h1

theorem stable_examineSaves (s : State) : stable (examineSaves s) = stable s := by
  unfold examineSaves
  extract_lets arg s0 s1
  have h1 : stable s1 = stable s := by
    unfold s1
    split
    · rfl
    · split
      · exact stable_raise ..
      · rfl
  clear_value s1
  refine (stable_eventsByCode ..).trans ?_
  split
  · exact h1
  · exact (stable_raise ..).trans h1

theorem stable_restoreSave (s : State) : stable (restoreSave s) = stable s := by
  unfold restoreSave
  split <;> rfl

theorem stable_fieldBoot (f : Nat) (s : State) : stable (fieldBoot f s) = stable s := by
  unfold fieldBoot
  split <;> rfl

theorem stable_bootCal (s : State) : stable (bootCal s) = stable s := by
  unfold bootCal
  split
  · rfl
  · split
    · rfl
    · exact stable_raise ..

theorem stable_bootNetwork (s : State) : stable (bootNetwork s) = stable s := by
  unfold bootNetwork
  extract_lets s1 s2 s3 s4
  have h1 : stable s1 = stable s := rfl
  have h2 : stable s2 = stable s1 := rfl
  have h3 : stable s3 = stable s2 := stable_bootCal s2
  have h4 : stable s4 = stable s3 := stable_forEach _ stable_fieldBoot s3
  split
  · rw [stable_bootFail, h1]
  · split
    · rw [stable_bootFail, h4, h3, h2, h1]
    · rw [h4, h3, h2, h1]

end Sys2Proof.Proofs
end

section
/-! PROOFS. The events of the supply (O56). -/

namespace Sys2Proof.Proofs

open Sys2Proof Sys2Proof.Machine

/-! ## The governor's sampling -/

/-- The registers that the sampling of a governor tick sets. -/
def govRegs (s : State) : Bool × W32 × BitVec 16 × BitVec 16 × BitVec 16 :=
  (s.power.govDue, s.power.gticks, s.power.vin, s.power.iin, s.power.pin)

theorem govRegs_of_shelf {s t : State} (h : shelf t = shelf s) : govRegs t = govRegs s :=
  congrArg (fun k : Shelf => (k.power.govDue, k.power.gticks, k.power.vin, k.power.iin, k.power.pin)) h

theorem govRegs_raise (code : Nat) (p c u : Option Nat) (arg : Nat) (s : State) : govRegs (raise code p c u arg s) = govRegs s :=
  govRegs_of_shelf (shelf_raise ..)

theorem govRegs_ite (c : Prop) [Decidable c] (a b : State) : govRegs (if c then a else b) = if c then govRegs a else govRegs b := by
  split <;> rfl

theorem govRegs_setField (s : State) (f : Nat) (x : Field) : govRegs (setField s f x) = govRegs s := (rfl)
theorem govRegs_modField (s : State) (f : Nat) (g : Field → Field) : govRegs (modField s f g) = govRegs s := (rfl)
theorem govRegs_modDom (s : State) (d : Nat) (g : Dom → Dom) : govRegs (modDom s d g) = govRegs s := (rfl)
theorem govRegs_setFlag (s : State) (i : Nat) : govRegs (modPower s (fun w => { w with flags := setBit w.flags i })) = govRegs s := (rfl)

theorem govRegs_thermalMark (a b : Decisions) (s : State) : govRegs (thermalMark a b s) = govRegs s := by
  unfold thermalMark
  split <;> rfl

theorem govRegs_breachField (f : Nat) (r : Decisions × State) : govRegs (breachField f r).2 = govRegs r.2 := by
  unfold breachField
  dsimp only
  split
  · rfl
  · simp only [apply_ite Prod.snd, govRegs_ite, govRegs_raise, govRegs_setField, govRegs_modField, govRegs_modDom, govRegs_setFlag, ite_self]

theorem govRegs_breachFields (l : List Nat) (r : Decisions × State) : govRegs (l.foldl (fun r f => breachField f r) r).2 = govRegs r.2 := by
  induction l generalizing r with
  | nil => rfl
  | cons f l ih => rw [List.foldl_cons, ih, govRegs_breachField]

theorem govRegs_decide (d : Decisions) (s : State) : govRegs (decide_ d s) = govRegs s := by
  refine forEach_keeps govRegs (fun e t => ?_) d s
  dsimp only
  split <;> rfl

theorem govRegs_governorRules (differs : List Decision) (s : State) : govRegs (governorRules differs s) = govRegs s := by
  unfold governorRules
  extract_lets d1 d2 s1
  have h1 : govRegs s1 = govRegs s := govRegs_thermalMark ..
  have h2 := govRegs_breachFields (List.range 64) (d2, s1)
  generalize (List.range 64).foldl (fun r f => breachField f r) (d2, s1) = r at h2 ⊢
  obtain ⟨d3, s2⟩ := r
  dsimp only at h2 ⊢
  rw [govRegs_decide]
  split
  · rw [govRegs_raise]
    exact h2.trans h1
  · exact h2.trans h1

theorem power_takeReadings (temps : List Reading) (s : State) : (forEach temps takeReading s).power = s.power :=
  forEach_keeps (f := takeReading) (·.power) (fun _ _ => rfl) temps s

/-- What the sampling of a governor tick shows. -/
theorem govRegs_governorTick (temps : List Reading) (differs : List Decision) (s : State) :
    govRegs (governorTick temps differs s) = (false, s.power.gticks + 1, Config.inputVoltage s.power.inSeen,
      (if s.power.inputOpen then 0 else Config.inputCurrent s.power.inSeen),
      BitVec.ofNat 16 (clamp16 ((s.power.inSum + (Config.inputVoltage s.power.inSeen).toNat *
        (if s.power.inputOpen then 0 else Config.inputCurrent s.power.inSeen).toNat / 10000) / max 1 (s.power.inN + 1)))) := by
  have h : govRegs (governorTick temps differs s) = govRegs (modPower (governorSample temps s) (fun w => { w with govDue := false })) :=
    (govRegs_of_shelf (shelf_eventsByCode ..)).trans (govRegs_governorRules ..)
  have hp := power_takeReadings temps s
  rw [h]
  unfold governorSample hotCounts inputSample govRegs
  dsimp only [modPower]
  rw [hp]

theorem governorTick_shows (temps : List Reading) (differs : List Decision) (s : State) :
    let u := governorTick temps differs s
    u.power.govDue = false ∧ u.power.gticks = s.power.gticks + 1 ∧ u.power.vin = Config.inputVoltage s.power.inSeen ∧
      u.power.iin = (if s.power.inputOpen then 0 else Config.inputCurrent s.power.inSeen) ∧
      u.power.pin.toNat = min ((s.power.inSum + u.power.vin.toNat * u.power.iin.toNat / 10000) / (s.power.inN + 1)) 65535 := by
  have h := govRegs_governorTick temps differs s
  simp only [govRegs, Prod.mk.injEq] at h
  obtain ⟨hdue, hticks, hvin, hiin, hpin⟩ := h
  refine ⟨hdue, hticks, hvin, hiin, ?_⟩
  rw [hpin, hvin, hiin, Nat.max_eq_right (Nat.le_add_left 1 _), BitVec.toNat_ofNat]
  exact Nat.mod_eq_of_lt (Nat.lt_of_le_of_lt (Nat.min_le_right _ _) (by decide))

theorem exec_governorTick {temps : List Reading} {differs : List Decision} {s : State}
    (ht : ∀ r ∈ temps, r.field < 64 ∧ r.sensor ≤ 16) (hd : s.power.govDue = true) (hs : s.power.shed = false) :
    exec (.governorTick temps differs) s = .next (tripCheck (governorTick temps differs s)) := by
  have hr : temps.any (fun r => decide (r.field ≥ 64) || decide (r.sensor > 16)) = false := by
    rw [List.any_eq_false]
    intro r hr
    obtain ⟨hf, hn⟩ := ht r hr
    simp [Nat.not_le.mpr hf, Nat.not_lt.mpr hn]
  show execGovernorTick temps differs s = _
  unfold execGovernorTick
  rw [hr, hd, hs]
  rfl

/-! ## Regulators -/

theorem getDom_of_shelf {s t : State} (h : shelf t = shelf s) (d : Nat) : getDom t d = getDom s d :=
  congrArg (fun k : Shelf => mget ({} : Dom) k.power.doms d) h

theorem getDom_setFlag (s : State) (i d : Nat) : getDom (modPower s (fun w => { w with flags := setBit w.flags i })) d = getDom s d := (rfl)

theorem flags_of_shelf {s t : State} (h : shelf t = shelf s) : t.power.flags = s.power.flags :=
  congrArg (fun k : Shelf => k.power.flags) h

theorem exec_regulatorReport {d : Nat} (mv da : Nat) (s : State) (hd : d ≤ 101) :
    Answers (exec (.regulatorReport d mv da) s) (fun u => (getDom u d).volt = BitVec.ofNat 16 mv ∧
      (getDom u d).curr = BitVec.ofNat 16 da ∧ (getDom u d).pnow.toNat = min (mv * da * 4 / 10000) 65535 ∧ (getDom u d).stale = false ∧
      (getDom u d).ppeak.toNat = max (getDom s d).ppeak.toNat (getDom u d).pnow.toNat) := by
  have hp : (BitVec.ofNat 16 (clamp16 (mv * da * 4 / 10000))).toNat = min (mv * da * 4 / 10000) 65535 := by
    rw [BitVec.toNat_ofNat]
    exact Nat.mod_eq_of_lt (Nat.lt_of_le_of_lt (Nat.min_le_right _ _) (by decide))
  refine ⟨_, if_neg (Nat.not_lt.mpr hd), ?_⟩
  simp only [getDom_modDom]
  refine ⟨trivial, trivial, hp, trivial, ?_⟩
  rw [hp, BitVec.toNat_ofNat]
  refine Nat.mod_eq_of_lt (Nat.max_lt.mpr ⟨(getDom s d).ppeak.isLt, ?_⟩)
  exact Nat.lt_of_le_of_lt (Nat.min_le_right _ _) (by decide)

theorem exec_regulatorStale {d : Nat} {s : State} (hd : d ≤ 101) (hs : (getDom s d).stale = false) :
    Answers (exec (.regulatorStale d) s) (fun u => getDom u d = { getDom s d with stale := true } ∧
      u.power.flags = setBit s.power.flags 1) := by
  refine ⟨_, (if_neg (Nat.not_lt.mpr hd)).trans (if_neg (by rw [hs]; decide)), ?_, ?_⟩
  · exact (getDom_of_shelf (shelf_raise ..) d).trans ((getDom_setFlag ..).trans (getDom_modDom s d _))
  · exact flags_of_shelf (shelf_raise ..)

/-- The state in which a regulator's fault is marked and raised. -/
def regMarked (d : Nat) (s : State) : State :=
  raise 0x73 none none none d (modPower (modDom s d (fun x => { x with regFault := true })) (fun w => { w with flags := setBit w.flags 8 }))

theorem getDom_regMarked (d : Nat) (s : State) : getDom (regMarked d s) d = { getDom s d with regFault := true } :=
  (getDom_of_shelf (shelf_raise ..) d).trans ((getDom_setFlag ..).trans (getDom_modDom s d _))

theorem flags_regMarked (d : Nat) (s : State) : (regMarked d s).power.flags = setBit s.power.flags 8 := flags_of_shelf (shelf_raise ..)

theorem flags_of_kept {s t : State} (h : kept t = kept s) : t.power.flags = s.power.flags :=
  congrArg (fun k : Boot × Power × Tick => k.2.1.flags) h

theorem getDom_stackOff (n : Nat) (s : State) : getDom (stackOff n s) (64 + n) = { getDom s (64 + n) with st := 0 } :=
  getDom_modDom s (64 + n) (fun x => { x with st := 0 })

theorem getDom_quadOff (q : Nat) (s : State) : getDom (quadOff q s) (96 + q) = { getDom s (96 + q) with st := 0 } := by
  unfold quadOff
  dsimp only
  rw [getDom_modDom, mecsReset_keeps (getDom · (96 + q)) (fun _ _ _ _ => rfl)]
  exact congrArg (fun x : Dom => { x with st := 0 }) (getDom_of_shelf (shelf_spanOff _ s) _)

theorem getDom_linksOff (s : State) : getDom (linksOff s) 100 = { getDom s 100 with st := 0 } := by
  unfold linksOff
  dsimp only
  rw [getDom_modDom]
  refine congrArg (fun x : Dom => { x with st := 0 }) (getDom_of_shelf ?_ _)
  simp

/-- What a field whose regulator has failed shows where it was up. -/
def regDark (x : Field) : Field := { x with draining := false, dark := true, change := some { target := 4, why := .regulator, wait := 0 } }

/-- The domain of field d is off. -/
def fieldCut (d : Nat) (s : State) : State := dropWaiters (fun g _ => g == d) (modDom s d (fun x => { x with st := 0 }))

theorem steady_fieldCut (d : Nat) (s : State) : steady (fieldCut d s) = domPut d (fun x => { x with st := 0 }) (steady s) := steady_dropWaiters ..

/-- A domain in which the regulator's fault stands and which is off. -/
def RegOff (d : Nat) (k : Steady) : Prop :=
  (mget {} k.power.doms d).regFault = true ∧ (mget {} k.power.doms d).st = 0 ∧ k.power.flags.getLsbD 8 = true

theorem RegOff.fieldPut {d : Nat} {k : Steady} (h : RegOff d k) (f : Nat) (g : Field → Field) : RegOff d (fieldPut f g k) := h

theorem RegOff.domPut {d : Nat} {k : Steady} (h : RegOff d k) : RegOff d (domPut d (fun x => { x with st := 0 }) k) := by
  obtain ⟨hr, _, hf⟩ := h
  refine ⟨?_, ?_, hf⟩
  · exact (congrArg Dom.regFault (mget_mput_self _ _ _ _)).trans hr
  · exact congrArg Dom.st (mget_mput_self _ _ _ _)

theorem regOff_fieldCut (d : Nat) (s : State) : RegOff d (steady (fieldCut d (regMarked d s))) := by
  have hd := getDom_regMarked d s
  rw [steady_fieldCut]
  refine ⟨?_, congrArg Dom.st (mget_mput_self _ _ _ _), ?_⟩
  · exact (congrArg Dom.regFault (mget_mput_self _ _ _ _)).trans (congrArg Dom.regFault hd)
  · show (regMarked d s).power.flags.getLsbD 8 = true
    rw [flags_regMarked]
    exact getLsbD_setBit_self (by decide) _

/-- The field of a regulator's fault that is up goes dark. -/
theorem regFault_up {d : Nat} {s u : State} (h : shelf u = shelf (modField (fieldPowerLost d (fieldCut d (regMarked d s))) d regDark)) :
    RegOff d (steady u) ∧ (getField u d).change = some { target := 4, why := .regulator, wait := 0 } ∧ (getField u d).dark = true := by
  have hs : steady u = fieldPut d regDark (fieldPut d unpowered (steady (fieldCut d (regMarked d s)))) := by
    rw [steady_of_shelf h, steady_modField _ _ (fun _ => rfl), steady_fieldPowerLost]
  have hf : getField u d = regDark (getField (fieldPowerLost d (fieldCut d (regMarked d s))) d) :=
    (congrArg (fun k : Shelf => mget ({} : Field) k.fields d) h).trans (getField_modField ..)
  rw [hs, hf]
  exact ⟨((regOff_fieldCut d s).fieldPut _ _).fieldPut _ _, rfl, rfl⟩

/-- A field that is not up stays off. -/
theorem regFault_down {d : Nat} {s u : State} {g : Field → Field} (hg : ∀ x, fieldCore (g x) = fieldCore (g (fieldCore x)))
    (h : shelf u = shelf (modField (if (getField s d).resetPhase = 0 then fieldCut d (regMarked d s) else fieldGone d (fieldCut d (regMarked d s))) d g)) :
    RegOff d (steady u) := by
  rw [steady_of_shelf h, steady_modField _ _ hg]
  refine RegOff.fieldPut ?_ _ _
  split
  · exact regOff_fieldCut d s
  · rw [steady_fieldGone]
    have hb : RegOff d { steady (fieldCut d (regMarked d s)) with boot := (dropFaults d (fieldWaiters d (fieldCut d (regMarked d s)))).boot } :=
      regOff_fieldCut d s
    exact ((hb.fieldPut d downed).domPut).fieldPut d unpowered

/-- A regulator fault of a domain that is no field: it is off. -/
theorem regOff_of_kept {d : Nat} {s u : State} (hk : kept u = kept (regMarked d s)) (hd : getDom u d = { getDom (regMarked d s) d with st := 0 }) :
    RegOff d (steady u) := by
  refine ⟨?_, congrArg Dom.st hd, ?_⟩
  · exact (congrArg Dom.regFault hd).trans (congrArg Dom.regFault (getDom_regMarked d s))
  · show u.power.flags.getLsbD 8 = true
    rw [flags_of_kept hk, flags_regMarked]
    exact getLsbD_setBit_self (by decide) _

/-- What a field keeps that was not up when its regulator failed. -/
def regStopped (x : Field) : Field := { x with starting := false, why := .regulator, setPoint := 0, supply := 0 }

/-- The domain of a failed regulator is switched off. -/
def regSwitched (d : Nat) (s : State) : State :=
  if d < 64 then
    if (getField s d).up then modField (fieldPowerLost d (fieldCut d s)) d regDark
    else modField (if (getField s d).resetPhase = 0 then fieldCut d s else fieldGone d (fieldCut d s)) d regStopped
  else if d < 96 then stackOff (d - 64) s
  else if d < 100 then quadOff (d - 96) s
  else linksOff s

theorem exec_regFault {d : Nat} {s : State} (hd : d ≤ 100) (hr : (getDom s d).regFault = false) :
    exec (.regFault d) s = .next (eventsByCode s (regSwitched d (regMarked d s))) :=
  (if_neg (Nat.not_lt.mpr hd)).trans (if_neg (by rw [hr]; decide))

theorem getField_regMarked (d : Nat) (s : State) : getField (regMarked d s) d = getField s d :=
  congrArg (fun k : Shelf => mget ({} : Field) k.fields d)
    (shelf_raise 0x73 none none none d (modPower (modDom s d (fun x => { x with regFault := true })) (fun w => { w with flags := setBit w.flags 8 })))

theorem regOff_regSwitched {d : Nat} (hd : d ≤ 100) (s : State) : RegOff d (steady (regSwitched d (regMarked d s))) := by
  unfold regSwitched
  by_cases h64 : d < 64
  · rw [if_pos h64, getField_regMarked]
    split
    · exact (regFault_up rfl).1
    · exact regFault_down (fun _ => rfl) rfl
  · rw [if_neg h64]
    by_cases h96 : d < 96
    · obtain ⟨n, rfl⟩ : ∃ n, d = 64 + n := ⟨d - 64, by omega⟩
      rw [if_pos h96, Nat.add_sub_cancel_left]
      exact regOff_of_kept (kept_stackOff ..) (getDom_stackOff ..)
    · rw [if_neg h96]
      by_cases h100 : d < 100
      · obtain ⟨n, rfl⟩ : ∃ n, d = 96 + n := ⟨d - 96, by omega⟩
        rw [if_pos h100, Nat.add_sub_cancel_left]
        exact regOff_of_kept (kept_quadOff ..) (getDom_quadOff ..)
      · obtain rfl : d = 100 := by omega
        rw [if_neg h100]
        exact regOff_of_kept (kept_linksOff _) (getDom_linksOff _)

theorem getField_regSwitched {d : Nat} {s : State} (hd : d < 64) (hu : (getField s d).up = true) :
    (getField (eventsByCode s (regSwitched d (regMarked d s))) d).change = some { target := 4, why := .regulator, wait := 0 } ∧
      (getField (eventsByCode s (regSwitched d (regMarked d s))) d).dark = true := by
  refine (regFault_up (s := s) ?_).2
  rw [shelf_eventsByCode, regSwitched, if_pos hd, getField_regMarked, if_pos hu]

/-! ## A field goes down and comes up -/

/-- A drain that is done takes its field down. -/
theorem exec_drainDone {f : Nat} {s : State} (hf : f < 64) (hd : (getField s f).draining = true) :
    exec (.drainDone f) s = if (fieldMus s f).any (fun u => muDirty (getMu s u) || wbackOut s u) then .next (forEach (fieldMus s f) flushUnit s)
      else .next (ceilReturn f (fieldGone f (modField s f (fun x => { x with saved := true })))) :=
  (if_neg (Nat.not_le.mpr hf)).trans (if_neg (by rw [hd]; decide))

theorem core_fieldGone (f : Nat) (s : State) :
    fieldCore (getField (fieldGone f s) f) = fieldCore (unpowered (downed (fieldCore (getField s f)))) := by
  rw [core_getField, steady_fieldGone]
  simp only [fieldPut, domPut, if_pos]
  rfl

theorem dom_fieldGone (f : Nat) (s : State) : (getDom (fieldGone f s) f).st = 0 := by
  rw [getDom_of_steady, steady_fieldGone]
  exact congrArg Dom.st (mget_mput_self _ _ _ _)

theorem getField_fieldStart (f : Nat) (s : State) : getField (fieldStart f s) f =
    { getField s f with starting := true, draining := false, why := .none, setPoint := stepSupply s f 3 } :=
  getField_modField s f (fun x => { x with starting := true, draining := false, why := .none, setPoint := stepSupply s f 3 })

/-- A field that has gone down, and may come back on for its ceiling. -/
theorem ceilReturn_fieldGone (f : Nat) (s : State) :
    let u := ceilReturn f (fieldGone f s)
    (getField u f).up = false ∧ (getField u f).draining = false ∧
      ((getField s f).why ≠ .ceil → (getDom u f).st = 0 ∧ (getField u f).step = 4) := by
  have hc := core_fieldGone f s
  have hup : (getField (fieldGone f s) f).up = false := up_of_core hc
  have hdr : (getField (fieldGone f s) f).draining = false := draining_of_core hc
  have hst : (getField (fieldGone f s) f).step = 4 := step_of_core hc
  have hwhy : (getField (fieldGone f s) f).why = (getField s f).why := (why_of_core hc :).trans rfl
  unfold ceilReturn
  dsimp only
  split
  · next h =>
    simp only [Bool.and_eq_true, beq_iff_eq] at h
    obtain ⟨⟨⟨⟨hceil, _⟩, _⟩, _⟩, _⟩ := h
    refine ⟨?_, ?_, fun hw => absurd (hwhy.symm.trans hceil) hw⟩
    · exact (congrArg Field.up (getField_fieldStart ..)).trans hup
    · exact congrArg Field.draining (getField_fieldStart ..)
  · exact ⟨hup, hdr, fun _ => ⟨dom_fieldGone f s, hst⟩⟩

theorem boot_fieldRestore (f : Nat) (s : State) : (fieldRestore f s).boot = s.boot := by
  obtain ⟨sd, h⟩ := steady_fieldRestore f s
  exact congrArg Steady.boot h

/-- What a field shows that has come up; v is its supply. -/
def fieldRisen (v : Nat) (x : Field) : Field :=
  { x with up := true, starting := false, draining := false, step := 3, acc := 0, cclk := 0, change := none, resetPhase := 0, dark := false,
           held := false, setPoint := v, supply := v }

/-- What follows the rise of a field. -/
def fieldSettled (f : Nat) (s : State) : State := armDown (fenceSpent f (recross f (slotsLost f s)))

theorem steady_fieldSettled (f : Nat) (s : State) :
    steady (fieldSettled f s) = { steady s with boot := (steady (fenceSpent f (recross f (slotsLost f s)))).boot } := by
  unfold fieldSettled
  rw [steady_of_shelf (shelf_armDown _), steady_fenceSpent, steady_of_shelf (shelf_recross _ _), steady_slotsLost]

theorem core_fieldSettled (f g : Nat) (s : State) : fieldCore (getField (fieldSettled f s) g) = fieldCore (getField s g) := by
  rw [core_getField, steady_fieldSettled, core_getField]

theorem getDom_fieldSettled (f d : Nat) (s : State) : getDom (fieldSettled f s) d = getDom s d := by
  rw [getDom_of_steady, steady_fieldSettled, getDom_of_steady]

theorem fieldComesUp_eq (f : Nat) (s : State) : fieldComesUp f s = fieldSettled f (modDom (modField (fieldRestore f (unitsOff f s)) f
    (fieldRisen (stepSupply (fieldRestore f (unitsOff f s)) f 3))) f (fun d => { d with st := 1 })) := by
  unfold fieldComesUp fieldSettled fieldRisen
  with_reducible rfl

theorem getField_modDom (s : State) (d : Nat) (g : Dom → Dom) (f : Nat) : getField (modDom s d g) f = getField s f := (rfl)

/-- A field that has started is up at S3. -/
theorem fieldComesUp_up (f : Nat) (s : State) :
    let u := fieldComesUp f s
    (getField u f).up = true ∧ (getField u f).step = 3 ∧ (getField u f).starting = false ∧ (getDom u f).st = 1 ∧
      (getField u f).supply = stepSupply s f 3 := by
  have hb : (fieldRestore f (unitsOff f s)).boot = s.boot := boot_fieldRestore f (unitsOff f s)
  have hv : stepSupply (fieldRestore f (unitsOff f s)) f 3 = stepSupply s f 3 := stepSupply_of_boot hb f 3
  have he := fieldComesUp_eq f s
  rw [hv] at he
  have hf : fieldCore (getField (fieldComesUp f s) f) = fieldCore (fieldRisen (stepSupply s f 3) (getField (fieldRestore f (unitsOff f s)) f)) := by
    rw [he, core_fieldSettled, getField_modDom, getField_modField]
  have hd : (getDom (fieldComesUp f s) f).st = 1 := by
    rw [he, getDom_fieldSettled, getDom_modDom]
  exact ⟨up_of_core hf, step_of_core hf, starting_of_core hf, hd, supply_of_core hf⟩

theorem steady_shiftField (f : Nat) (s : State) : steady (shiftField f s) = { steady s with boot := (steady (shiftField f s)).boot } :=
  (steady_fenceSpent ..).trans rfl

/-- What the end of a field reset leaves in force of a field. -/
theorem core_fieldLogic (f : Nat) (l : List Nat) (s : State) :
    fieldCore (getField (shiftField f (forEach l (restorePolder f) (fcLoad f f s))) f) = fieldCore (getField s f) := by
  rw [core_getField, steady_shiftField, steady_of_shelf (shelf_restorePolders ..), steady_fcLoad, core_getField]

theorem getField_of_shelf {s t : State} (h : shelf t = shelf s) (f : Nat) : getField t f = getField s f :=
  congrArg (fun k : Shelf => mget ({} : Field) k.fields f) h

/-- A field whose reset is over is up at its step. -/
theorem fieldResetEnd_up (f : Nat) (s : State) :
    let u := fieldResetEnd f s
    (getField u f).up = true ∧ (getField u f).resetPhase = 0 ∧ (getField u f).step = (getField s f).step := by
  have hr := step_of_core (core_fieldLogic f (poldersHeld s) s)
  unfold fieldResetEnd
  dsimp only
  rw [getField_of_shelf ((shelf_finishWhere ..).trans (shelf_armDown _)), getField_modField]
  exact ⟨rfl, rfl, hr⟩

/-! ## A shedding -/

theorem openSave_save0 {x : Save} {w : Power} (h : w.save0 = some x) (hx : x.committed = false) : openSave w = some (false, x) := by
  unfold openSave
  rw [h, Option.filter_some, hx]
  rfl

theorem openSave_save1 {x y : Save} {w : Power} (h0 : w.save0 = some y) (hy : y.committed = true) (h1 : w.save1 = some x)
    (hx : x.committed = false) : openSave w = some (true, x) := by
  unfold openSave
  rw [h0, h1, Option.filter_some, Option.filter_some, hx, hy]
  rfl

/-- The newest committed save is in the first slot only where that slot holds a committed one. -/
theorem save0_of_newestSave {w : Power} {y : Save} (h : newestSave w = some (false, y)) : ∃ z, w.save0 = some z ∧ z.committed = true := by
  unfold newestSave at h
  cases h0 : w.save0 with
  | none =>
    rw [h0, Option.filter_none] at h
    cases h1 : w.save1.filter (·.committed) <;> rw [h1] at h <;> cases h
  | some z =>
    refine ⟨z, rfl, ?_⟩
    refine Decidable.byContradiction fun hz => ?_
    rw [h0, Option.filter_some, if_neg hz] at h
    cases h1 : w.save1.filter (·.committed) <;> rw [h1] at h <;> cases h

/-- The save that is written is the open one. -/
theorem openSave_writeSave {x : Save} (hx : x.committed = false) (w : Power) : ∃ b, openSave (writeSave x w) = some (b, x) := by
  unfold writeSave
  split
  · next y h =>
    obtain ⟨z, hz, hc⟩ := save0_of_newestSave h
    exact ⟨true, openSave_save1 hz hc rfl hx⟩
  · exact ⟨false, openSave_save0 rfl hx⟩

theorem kept_mbxClears (l : List Nat) (s : State) : kept (forEach l mbxClear s) = kept s :=
  kept_forEach _ _ _ (fun n t => kept_of_shelf (shelf_mbxClear n t))

theorem tick_of_kept {s t : State} (h : kept t = kept s) : t.tick = s.tick := (congrArg (fun k : Boot × Power × Tick => k.2.2) h :)

theorem tripped_of_kept {s t : State} (h : kept t = kept s) : t.power.tripped = s.power.tripped :=
  (congrArg (fun k : Boot × Power × Tick => k.2.1.tripped) h :)

theorem fields_of_shelf {s t : State} (h : shelf t = shelf s) : t.fields = s.fields := (congrArg Shelf.fields h :)

theorem kept_configAbandon (s : State) : kept (configAbandon s) = kept s := (rfl)

theorem fields_configAbandon (s : State) : (configAbandon s).fields = s.fields := (rfl)

/-- A shedding (R480). -/
theorem brownout_shed (cause : Nat) (s : State) :
    let u := brownout cause s
    u.power.shed = true ∧ u.power.pwrGood = false ∧ u.power.alert = true ∧ u.power.tripped = (s.power.tripped || cause == 2) ∧
      u.tick.run = false ∧ u.tick.count = s.tick.count + 1 ∧ u.boot.ready = false ∧ (∀ e ∈ u.fields, e.2.up = false) ∧
      ∃ b x, openSave u.power = some (b, x) ∧ x.cause = BitVec.ofNat 2 cause ∧ x.tick = u.tick.count := by
  unfold brownout
  extract_lets s1 s2 objs ws s3 s4 s5 s6 serial x u
  have h2 : kept s2 = kept s1 :=
    kept_of_steady ((steady_haltAll 7 _).trans (steady_forEach _ _ _ steady_frameDue))
  have h3 : kept s3 = kept s2 := (kept_linksOff _).trans (kept_mbxClears _ _)
  have h4 : kept s4 = kept s3 := kept_forEach _ _ _ kept_stackOff
  have h5 : kept s5 = kept s4 :=
    (kept_fieldsOff _).trans ((kept_of_shelf (shelf_spanClear _)).trans (kept_forEach _ _ _ kept_quadOff))
  have hs6 : shelf s6 = shelf (configAbandon s5) := (shelf_drainEntries _).trans (shelf_markContexts ..)
  have h6 : kept s6 = kept s1 := (kept_of_shelf hs6).trans ((kept_configAbandon s5).trans (h5.trans (h4.trans (h3.trans h2))))
  have hf : s6.fields = s5.fields := (fields_of_shelf hs6).trans (fields_configAbandon s5)
  have hp : s6.power.tripped = s1.power.tripped := tripped_of_kept h6
  have ht : s6.tick = s1.tick := tick_of_kept h6
  have hu5 : ∀ e ∈ s5.fields, e.2.up = false := fields_fieldsOff _
  have hst : s1.power.tripped = s.power.tripped := rfl
  have hsc : s1.tick.count = s.tick.count + 1 := rfl
  clear_value s6 s5 s1
  have hxu : x.committed = false := rfl
  have hxc : x.cause = BitVec.ofNat 2 cause := rfl
  have hxt : x.tick = s6.tick.count := rfl
  clear_value x
  obtain ⟨b, hb⟩ := openSave_writeSave hxu s6.power
  refine ⟨rfl, rfl, rfl, ?_, rfl, ?_, rfl, ?_, b, x, hb, hxc, hxt⟩
  · exact congrArg (· || cause == 2) (hp.trans hst)
  · exact (congrArg Tick.count ht).trans hsc
  · intro e he
    exact hu5 e (hf ▸ he)

/-- What the statement says of a module that a brownout (trip false) or a thermal trip has shed. -/
def Shed (s : State) (trip : Bool) (u : State) : Prop :=
  u.power.shed = true ∧ u.power.pwrGood = false ∧ u.power.alert = true ∧ u.power.tripped = (s.power.tripped || trip) ∧ u.tick.run = false ∧
    u.tick.count = s.tick.count + 1 ∧ u.boot.ready = false ∧ (∀ e ∈ u.fields, e.2.up = false) ∧
    ∃ b x, openSave u.power = some (b, x) ∧ x.cause = (if trip then 2 else 1) ∧ x.tick = u.tick.count

theorem exec_brownout {s : State} (h : mayShed s = true) : Answers (exec .brownout s) (Shed s false) :=
  ⟨_, if_pos h, brownout_shed 1 s⟩

/-- The state in which the management complex's own sensor has read its trip temperature. -/
def tripRead (s : State) : State :=
  modPower (takeFree s).2 (fun p => { p with mgcTemp := BitVec.ofNat 8 (110 + (takeFree s).1.toNat % 146) })

theorem tripDue_tripRead (s : State) : tripDue (tripRead s) = true := by
  have h : ∀ n, n < 146 → decide ((BitVec.ofNat 8 (110 + n)).toNat ≥ 110) = true := by
    intro n hn
    rw [BitVec.toNat_ofNat, decide_eq_true_eq]
    omega
  unfold tripDue
  refine Bool.or_eq_true_iff.mpr (Or.inr (h _ (Nat.mod_lt _ (by decide))))

theorem exec_thermalTrip {s : State} (h : mayShed s = true) : Answers (exec .thermalTrip s) (Shed s true) := by
  refine ⟨brownout 2 (tripRead s), (if_pos h).trans ?_, brownout_shed 2 (tripRead s)⟩
  have hd : (tripDue (tripRead s) && mayShed (tripRead s)) = true := by
    rw [tripDue_tripRead]
    exact h
  show Host.Outcome.next (tripCheck (tripRead s)) = _
  rw [tripCheck, if_pos hd]

/-! ## The end of a save -/

/-- The saves in flash. -/
def saves (s : State) : Option Save × Option Save := (s.power.save0, s.power.save1)

theorem saves_of_kept {s t : State} (h : kept t = kept s) : saves t = saves s :=
  (congrArg (fun k : Boot × Power × Tick => (k.2.1.save0, k.2.1.save1)) h :)

theorem shelf_spanKeep (s : State) : shelf (spanKeep s) = shelf s := by
  unfold spanKeep
  dsimp only
  rw [shelf_forEach _ _ _ (fun p t => by rw [shelf_forEach _ _ _ (fun k w => shelf_spanNack ..), shelf_modMif, shelf_modSpan]), shelf_modSpanCfg]

theorem kept_vacates (l : List Nat) (s : State) : kept (forEach l (fun p s => vacate p (weightsInvalid p s)) s) = kept s := by
  refine kept_forEach _ _ _ (fun p t => kept_of_steady ?_)
  unfold vacate
  rw [steady_archiveTrim, steady_modPolder, steady_weightsInvalid]

/-- What stops at a wafer reset leaves boot, the tick generator and power but for its hints and domains. -/
theorem kept_waferStop (keepSpan : Bool) (s : State) : kept (waferStop keepSpan s) = kept s := by
  unfold waferStop
  extract_lets s1 s2 s3
  have h1 : kept s1 = kept s :=
    (kept_of_shelf ((shelf_drainEntries _).trans (shelf_markContexts ..))).trans (kept_of_steady (steady_haltAll 1 s))
  have h2 : kept s2 = kept s1 := (kept_vacates _ _).trans rfl
  have h3 : kept s3 = kept s2 := (kept_linksOff _).trans (kept_mbxClears _ _)
  rw [← h1, ← h2, ← h3]
  split
  · rw [kept_mecsReset, kept_of_shelf (shelf_spanKeep s3)]
  · rw [kept_forEach _ _ _ kept_quadOff, kept_of_shelf (shelf_spanClear s3)]

theorem saves_waferClear (keepSpan : Bool) (s : State) : saves (waferClear keepSpan s) = saves s := by
  unfold waferClear
  extract_lets mifs s1
  have h1 : saves s1 = saves s := saves_of_kept (kept_fieldsOff s)
  clear_value s1
  exact h1

theorem saves_waferReset (keepSpan : Bool) (s : State) : saves (waferReset keepSpan s) = saves s := by
  unfold waferReset
  extract_lets s1
  have h1 : saves s1 = saves s := (saves_waferClear ..).trans (saves_of_kept (kept_waferStop keepSpan s))
  clear_value s1
  exact h1

theorem saves_of_stable {s t : State} (h : stable t = stable s) : saves t = saves s :=
  (congrArg (fun k : State => (k.power.save0, k.power.save1)) h :)

theorem saves_resetInput (s : State) : saves (resetInput s) = saves s := by
  unfold resetInput
  extract_lets s1
  have h1 : saves s1 = saves s := rfl
  clear_value s1
  split
  · rw [saves_of_stable (stable_bootFail ..), h1]
  · rename_i shed s2 s3 _
    have h2 : saves s2 = saves s1 := by
      refine (saves_waferReset false _).trans ?_
      split <;> rfl
    clear_value s2
    have h3 : saves s3 = saves s2 := rfl
    rw [saves_of_stable (stable_bootNetwork _)]
    split
    · rw [saves_of_stable ((stable_restoreSave _).trans (stable_examineSaves s3)), h3, h2, h1]
    · rw [h3, h2, h1]

/-- A save with its commit block. -/
def commitSave (x : Option Save) : Option Save := x.map (fun y => { y with committed := true })

theorem openSave_commitSave {w : Power} {a b : Option Save} (h0 : w.save0 = commitSave a) (h1 : w.save1 = commitSave b) : openSave w = none := by
  unfold openSave
  rw [h0, h1]
  cases a <;> cases b <;> rfl

/-- The save has ended: ALERT_N shows a trip alone. -/
def saveDone (s : State) : State :=
  modPower s (fun w => { w with save0 := commitSave w.save0, save1 := commitSave w.save1, alert := w.tripped })

/-- A reset that waited for the save's end leaves the saves. -/
theorem saves_saveDone (s : State) : saves (if (saveDone s).power.resetHeld then resetInput (saveDone s) else saveDone s) =
    (commitSave s.power.save0, commitSave s.power.save1) := by
  split
  · exact saves_resetInput (saveDone s)
  · rfl

theorem exec_saveCommit {s : State} (hs : s.power.shed = true) (ho : (openSave s.power).isSome = true) :
    Answers (exec .saveCommit s) (fun u => openSave u.power = none ∧ u.power.save0 = commitSave s.power.save0 ∧
      u.power.save1 = commitSave s.power.save1) := by
  have hn : (!s.power.shed || (openSave s.power).isNone) = false := by
    rw [hs, Option.isNone_eq_false_iff.mpr ho]
    rfl
  refine ⟨_, (if_neg (by rw [hn]; decide)), ?_⟩
  have hu := saves_saveDone s
  refine ⟨openSave_commitSave (congrArg Prod.fst hu) (congrArg Prod.snd hu), congrArg Prod.fst hu, congrArg Prod.snd hu⟩

/-! ## Coolant, input, lockout -/

theorem power_raise (code : Nat) (p c u : Option Nat) (arg : Nat) (s : State) : (raise code p c u arg s).power = s.power :=
  (congrArg Shelf.power (shelf_raise code p c u arg s) :)

theorem exec_coolantWarn (inlet outlet flow : Nat) (s : State) :
    let out := decide (320 < inlet) || decide (flow < 240)
    Answers (exec (.coolantWarn inlet outlet flow) s) (fun u => u.power.inlet = BitVec.ofNat 12 inlet ∧
      u.power.outlet = BitVec.ofNat 12 outlet ∧ u.power.flow = BitVec.ofNat 12 flow ∧ u.power.coolWarn = (s.power.coolWarn || out) ∧
      u.power.flags = if out && !s.power.coolWarn then setBit s.power.flags 6 else s.power.flags) := by
  extract_lets out
  show Answers (execCoolantWarn inlet outlet flow s) _
  unfold execCoolantWarn
  dsimp only
  have hb : ((coolBad inlet flow).1 || (coolBad inlet flow).2) = out := rfl
  rw [hb]
  by_cases hw : s.power.coolWarn = true
  · refine ⟨_, if_pos (by rw [show (modPower s _).power.coolWarn = s.power.coolWarn from rfl, hw]; rfl), rfl, rfl, rfl, ?_, ?_⟩
    · rw [hw]; exact hw
    · rw [hw, Bool.not_true, Bool.and_false]; rfl
  · rw [Bool.not_eq_true] at hw
    cases out with
    | false =>
      refine ⟨_, if_pos (by simp), rfl, rfl, rfl, ?_, rfl⟩
      rw [hw]; exact hw
    | true =>
      refine ⟨_, if_neg (by rw [show (modPower s _).power.coolWarn = s.power.coolWarn from rfl, hw]; decide), ?_⟩
      dsimp only
      rw [power_raise, hw]
      exact ⟨rfl, rfl, rfl, rfl, rfl⟩

theorem exec_inputLow {mv : Nat} {s : State} (hm : mv < 40200) (hl : s.power.inLow = false) (ha : s.power.ao = true) :
    Answers (exec (.inputLow mv) s) (fun u => u.power.inLow = true ∧ u.power.flags = setBit s.power.flags 7) := by
  refine ⟨_, if_neg (by simp [Nat.not_le.mpr hm, hl, ha]), ?_⟩
  dsimp only
  rw [power_raise]
  exact ⟨rfl, rfl⟩

/-- Settles O56. -/
theorem powerEventsRun : Obligations.PowerEventsRun := by
  intro s
  refine ⟨?_, ?_, ?_, ?_, ?_, ?_, ?_, ?_, ?_, rfl, ?_, ?_, ?_, ?_⟩
  · intro temps differs ht hd hs
    refine ⟨fun hn => ?_, fun hn hm => ?_, governorTick_shows temps differs s⟩
    · rw [exec_governorTick ht hd hs, tripCheck, hn]
      rfl
    · rw [exec_governorTick ht hd hs, tripCheck, hn, hm]
      rfl
  · exact fun d mv da hd => exec_regulatorReport mv da s hd
  · exact fun d hd hs => exec_regulatorStale hd hs
  · intro d hd hr
    refine ⟨_, exec_regFault hd hr, ?_⟩
    have ho : RegOff d (steady (eventsByCode s (regSwitched d (regMarked d s)))) := by
      rw [steady_of_shelf (shelf_eventsByCode ..)]
      exact regOff_regSwitched hd s
    obtain ⟨hrf, hst, hfl⟩ := ho
    exact ⟨hrf, hst, hfl, fun h64 hu => getField_regSwitched h64 hu⟩
  · intro f hf hd left
    rw [exec_drainDone hf hd]
    refine ⟨fun h => if_pos h, fun h => ⟨_, if_neg (Bool.not_eq_true _ ▸ h), ?_⟩⟩
    have hw : (getField (modField s f (fun x => { x with saved := true })) f).why = (getField s f).why := by
      rw [getField_modField]
    obtain ⟨hup, hdr, hdown⟩ := ceilReturn_fieldGone f (modField s f (fun x => { x with saved := true }))
    exact ⟨hup, hdr, fun hc => hdown (hw ▸ hc)⟩
  · intro f hf
    refine ⟨fun hs hr => ⟨_, ?_, fieldComesUp_up f s⟩, fun hr => ⟨_, ?_, fieldResetEnd_up f s⟩⟩
    · exact (if_neg (Nat.not_le.mpr hf)).trans ((if_neg hr).trans (if_neg (by rw [hs]; decide)))
    · exact (if_neg (Nat.not_le.mpr hf)).trans (if_pos hr)
  · intro f hf hw hu hs hc ht hr
    refine ⟨_, (if_neg (Nat.not_le.mpr hf)).trans (if_pos ?_), ?_, ?_⟩
    · simp [hw, hu, hs, hc, ht, hr]
    · exact congrArg Field.starting (getField_fieldStart f s)
    · exact congrArg Dom.st (getDom_modDom ..)
  · intro hm trip
    cases trip with
    | false => exact exec_brownout hm
    | true => exact exec_thermalTrip hm
  · exact fun inlet outlet flow => exec_coolantWarn inlet outlet flow s
  · exact fun mv hm hl ha => exec_inputLow hm hl ha
  · exact fun hs ho => exec_saveCommit hs ho
  · exact fun ha => if_neg (by rw [ha]; decide)
  · intro ha hm
    refine ⟨_, if_pos (by rw [ha, hm]; rfl), ?_⟩
    exact ⟨rfl, rfl, rfl, rfl, rfl, rfl, rfl, rfl, rfl, rfl, rfl, rfl, rfl, rfl, rfl⟩

end Sys2Proof.Proofs
end

section
/-! PROOFS. Unit and cluster resets (15 R508): what a unit's reset makes of the unit, and what it leaves of the others. -/

namespace Sys2Proof.Proofs

open Sys2Proof Sys2Proof.Machine

/-! ## The loss of an awaited frame leaves units and packets -/

/-- The units and packets of a state. -/
def logic (s : State) : Map Core × Map Sfu × Map Mu × List Flight := (s.cores, s.sfus, s.mus, s.flights)

theorem logic_forEach {α : Type} (l : List α) {f : α → State → State} (h : ∀ a t, logic (f a t) = logic t) (s : State) :
    logic (forEach l f s) = logic s := forEach_keeps logic h l s

theorem logic_raise (code : Nat) (p c u : Option Nat) (arg : Nat) (s : State) : logic (raise code p c u arg s) = logic s := by
  unfold raise
  dsimp only
  split <;> rfl

theorem logic_loseFrame (f : Frame) (s : State) : logic (loseFrame f s) = logic s := by
  have hl : logic (lostEvent f f.haltCause.toNat s) = logic s := by
    unfold lostEvent trEvent
    split <;> rfl
  unfold loseFrame
  refine (logic_forEach _ ?_ _).trans hl
  exact fun _ _ => rfl

theorem logic_dropAwait (p : Nat) (s : State) : logic (dropAwait p s) = logic s := by
  unfold dropAwait
  split
  · next f _ =>
    have h := logic_loseFrame f s
    dsimp only
    split <;> exact h
  · rfl

theorem logic_dikewatchDone (p : Nat) (s : State) : logic (dikewatchDone p s) = logic s := by
  unfold dikewatchDone
  dsimp only
  split
  · split
    · exact (logic_dropAwait ..).trans (logic_raise ..)
    · rfl
  · rfl

/-! ## Owners and active configurations -/

/-- An entry of a map that the search for the first match finds stays the match when it is written with the same answer. -/
theorem find?_mput {α : Type} {d : α} {P : α → Bool} {m : Map α} {p : Nat} {x : α} (hx : P x = P (mget d m p))
    (h : (m.find? (fun e => P e.2)).map (·.1) = some p) : ((mput m p x).find? (fun e => P e.2)).map (·.1) = some p := by
  induction m with
  | nil => cases h
  | cons e m ih =>
    obtain ⟨k, v⟩ := e
    unfold mput
    split
    · rw [List.find?_cons]
      split
      · rfl
      · exact h
    · split
      · next hk =>
        subst hk
        rw [List.find?_cons] at h ⊢
        rw [show mget d ((k, v) :: m) k = v from if_pos rfl] at hx
        dsimp only at h ⊢
        rw [hx]
        split
        · rfl
        · next hv => rw [hv] at h; exact h
      · next hlt hne =>
        rw [show mget d ((k, v) :: m) p = mget d m p from if_neg hne] at hx
        rw [List.find?_cons] at h ⊢
        split
        · next hv => rw [hv] at h; exact absurd (Option.some.inj h) hne
        · next hv => rw [hv] at h; exact ih hx h

/-- A change of polder p's bookkeeping: the units of p stay p's, with its configuration. -/
def Owns (p : Nat) (s t : State) : Prop :=
  ∀ v, ownerOf s v = some p → ownerOf t v = some p ∧ (getPolder t p).cfg = (getPolder s p).cfg

theorem Owns.trans {p : Nat} {s t w : State} (h : Owns p s t) (h' : Owns p t w) : Owns p s w := by
  intro v hv
  obtain ⟨ho, hc⟩ := h v hv
  obtain ⟨ho', hc'⟩ := h' v ho
  exact ⟨ho', hc'.trans hc⟩

theorem owns_of_polders {p : Nat} {s t : State} (h : t.polders = s.polders) : Owns p s t := by
  intro v hv
  unfold ownerOf at hv ⊢
  unfold getPolder
  rw [h]
  exact ⟨hv, rfl⟩

theorem owns_setPolder {p : Nat} {s : State} {x : Polder} (hs : x.state = (getPolder s p).state) (hc : x.cfg = (getPolder s p).cfg) :
    Owns p s (setPolder s p x) := by
  intro v hv
  refine ⟨?_, (congrArg Polder.cfg (getPolder_setPolder s p x)).trans hc⟩
  unfold ownerOf at hv ⊢
  by_cases hu : isUnit v = true
  · rw [if_pos hu] at hv ⊢
    refine find?_mput (P := fun y => y.state != 0 && inRects (rectsOf y) v) (d := {}) ?_ hv
    have hr : rectsOf x = rectsOf (getPolder s p) := by
      unfold rectsOf
      rw [hc]
    show (x.state != 0 && inRects (rectsOf x) v) = ((getPolder s p).state != 0 && inRects (rectsOf (getPolder s p)) v)
    rw [hs, hr]
  · rw [if_neg hu] at hv
    cases hv

theorem owns_of_shelf {p : Nat} {s t : State} (h : shelf t = shelf s) : Owns p s t := owns_of_polders (congrArg Shelf.polders h)

theorem owns_dropAwait (p : Nat) (s : State) : Owns p s (dropAwait p s) := by
  unfold dropAwait
  split
  · next f _ =>
    have h : Owns p s (modPolder (loseFrame f s) p (fun x => { x with await := none, replay := false })) :=
      (owns_of_shelf (shelf_loseFrame f s)).trans (owns_setPolder rfl rfl)
    dsimp only
    split
    · exact h
    · exact h.trans (owns_of_polders rfl)
  · exact owns_of_polders rfl

theorem owns_dikewatchDone (p : Nat) (s : State) : Owns p s (dikewatchDone p s) := by
  unfold dikewatchDone
  dsimp only
  split
  · next f _ =>
    split
    · have h : Owns p s (setPolder s p { getPolder s p with
          dw := f.dwRec.getD (dwRecord s p f), dwCount := incCnt (getPolder s p).dwCount, flags := setBit (getPolder s p).flags 2 }) :=
        owns_setPolder rfl rfl
      exact h.trans ((owns_of_shelf (shelf_raise ..)).trans (owns_dropAwait _ _))
    · exact owns_of_polders rfl
  · exact owns_of_polders rfl

theorem activeCfg_of_owns {p v : Nat} {s t : State} (h : Owns p s t) (hv : ownerOf s v = some p) : activeCfg t v = activeCfg s v := by
  obtain ⟨ho, hc⟩ := h v hv
  unfold activeCfg
  rw [ho, hv]
  dsimp only
  rw [hc]

theorem activeCfg_of_polders {s t : State} (h : t.polders = s.polders) (v : Nat) : activeCfg t v = activeCfg s v := by
  unfold activeCfg ownerOf getPolder
  rw [h]

/-! ## What a memory unit writes back as it is reset -/

/-- A write-back of unit u at once: its lines and what tells of lost ones change, nothing else of any unit, and no packet. -/
structure WrittenOut (u : Nat) (s t : State) : Prop where
  cores : t.cores = s.cores
  sfus : t.sfus = s.sfus
  flights : t.flights = s.flights
  others : ∀ v, v ≠ u → getMu t v = getMu s v
  kept : ∀ k, muActivate k (getMu t u) = muActivate k (getMu s u)

theorem WrittenOut.trans {u : Nat} {s t w : State} (h : WrittenOut u s t) (h' : WrittenOut u t w) : WrittenOut u s w where
  cores := h'.cores.trans h.cores
  sfus := h'.sfus.trans h.sfus
  flights := h'.flights.trans h.flights
  others v hv := (h'.others v hv).trans (h.others v hv)
  kept k := (h'.kept k).trans (h.kept k)

theorem writtenOut_of_logic {u : Nat} {s t : State} (h : logic t = logic s) : WrittenOut u s t := by
  have hc : t.cores = s.cores := (congrArg (fun k : Map Core × Map Sfu × Map Mu × List Flight => k.1) h :)
  have hs : t.sfus = s.sfus := (congrArg (fun k : Map Core × Map Sfu × Map Mu × List Flight => k.2.1) h :)
  have hm : t.mus = s.mus := (congrArg (fun k : Map Core × Map Sfu × Map Mu × List Flight => k.2.2.1) h :)
  have hf : t.flights = s.flights := (congrArg (fun k : Map Core × Map Sfu × Map Mu × List Flight => k.2.2.2) h :)
  have hg : ∀ v, getMu t v = getMu s v := fun v => by unfold getMu; rw [hm]
  exact ⟨hc, hs, hf, fun v _ => hg v, fun k => by rw [hg]⟩

theorem writtenOut_modMu {u : Nat} (s : State) {g : Mu → Mu} (hg : ∀ k m, muActivate k (g m) = muActivate k m) :
    WrittenOut u s (modMu s u g) where
  cores := rfl
  sfus := rfl
  flights := rfl
  others v hv := getMu_setMu_ne s u v _ hv
  kept k := (congrArg (muActivate k) (getMu_setMu s u _)).trans (hg k _)

theorem writtenOut_forEach {α : Type} {u : Nat} (l : List α) {f : α → State → State} (h : ∀ a t, WrittenOut u t (f a t)) (s : State) :
    WrittenOut u s (forEach l f s) := by
  induction l generalizing s with
  | nil => exact writtenOut_of_logic rfl
  | cons a l ih => exact (h a s).trans (ih _)

theorem writtenOut_lineLost (u : Nat) (s : State) : WrittenOut u s (lineLost u s) := writtenOut_modMu s (fun _ _ => rfl)

theorem writtenOut_dramWrite (u n a : Nat) (ws : List W64) (s : State) : WrittenOut u s (dramWrite n a ws s) := writtenOut_of_logic rfl

theorem logic_pageFault (n ctx va : Nat) (r : PfReason) (s : State) : logic (pageFault n ctx va r s) = logic s := by
  unfold pageFault
  dsimp only
  split
  · rfl
  · exact logic_raise ..

theorem logic_wbackAddr (s : State) (p a : Nat) (paged : Bool) (ctx : Nat) : logic (wbackAddr s p a paged ctx).2 = logic s := by
  unfold wbackAddr
  extract_lets n m pte at_
  cases at_ with
  | error r => exact logic_pageFault ..
  | ok pa =>
    dsimp only
    split
    · rfl
    · split <;> rfl

theorem logic_of_wbackAddr {s t : State} {p a ctx : Nat} {paged : Bool} {o : Option Nat} (h : wbackAddr s p a paged ctx = (o, t)) :
    logic t = logic s := by
  have hw := logic_wbackAddr s p a paged ctx
  rw [h] at hw
  exact hw

theorem writtenOut_lineOut (u p k : Nat) (l : Line) (s : State) : WrittenOut u s (lineOut u p k l s) := by
  unfold lineOut
  extract_lets m b a
  split
  · next pa t h =>
    refine (writtenOut_of_logic (logic_of_wbackAddr h)).trans ((writtenOut_dramWrite ..).trans (writtenOut_modMu _ ?_))
    exact fun _ _ => rfl
  · next t h =>
    refine (writtenOut_of_logic (logic_of_wbackAddr h)).trans ((writtenOut_modMu t ?_).trans (writtenOut_lineLost u _))
    exact fun _ _ => rfl

theorem writtenOut_portOut (u p : Nat) (s : State) : WrittenOut u s (portOut u p s) := by
  unfold portOut
  refine writtenOut_forEach _ (fun f t => ?_) s
  dsimp only
  split
  · next pa w h => exact (writtenOut_of_logic (logic_of_wbackAddr h)).trans (writtenOut_dramWrite ..)
  · next w h => exact (writtenOut_of_logic (logic_of_wbackAddr h)).trans (writtenOut_lineLost ..)

theorem writtenOut_unitOut (u : Nat) (s : State) : WrittenOut u s (unitOut u s) := by
  unfold unitOut
  split
  · exact writtenOut_of_logic rfl
  · split
    · exact (writtenOut_forEach _ (fun e t => writtenOut_lineOut _ _ _ _ t) s).trans (writtenOut_portOut ..)
    · exact writtenOut_of_logic rfl

/-- A line of unit u is lost only where it had a dirty one or a write-back in its port, or where one was lost before. -/
theorem lost_unitOut {u : Nat} {s : State} (h : (getMu (unitOut u s) u).lost = true) :
    (getMu s u).lost = true ∨ muDirty (getMu s u) = true ∨ ∃ x ∈ s.flights, x.loc = .inject ∧ x.pkt.src = u := by
  refine Classical.byContradiction fun hn => ?_
  obtain ⟨hl, hdf⟩ := not_or.mp hn
  obtain ⟨hd, hf⟩ := not_or.mp hdf
  have hs : unitOut u s = s := by
    unfold unitOut
    split
    · rfl
    · split
      · next p _ =>
        have hd' : (getMu s u).lines.filter (fun e => e.2.dirty) = [] := by
          refine List.filter_eq_nil_iff.mpr (fun e he hdirty => hd ?_)
          exact List.any_eq_true.mpr ⟨e, he, hdirty⟩
        have hf' : s.flights.filter (fun f => f.net == .req && f.loc == .inject && f.pkt.src == u && f.pkt.op == opDwrite) = [] := by
          refine List.filter_eq_nil_iff.mpr (fun x hx hm => ?_)
          simp only [Bool.and_eq_true, beq_iff_eq] at hm
          obtain ⟨⟨⟨_, hloc⟩, hsrc⟩, _⟩ := hm
          exact hf ⟨x, hx, hloc, hsrc⟩
        rw [hd']
        unfold portOut
        rw [show (forEach [] _ s).flights = s.flights from rfl, hf']
        rfl
      · rfl
  rw [hs] at h
  exact hl h

/-! ## The reset of a unit -/

/-- What the statement says of a unit v that is back in its state at activation. -/
def Back (s w : State) (v : Nat) : Prop :=
  (∀ k m, activeCfg s v = (.cc k, m) → getCore w v = coreActivate k m (getCore s v)) ∧
  (∀ k m, activeCfg s v = (.mu k, m) → ∃ lost : Bool, getMu w v =
      (if lost then { muActivate k (getMu s v) with flags := setBit (muActivate k (getMu s v)).flags 2, lost := true } else muActivate k (getMu s v)) ∧
    (lost = true → (getMu s v).lost = true ∨ muDirty (getMu s v) = true ∨ ∃ x ∈ s.flights, x.loc = .inject ∧ x.pkt.src = v)) ∧
  (∀ k m, activeCfg s v = (.sfu k, m) → getSfu w v = sfuActivate k (getSfu s v))

/-- A change that leaves unit v, and brings no packet. -/
structure Spares (v : Nat) (s t : State) : Prop where
  core : getCore t v = getCore s v
  mu : getMu t v = getMu s v
  sfu : getSfu t v = getSfu s v
  flights : ∀ x ∈ t.flights, x ∈ s.flights

theorem Spares.trans {v : Nat} {s t w : State} (h : Spares v s t) (h' : Spares v t w) : Spares v s w where
  core := h'.core.trans h.core
  mu := h'.mu.trans h.mu
  sfu := h'.sfu.trans h.sfu
  flights x hx := h.flights x (h'.flights x hx)

theorem spares_of_logic {s t : State} (h : logic t = logic s) (v : Nat) : Spares v s t := by
  have hc : t.cores = s.cores := (congrArg (fun k : Map Core × Map Sfu × Map Mu × List Flight => k.1) h :)
  have hs : t.sfus = s.sfus := (congrArg (fun k : Map Core × Map Sfu × Map Mu × List Flight => k.2.1) h :)
  have hm : t.mus = s.mus := (congrArg (fun k : Map Core × Map Sfu × Map Mu × List Flight => k.2.2.1) h :)
  have hf : t.flights = s.flights := (congrArg (fun k : Map Core × Map Sfu × Map Mu × List Flight => k.2.2.2) h :)
  exact ⟨by unfold getCore; rw [hc], by unfold getMu; rw [hm], by unfold getSfu; rw [hs], fun x hx => hf ▸ hx⟩

theorem spares_of_writtenOut {u v : Nat} {s t : State} (h : WrittenOut u s t) (hv : v ≠ u) : Spares v s t where
  core := by unfold getCore; rw [h.cores]
  mu := h.others v hv
  sfu := by unfold getSfu; rw [h.sfus]
  flights x hx := h.flights ▸ hx

theorem spares_unitActivate {u v : Nat} (hv : v ≠ u) (pmode : W32) (x : UnitCfg) (s : State) : Spares v s (unitActivate pmode u x s) := by
  cases x with
  | cc c => exact ⟨getCore_setCore_ne s u v _ hv, rfl, rfl, fun x hx => (List.mem_filter.mp hx).1⟩
  | mu c => exact ⟨rfl, getMu_setMu_ne s u v _ hv, rfl, fun x hx => (List.mem_filter.mp hx).1⟩
  | sfu c => exact ⟨rfl, rfl, getSfu_setSfu_ne s u v _ hv, fun x hx => hx⟩

theorem spares_keepDramErr {u v : Nat} (hv : v ≠ u) (old s : State) : Spares v s (keepDramErr old u s) := by
  unfold keepDramErr
  split
  · exact ⟨rfl, getMu_setMu_ne s u v _ hv, rfl, fun x hx => hx⟩
  · exact spares_of_logic rfl v

/-- A frame of unit u's polder that awaits replay is lost. -/
def awaitLost (u : Nat) (s : State) : State :=
  match ownerOf s u with
  | none => s
  | some p => dropAwait p (dikewatchDone p s)

theorem logic_awaitLost (u : Nat) (s : State) : logic (awaitLost u s) = logic s := by
  unfold awaitLost
  split
  · rfl
  · exact (logic_dropAwait ..).trans (logic_dikewatchDone ..)

theorem activeCfg_awaitLost {u v : Nat} {s : State} (hv : ownerOf s v = ownerOf s u) :
    activeCfg (awaitLost u s) v = activeCfg s v ∧ ownerOf (awaitLost u s) v = ownerOf s v := by
  unfold awaitLost
  split
  · exact ⟨rfl, rfl⟩
  · next p hp =>
    have ho : Owns p s (dropAwait p (dikewatchDone p s)) := (owns_dikewatchDone p s).trans (owns_dropAwait p _)
    exact ⟨activeCfg_of_owns ho (hv.trans hp), (ho v (hv.trans hp)).1.trans (hv.trans hp).symm⟩

theorem resetUnit_eq (u : Nat) (s : State) :
    resetUnit u s = keepDramErr (unitOut u (awaitLost u s)) u (unitReload u (unitOut u (awaitLost u s))) := (rfl)

theorem polders_resetUnit (u : Nat) (s : State) : (resetUnit u s).polders = (awaitLost u s).polders := by
  have h : shelf (resetUnit u s) = shelf (awaitLost u s) := by
    rw [resetUnit_eq, shelf_keepDramErr, unitReload, shelf_unitActivate, shelf_unitOut]
  exact (congrArg Shelf.polders h :)

theorem boot_resetUnit (u : Nat) (s : State) : (resetUnit u s).boot = s.boot := by
  have h : steady (resetUnit u s) = steady s := by
    rw [resetUnit_eq, steady_of_shelf (shelf_keepDramErr ..), unitReload, steady_of_shelf (shelf_unitActivate ..),
      steady_of_shelf (shelf_unitOut ..)]
    unfold awaitLost
    split
    · rfl
    · rw [steady_dropAwait, steady_dikewatchDone]
  exact (congrArg Steady.boot h :)

theorem spares_resetUnit {u v : Nat} (hv : v ≠ u) (s : State) : Spares v s (resetUnit u s) := by
  rw [resetUnit_eq, unitReload]
  exact (spares_of_logic (logic_awaitLost u s) v).trans ((spares_of_writtenOut (writtenOut_unitOut u _) hv).trans
    ((spares_unitActivate hv _ _ _).trans (spares_keepDramErr hv _ _)))

theorem ownerOf_of_polders {s t : State} (h : t.polders = s.polders) (v : Nat) : ownerOf t v = ownerOf s v := by
  unfold ownerOf
  rw [h]

theorem activeCfg_resetUnit {u v : Nat} {s : State} (hv : ownerOf s v = ownerOf s u) :
    activeCfg (resetUnit u s) v = activeCfg s v ∧ ownerOf (resetUnit u s) v = ownerOf s v := by
  obtain ⟨hc, ho⟩ := activeCfg_awaitLost hv
  have hp := polders_resetUnit u s
  exact ⟨(activeCfg_of_polders hp v).trans hc, (ownerOf_of_polders hp v).trans ho⟩

theorem getCore_keepDramErr (old : State) (u : Nat) (s : State) : getCore (keepDramErr old u s) u = getCore s u := by
  unfold keepDramErr
  split <;> rfl

theorem getSfu_keepDramErr (old : State) (u : Nat) (s : State) : getSfu (keepDramErr old u s) u = getSfu s u := by
  unfold keepDramErr
  split <;> rfl

/-- A memory unit notes again a line that was lost. -/
theorem getMu_keepDramErr (old : State) (u : Nat) (s : State) :
    getMu (keepDramErr old u s) u = if (isMu u && (getMu old u).lost) = true then { getMu s u with flags := setBit (getMu s u).flags 2, lost := true }
      else getMu s u := by
  unfold keepDramErr
  split
  · exact getMu_setMu ..
  · rfl

theorem back_resetUnit (u : Nat) (s : State) : Back s (resetUnit u s) u := by
  have hlog := logic_awaitLost u s
  have hout := writtenOut_unitOut u (awaitLost u s)
  have hs := spares_of_logic hlog u
  have hcfg : activeCfg (unitOut u (awaitLost u s)) u = activeCfg s u :=
    (activeCfg_of_polders (congrArg Shelf.polders (shelf_unitOut u (awaitLost u s)) :) u).trans (activeCfg_awaitLost rfl).1
  have hcore : getCore (unitOut u (awaitLost u s)) u = getCore s u := by
    rw [← hs.core]
    unfold getCore
    rw [hout.cores]
  have hsfu : getSfu (unitOut u (awaitLost u s)) u = getSfu s u := by
    rw [← hs.sfu]
    unfold getSfu
    rw [hout.sfus]
  have hmu : ∀ k, muActivate k (getMu (unitOut u (awaitLost u s)) u) = muActivate k (getMu s u) := fun k => by
    rw [hout.kept, hs.mu]
  have hlost := lost_unitOut (u := u) (s := awaitLost u s)
  rw [hs.mu] at hlost
  rw [resetUnit_eq, unitReload, hcfg]
  refine ⟨fun k m h => ?_, fun k m h => ?_, fun k m h => ?_⟩
  · rw [getCore_keepDramErr, h]
    exact (getCore_setCore ..).trans (congrArg _ hcore)
  · rw [h]
    have ha : getMu (unitActivate m u (.mu k) (unitOut u (awaitLost u s))) u = muActivate k (getMu s u) := (getMu_setMu ..).trans (hmu k)
    rw [getMu_keepDramErr, ha]
    refine ⟨_, rfl, fun hl => ?_⟩
    obtain hl | hd | ⟨x, hx, hxl⟩ := hlost (Bool.and_eq_true_iff.mp hl).2
    · exact .inl hl
    · exact .inr (.inl hd)
    · exact .inr (.inr ⟨x, hs.flights x hx, hxl⟩)
  · rw [getSfu_keepDramErr, h]
    exact (getSfu_setSfu ..).trans (congrArg _ hsfu)

theorem Back.of_spares {s t w : State} {v : Nat} (h : Back s t v) (hw : Spares v t w) : Back s w v := by
  obtain ⟨hc, hm, hs⟩ := h
  refine ⟨fun k m hk => ?_, fun k m hk => ?_, fun k m hk => ?_⟩
  · rw [hw.core]; exact hc k m hk
  · rw [hw.mu]; exact hm k m hk
  · rw [hw.sfu]; exact hs k m hk

/-- The reset of other units of the cluster before leaves the reset of v as it is. -/
theorem Back.after {s t w : State} {v : Nat} (h : Back t w v) (hs : Spares v s t) (hc : activeCfg t v = activeCfg s v) : Back s w v := by
  obtain ⟨hcore, hmu, hsfu⟩ := h
  rw [hc, hs.core] at hcore
  rw [hc, hs.mu] at hmu
  rw [hc, hs.sfu] at hsfu
  refine ⟨hcore, fun k m hk => ?_, hsfu⟩
  obtain ⟨lost, he, hl⟩ := hmu k m hk
  refine ⟨lost, he, fun h => ?_⟩
  obtain h | h | ⟨x, hx, hxl⟩ := hl h
  · exact .inl h
  · exact .inr (.inl h)
  · exact .inr (.inr ⟨x, hs.flights x hx, hxl⟩)

theorem spares_resetUnits {v : Nat} {us : List Nat} (hv : v ∉ us) (s : State) : Spares v s (forEach us resetUnit s) := by
  induction us generalizing s with
  | nil => exact spares_of_logic rfl v
  | cons u us ih =>
    rw [List.mem_cons, not_or] at hv
    exact (spares_resetUnit hv.1 s).trans (ih hv.2 _)

/-- Units with one owner are each back after the resets of all. -/
theorem back_resetUnits {us : List Nat} {o : Option Nat} (hn : us.Nodup) (s : State) (ho : ∀ v ∈ us, ownerOf s v = o) :
    ∀ v ∈ us, Back s (forEach us resetUnit s) v := by
  induction us generalizing s with
  | nil => exact fun v hv => absurd hv List.not_mem_nil
  | cons u us ih =>
    obtain ⟨hu, hn⟩ := List.nodup_cons.mp hn
    have hou : ownerOf s u = o := ho u List.mem_cons_self
    have hrest : ∀ v ∈ us, activeCfg (resetUnit u s) v = activeCfg s v ∧ ownerOf (resetUnit u s) v = ownerOf s v := fun v hv =>
      activeCfg_resetUnit ((ho v (List.mem_cons_of_mem _ hv)).trans hou.symm)
    intro v hv
    rw [forEach_cons]
    obtain rfl | hv := List.mem_cons.mp hv
    · exact (back_resetUnit v s).of_spares (spares_resetUnits hu _)
    · have hb := ih hn (resetUnit u s) (fun x hx => (hrest x hx).2.trans (ho x (List.mem_cons_of_mem _ hx))) v hv
      exact hb.after (spares_resetUnit (ne_of_mem_of_not_mem hv hu) s) (hrest v hv).1

theorem boot_resetUnits (us : List Nat) (s : State) : (forEach us resetUnit s).boot = s.boot :=
  forEach_keeps (f := resetUnit) (·.boot) boot_resetUnit us s

/-! ## The commands -/

theorem unit_of_clusterSpan {u v : Nat} (hu : isUnit u = true) (hv : v ∈ span (clusterOf u) (clusterOf u + 11)) :
    unitX v / 12 = unitX u / 12 ∧ unitY v = unitY u := by
  have hx : unitX u < 768 := of_decide_eq_true (Bool.and_eq_true_iff.mp hu).1
  obtain ⟨i, hi, rfl⟩ := List.mem_map.mp hv
  rw [List.mem_range] at hi
  unfold clusterOf unitAt unitX unitY at *
  generalize u % 1024 = x at hx ⊢
  generalize u / 1024 = y
  have hm : (i + (1024 * y + 12 * (x / 12))) % 1024 = i + 12 * (x / 12) := by omega
  have hd : (i + (1024 * y + 12 * (x / 12))) / 1024 = y := by omega
  rw [hm, hd]
  omega

theorem ownerOf_cluster {u v : Nat} {s : State} (hu : isUnit u = true) (hv : isUnit v = true) (h : unitX v / 12 = unitX u / 12 ∧ unitY v = unitY u) :
    ownerOf s v = ownerOf s u := by
  obtain ⟨hx, hy⟩ := h
  unfold ownerOf inRects
  rw [hu, hv, hx, hy]

/-- Units of a list with one owner, reset at a command of queue q. -/
theorem resetUnits_back {us : List Nat} {o : Option Nat} (hn : us.Nodup) (s : State) (ho : ∀ v ∈ us, ownerOf s v = o) (q : Nat) :
    (∀ v ∈ us, Back s (resetUnits q us s) v) ∧ (resetUnits q us s).boot.unitResets = s.boot.unitResets ++ [(us, q)] := by
  refine ⟨fun v hv => (back_resetUnits hn s ho v hv).of_spares (spares_of_logic (s := forEach us resetUnit s) (t := resetUnits q us s) rfl v), ?_⟩
  exact congrArg (· ++ [(us, q)]) (congrArg Boot.unitResets (boot_resetUnits us s))

section
variable {s : State} {q : Nat}

/-- The unit that the command at the head of queue q names. -/
def headUnit (s : State) (q : Nat) : Nat := bitsOf (headCmd s q).a0.toNat 19 0

theorem exec_rstUnit (ht : Taken s q 0x40) (hr : resettable s (headUnit s q) = true) (hd : fieldDown s (fieldOf (headUnit s q)) = false) :
    Answers (exec (.rstUnit q) s) (fun w => Back s w (headUnit s q) ∧
      w.boot.unitResets = s.boot.unitResets ++ [([headUnit s q], q)]) := by
  have hx : exec (.rstUnit q) s = .next (resetUnits q [headUnit s q] (takeCmd q s)) := by
    show execRstUnit q s = _
    refine next_of_pass ht ?_
    refine (if_neg ?_).trans (if_neg ?_)
    · show ¬((!resettable s (headUnit s q)) = true)
      rw [hr]; decide
    · show ¬(fieldDown s (fieldOf (headUnit s q)) = true)
      rw [hd]; decide
  have ho : ∀ v ∈ [headUnit s q], ownerOf (takeCmd q s) v = ownerOf s (headUnit s q) := fun v hv => by
    rw [List.mem_singleton.mp hv]; rfl
  obtain ⟨hb, hu⟩ := resetUnits_back (List.pairwise_singleton _ _) (takeCmd q s) ho q
  exact ⟨_, hx, hb _ List.mem_cons_self, hu⟩

/-- The units of the cluster of u that are not fenced. -/
def clusterUnits (s : State) (u : Nat) : List Nat := (span (clusterOf u) (clusterOf u + 11)).filter (fun v => !unitFenced s v)

theorem mem_clusterUnits {u v : Nat} : v ∈ clusterUnits s u ↔ v ∈ span (clusterOf u) (clusterOf u + 11) ∧ unitFenced s v = false := by
  unfold clusterUnits
  rw [List.mem_filter, Bool.not_eq_true']

theorem nodup_clusterUnits (u : Nat) : (clusterUnits s u).Nodup := by
  refine List.Pairwise.filter _ (List.Pairwise.map _ ?_ List.nodup_range)
  exact fun a b hne h => hne (Nat.add_right_cancel h)

theorem exec_rstCluster (ht : Taken s q 0x41) (hu : isUnit (headUnit s q) = true) (hd : fieldDown s (fieldOf (headUnit s q)) = false)
    (hr : ∀ v ∈ span (clusterOf (headUnit s q)) (clusterOf (headUnit s q) + 11), unitFenced s v = false → resettable s v = true) :
    Answers (exec (.rstCluster q) s) (fun w =>
      (∀ v ∈ span (clusterOf (headUnit s q)) (clusterOf (headUnit s q) + 11), unitFenced s v = false → Back s w v) ∧
      w.boot.unitResets = s.boot.unitResets ++ [(clusterUnits s (headUnit s q), q)]) := by
  have hall : ∀ v ∈ clusterUnits s (headUnit s q), resettable s v = true := fun v hv =>
    hr v (mem_clusterUnits.mp hv).1 (mem_clusterUnits.mp hv).2
  have hx : exec (.rstCluster q) s = .next (resetUnits q (clusterUnits s (headUnit s q)) (takeCmd q s)) := by
    show execRstCluster q s = _
    refine next_of_pass ht ?_
    refine (if_neg ?_).trans (if_neg ?_)
    · show ¬((!isUnit (headUnit s q) || !(clusterUnits s (headUnit s q)).all (resettable s)) = true)
      rw [hu, List.all_eq_true.mpr hall]; decide
    · show ¬(fieldDown s (fieldOf (headUnit s q)) = true)
      rw [hd]; decide
  have ho : ∀ v ∈ clusterUnits s (headUnit s q), ownerOf (takeCmd q s) v = ownerOf s (headUnit s q) := fun v hv =>
    ownerOf_cluster hu (by
      have h := hall v hv
      unfold resettable at h
      simp only [Bool.and_eq_true] at h
      exact h.1.1.1) (unit_of_clusterSpan hu (mem_clusterUnits.mp hv).1)
  obtain ⟨hb, hres⟩ := resetUnits_back (nodup_clusterUnits _) (takeCmd q s) ho q
  exact ⟨_, hx, fun v hv hf => hb v (mem_clusterUnits.mpr ⟨hv, hf⟩), hres⟩

end

end Sys2Proof.Proofs
end

section
/-! PROOFS. Field and wafer resets, power-up and the boot's steps, the M-cores, the fault map in flash and the calibration table (15 R489,
R492 to R511). -/

namespace Sys2Proof.Proofs

open Sys2Proof Sys2Proof.Machine

/-- What one step of a fold makes true and no step undoes holds after the fold; I is what every step keeps. -/
theorem forEach_establishes {α : Type} {I Q : State → Prop} {f : α → State → State} (hI : ∀ a t, I t → I (f a t))
    (hpres : ∀ a t, I t → Q t → Q (f a t)) {g : α} (hest : ∀ t, I t → Q (f g t)) {l : List α} (hg : g ∈ l) {s : State} (hs : I s) :
    Q (forEach l f s) := by
  have hkeep : ∀ (l : List α) (t : State), I t → Q t → Q (forEach l f t) := by
    intro l
    induction l with
    | nil => exact fun t _ hq => hq
    | cons a l ih => exact fun t hi hq => ih _ (hI a t hi) (hpres a t hi hq)
  induction l generalizing s with
  | nil => exact absurd hg List.not_mem_nil
  | cons a l ih =>
    rw [forEach_cons]
    obtain rfl | hl := List.mem_cons.mp hg
    · exact hkeep l _ (hI g s hs) (hest s hs)
    · exact ih hl (hI a s hs)

/-! ## A field reset -/

theorem portCode_of_reset {s : State} {us : List Nat} {q u : Nat} (h : (us, q) ∈ s.boot.unitResets) (hu : u ∈ us) (hr : rowAbsent s u = false) :
    portCode s u = some nkReset := by
  have hreset : unitReset s u = true := by
    unfold unitReset
    refine Bool.or_eq_true_iff.mpr (Or.inl (List.any_eq_true.mpr ⟨(us, q), h, ?_⟩))
    exact List.contains_iff_mem.mpr hu
  unfold portCode
  rw [hr, hreset]
  rfl

theorem resetsEnd_of_one {s : State} {us : List Nat} {q : Nat} (h : s.boot.unitResets = [(us, q)]) :
    resetsEnd s = finish q 0 0 (modBoot s (fun b => { b with unitResets := [] })) := by
  unfold resetsEnd
  rw [h]
  rfl

/-- The field that the command at the head of queue q names. -/
def headField (s : State) (q : Nat) : Nat := bitsOf (headCmd s q).a0.toNat 29 24

theorem exec_rstField {s : State} {q : Nat} (ht : Taken s q 0x42) (hd : fieldDown s (headField s q) = false)
    (hp : ∀ p ∈ poldersIn s 2, polderIn s p (headField s q) = false ∧ transitIn s p (headField s q) = false) :
    Answers (exec (.rstField q) s) (fun w => (getField w (headField s q)).up = false ∧ (getField w (headField s q)).saved = true ∧
      (getField w (headField s q)).resetPhase = 1) := by
  have hany : (poldersIn s 2).any (fun p => polderIn s p (headField s q) || transitIn s p (headField s q)) = false := by
    rw [List.any_eq_false]
    intro p hm
    obtain ⟨h1, h2⟩ := hp p hm
    rw [h1, h2]
    decide
  have hx : execRstField q s = _ := hostCmd_of_taken ht
  refine ⟨_, hx.trans (congrArg Host.Outcome.next (if_neg ?_)), ?_⟩
  · show ¬((fieldDown s (headField s q) || (poldersIn s 2).any (fun p => polderIn s p (headField s q) || transitIn s p (headField s q))) = true)
    rw [hd, hany]
    decide
  · dsimp only
    rw [getField_of_shelf (shelf_armDown _), show fieldArg (headCmd s q) = headField s q from rfl, getField_modField]
    exact ⟨rfl, rfl, rfl⟩

theorem flights_mbxClear (n : Nat) (s : State) : (mbxClear n s).flights = s.flights := by
  unfold mbxClear raise
  dsimp only
  split
  · split <;> rfl
  · rfl

theorem getMbx_mbxClear (n : Nat) (s : State) : getMbx (mbxClear n s) n = {} := by
  unfold mbxClear raise
  dsimp only
  split
  · split <;> exact getMbx_setMbx s n {}
  · exact getMbx_setMbx s n {}

theorem exec_fieldResetDiscard {s : State} {f : Nat} (hf : f < 64) (h : (getField s f).resetPhase = 1) :
    Answers (exec (.fieldResetDiscard f) s) (fun w => (getField w f).resetPhase = 2 ∧ (∀ x ∈ w.flights, flightField x ≠ some f) ∧ getMbx w f = {}) := by
  refine ⟨_, (if_neg (Nat.not_le.mpr hf)).trans (if_neg (by rw [h]; decide)), ?_, ?_, ?_⟩
  · rw [getField_modField]
  · intro x hx
    have hx' : x ∈ (dropFlights f s).flights := flights_mbxClear f (fieldLogic f (dropFlights f s)) ▸ hx
    exact bne_iff_ne.mp (List.mem_filter.mp hx').2
  · exact getMbx_mbxClear f _

/-! ## A wafer reset -/

theorem polders_of_shelf {s t : State} (h : shelf t = shelf s) : t.polders = s.polders := (congrArg Shelf.polders h :)

theorem polders_modDom (s : State) (d : Nat) (g : Dom → Dom) : (modDom s d g).polders = s.polders := (rfl)

theorem polders_linksOff (s : State) : (linksOff s).polders = s.polders := by
  unfold linksOff
  dsimp only
  rw [polders_modDom]
  refine polders_of_shelf ?_
  simp

theorem polders_quadOff (q : Nat) (s : State) : (quadOff q s).polders = s.polders := by
  unfold quadOff
  dsimp only
  rw [polders_modDom, mecsReset_keeps (·.polders) (fun _ _ _ _ => rfl)]
  exact polders_of_shelf (shelf_spanOff _ s)

theorem getPolder_of_shelf {s t : State} (h : shelf t = shelf s) (p : Nat) : getPolder t p = getPolder s p := by
  unfold getPolder
  rw [polders_of_shelf h]

theorem state_weightsInvalid (a p : Nat) (s : State) : (getPolder (weightsInvalid a s) p).state = (getPolder s p).state := by
  unfold weightsInvalid
  dsimp only
  split
  · rw [getPolder_of_shelf ((shelf_weightsEvent ..).trans (shelf_raise ..))]
    by_cases hp : p = a
    · subst hp
      rw [getPolder_setPolder]
    · rw [getPolder_setPolder_ne _ _ _ _ hp]
  · rfl

theorem state_vacate (p : Nat) (s : State) : (getPolder (vacate p s) p).state = 0 := congrArg Polder.state (getPolder_setPolder s p _)

theorem state_vacate_ne {a p : Nat} (h : p ≠ a) (s : State) : (getPolder (vacate a s) p).state = (getPolder s p).state :=
  congrArg Polder.state (getPolder_setPolder_ne s a p _ h)

/-- Every polder is VACANT once each listed one has been vacated. -/
theorem vacant_of_vacated {l : List Nat} {s : State} (hk : tickPolders s = l) (p : Nat) :
    (getPolder (forEach l (fun p s => vacate p (weightsInvalid p s)) s) p).state = 0 := by
  have hstep : ∀ a t, (getPolder t p).state = 0 → (getPolder (vacate a (weightsInvalid a t)) p).state = 0 := by
    intro a t h
    by_cases ha : p = a
    · subst ha
      exact state_vacate p _
    · rw [state_vacate_ne ha, state_weightsInvalid, h]
  subst hk
  by_cases hp : p ∈ tickPolders s
  · exact forEach_establishes (I := fun _ => True) (Q := fun t => (getPolder t p).state = 0) (fun _ _ _ => trivial)
      (fun a t _ h => hstep a t h) (fun t _ => state_vacate p _) hp trivial
  · have h0 : (getPolder s p).state = 0 := congrArg Polder.state
      (mget_of_not_key ({} : Polder) s.polders p (fun e he hk => hp (List.mem_map.mpr ⟨e, he, hk⟩)))
    have hall : ∀ (l : List Nat) (t : State), (getPolder t p).state = 0 →
        (getPolder (forEach l (fun p s => vacate p (weightsInvalid p s)) t) p).state = 0 := by
      intro l
      induction l with
      | nil => exact fun t h => h
      | cons a l ih => exact fun t h => ih _ (hstep a t h)
    exact hall _ s h0

theorem tickPolders_configAbandon (s : State) : tickPolders (configAbandon s) = tickPolders s :=
  List.map_map

theorem tickPolders_closeAll (reason : Nat) (s : State) : tickPolders (closeAll reason s) = tickPolders s := (rfl)

theorem vacant_waferStop (k : Bool) (s : State) (p : Nat) : (getPolder (waferStop k s) p).state = 0 := by
  unfold waferStop
  extract_lets s1 s2 s3
  have h2 : (getPolder s2 p).state = 0 := vacant_of_vacated ((tickPolders_configAbandon _).trans (tickPolders_closeAll 2 s1)) p
  have h3 : s3.polders = s2.polders := (polders_linksOff _).trans (polders_of_shelf (shelf_forEach _ _ _ shelf_mbxClear))
  have h4 : (if k then mecsReset (List.range 32) (spanKeep s3) else forEach (List.range 4) quadOff (spanClear s3)).polders = s3.polders := by
    split
    · rw [mecsReset_keeps (·.polders) (fun _ _ _ _ => rfl)]
      exact polders_of_shelf (shelf_spanKeep s3)
    · exact (forEach_keeps (·.polders) polders_quadOff _ _).trans (polders_of_shelf (shelf_spanClear s3))
  unfold getPolder at *
  rw [h4, h3, h2]

/-- What the statement says of a module after a wafer reset. -/
def Cleared (w : State) : Prop :=
  w.tick.count = 0 ∧ (∀ p, (getPolder w p).state = 0) ∧ w.objs = [] ∧ w.conf.archive = [] ∧
    w.conf.archUsed = 0 ∧ ∀ k, (getQ w k).sqHead = 0 ∧ (getQ w k).sqTail = 0

theorem polders_fieldsOff (s : State) : (fieldsOff s).polders = s.polders := by
  unfold fieldsOff
  dsimp only
  rw [forEach_keeps (·.polders) (f := fun f s => modDom s f (fun d => { d with st := 0 })) (fun _ _ => rfl)]
  rfl

theorem cleared_waferClear (k : Bool) {s : State} (hv : ∀ p, (getPolder s p).state = 0) :
    Cleared (let w := waferClear k s; { w with tick := { w.tick with count := 0 } }) := by
  have h2 : (fieldsOff s).polders = s.polders := polders_fieldsOff s
  refine ⟨rfl, fun p => ?_, rfl, rfl, rfl, fun j => ?_⟩
  · show (mget ({} : Polder) ((fieldsOff s).polders.map (fun e => (e.1, { e.2 with dwCount := {} }))) p).state = 0
    rw [h2, mget_map (d := ({} : Polder)) (f := fun x : Polder => { x with dwCount := {} }) rfl]
    exact hv p
  · show (mget ({} : CmdQ) ((fieldsOff s).host.queues.map (fun e => (e.1, queueReset e.2))) j).sqHead = 0 ∧
      (mget ({} : CmdQ) ((fieldsOff s).host.queues.map (fun e => (e.1, queueReset e.2))) j).sqTail = 0
    rw [mget_map (d := ({} : CmdQ)) (f := queueReset) rfl]
    exact ⟨rfl, rfl⟩

theorem cleared_waferReset (k : Bool) (s : State) : Cleared (waferReset k s) := cleared_waferClear k (vacant_waferStop k s)

theorem Cleared.of_stable {s t : State} (h : Cleared s) (hs : stable t = stable s) : Cleared t := by
  obtain ⟨hc, hp, ho, ha, hu, hq⟩ := h
  have ht : t.tick.count = s.tick.count := (congrArg (fun k : State => k.tick.count) hs :)
  have hpo : t.polders = s.polders := (congrArg State.polders hs :)
  have hqs : t.host.queues = s.host.queues := (congrArg (fun k : State => k.host.queues) hs :)
  have hob : t.objs = s.objs := (congrArg State.objs hs :)
  have hco : t.conf = s.conf := (congrArg State.conf hs :)
  unfold Cleared getPolder getQ at *
  rw [ht, hpo, hqs, hob, hco]
  exact ⟨hc, hp, ho, ha, hu, hq⟩

end Sys2Proof.Proofs
end

section
/-! PROOFS. The boot: its network step, a wafer reset and a power-up that start it, and the steps that follow without a command
(15 R492 to R500, R510, R511). -/

namespace Sys2Proof.Proofs

open Sys2Proof Sys2Proof.Machine

/-- The boot's record but for the fault map and the calibration, which the steps of a boot read and mark. -/
def bootRun (b : Boot) : Boot := { b with fmap := {}, mapDue := false, cal := [], ucal := 0 }

section
variable {a b : Boot} (h : bootRun a = bootRun b)
include h
theorem phase_of_run : a.phase = b.phase := (congrArg Boot.phase h :)
theorem ready_of_run : a.ready = b.ready := (congrArg Boot.ready h :)
theorem runB_of_run : a.runB = b.runB := (congrArg Boot.runB h :)
theorem mc0_of_run : a.mc0 = b.mc0 := (congrArg Boot.mc0 h :)
theorem mc1_of_run : a.mc1 = b.mc1 := (congrArg Boot.mc1 h :)
end

theorem boot_of_shelf {s t : State} (h : shelf t = shelf s) : t.boot = s.boot := (congrArg Shelf.boot h :)

theorem boot_of_kept {s t : State} (h : kept t = kept s) : t.boot = s.boot := (congrArg (fun k : Boot × Power × Tick => k.1) h :)

theorem bootRun_bootCal (s : State) : bootRun (bootCal s).boot = bootRun s.boot := by
  unfold bootCal
  split
  · rfl
  · split
    · rfl
    · rw [boot_of_shelf (shelf_raise ..)]
      rfl

theorem bootRun_fieldBoot (f : Nat) (s : State) : bootRun (fieldBoot f s).boot = bootRun s.boot := by
  unfold fieldBoot
  split <;> rfl

theorem boot_bootFail (err : Nat) (s : State) : (bootFail err s).boot = { s.boot with phase := 7, err := BitVec.ofNat 3 err, ready := false } := by
  unfold bootFail
  extract_lets s1
  have h1 : s1.boot = s.boot := by
    unfold s1
    split
    · rfl
    · exact boot_of_kept (kept_linksOff s)
  clear_value s1
  show { s1.boot with phase := 7, err := BitVec.ofNat 3 err, ready := false } = _
  rw [h1]

/-- The fields come on once the boot's clock runs. -/
def networkUp (s : State) : State :=
  forEach (List.range 64) fieldBoot (calApply (fun k => decide (k ≤ 3)) (bootCal (mapChange (fun m => { m with bootSeq := m.bootSeq + 1 })
    (modBoot (stopTicks s) (fun b => { b with phase := 2, err := 0, ready := false, wave := 0 })))))

theorem bootRun_networkUp (s : State) :
    bootRun (networkUp s).boot = bootRun { s.boot with phase := 2, err := 0, ready := false, wave := 0 } :=
  (forEach_keeps (fun t => bootRun t.boot) bootRun_fieldBoot _ _).trans (bootRun_bootCal _)

/-- The network step goes on with the fields up, or fails. -/
theorem bootNetwork_cases (s : State) : bootNetwork s = networkUp s ∨ ∃ t, bootNetwork s = bootFail 3 t ∧
    bootRun t.boot = bootRun { s.boot with phase := 2, err := 0, ready := false, wave := 0 } := by
  unfold bootNetwork
  dsimp only
  split
  · exact Or.inr ⟨_, rfl, rfl⟩
  · split
    · exact Or.inr ⟨_, rfl, bootRun_networkUp s⟩
    · exact Or.inl rfl

/-- A boot in its network step, or failed. -/
def Booting (w : State) : Prop := w.boot.ready = false ∧ (w.boot.phase = 2 ∨ w.boot.phase = 7)

theorem booting_bootFail (err : Nat) (s : State) : Booting (bootFail err s) := by
  unfold Booting
  rw [boot_bootFail]
  exact ⟨rfl, Or.inr rfl⟩

theorem booting_bootNetwork (s : State) : Booting (bootNetwork s) := by
  obtain h | ⟨t, h, -⟩ := bootNetwork_cases s
  · rw [h]
    exact ⟨ready_of_run (bootRun_networkUp s), Or.inl (phase_of_run (bootRun_networkUp s))⟩
  · rw [h]
    exact booting_bootFail 3 t

/-- The image and the M-cores that run a boot. -/
def bootCores (b : Boot) : Bool × Bool × Bool := (b.runB, b.mc0, b.mc1)

theorem bootCores_of_run {a b : Boot} (h : bootRun a = bootRun b) : bootCores a = bootCores b := by
  unfold bootCores
  rw [runB_of_run h, mc0_of_run h, mc1_of_run h]

theorem bootCores_bootNetwork (s : State) : bootCores (bootNetwork s).boot = bootCores s.boot := by
  obtain h | ⟨t, h, ht⟩ := bootNetwork_cases s
  · rw [h]
    exact (bootCores_of_run (bootRun_networkUp s)).trans rfl
  · rw [h, boot_bootFail]
    exact (bootCores_of_run ht :)

/-! ## The fields of the network step -/

/-- What the boot makes of a field whose domain and PLL are good. -/
def FieldOn (g : Nat) (w : State) : Prop :=
  (getField w g).up = true ∧ (getField w g).step = 3 ∧ (getField w g).held = true ∧ (getDom w g).st = 1

theorem fieldOn_fieldBoot {g : Nat} (hg : Config.fieldGood g = true) (s : State) : FieldOn g (fieldBoot g s) := by
  unfold fieldBoot FieldOn
  rw [if_pos hg, getField_modDom, getField_modField, getDom_modDom]
  exact ⟨rfl, rfl, rfl, rfl⟩

theorem fieldOn_fieldBoot_ne {f g : Nat} (h : g ≠ f) {s : State} (hs : FieldOn g s) : FieldOn g (fieldBoot f s) := by
  unfold fieldBoot
  split
  · unfold FieldOn
    rw [getField_modDom, getField_modField_ne _ _ h, show getDom (modDom (modField s f _) f _) g = getDom s g from getDom_setDom_ne _ _ _ _ h]
    exact hs
  · exact hs

theorem fieldOn_networkUp {g : Nat} (hg : g < 64) (hgood : Config.fieldGood g = true) (s : State) : FieldOn g (networkUp s) := by
  refine forEach_establishes (I := fun _ => True) (fun _ _ _ => trivial) (fun f t _ h => ?_) (fun t _ => fieldOn_fieldBoot hgood t)
    (List.mem_range.mpr hg) trivial
  by_cases hf : g = f
  · subst hf
    exact fieldOn_fieldBoot hgood t
  · exact fieldOn_fieldBoot_ne hf h

theorem fieldOn_bootNetwork {s : State} (h : (bootNetwork s).boot.phase = 2) {g : Nat} (hg : g < 64) (hgood : Config.fieldGood g = true) :
    FieldOn g (bootNetwork s) := by
  obtain hn | ⟨t, hn, -⟩ := bootNetwork_cases s
  · rw [hn]
    exact fieldOn_networkUp hg hgood s
  · rw [hn, boot_bootFail] at h
    exact absurd (show (7 : BitVec 3) = 2 from h) (by decide)

/-! ## Wafer reset and reset input -/

theorem exec_rstWafer {s : State} {q : Nat} (ht : Taken s q 0x43) :
    Answers (exec (.rstWafer q) s) (fun w => Booting w ∧ Cleared w) := by
  have hx : execRstWafer q s = _ := hostCmd_of_taken ht
  exact ⟨_, hx, booting_bootNetwork _, (cleared_waferReset _ _).of_stable (stable_bootNetwork _)⟩

theorem resetHeld_waferClear (k : Bool) (s : State) : (waferClear k s).power.resetHeld = s.power.resetHeld := by
  unfold waferClear
  extract_lets mifs s1
  have h1 : s1.power.resetHeld = s.power.resetHeld := (congrArg (fun k : Boot × Power × Tick => k.2.1.resetHeld) (kept_fieldsOff s) :)
  clear_value s1
  exact h1

theorem resetHeld_waferReset (k : Bool) (s : State) : (waferReset k s).power.resetHeld = s.power.resetHeld := by
  unfold waferReset
  extract_lets s1
  have h1 : s1.power.resetHeld = s.power.resetHeld :=
    (resetHeld_waferClear k _).trans (congrArg (fun k : Boot × Power × Tick => k.2.1.resetHeld) (kept_waferStop k s) :)
  clear_value s1
  exact h1

/-- What a start keeps of power. -/
def powerPins (s : State) : Bool × Bool × Bool := (s.power.resetHeld, s.power.shed, s.power.pwrGood)

theorem powerPins_of_stable {s t : State} (h : stable t = stable s) : powerPins t = powerPins s :=
  (congrArg (fun k : State => powerPins k) h :)

/-- The module after a release of RESET_N at which Marrow's clock can run. -/
def resetStart (s : State) : State :=
  modPower (waferReset false (if s.power.shed then { s with ctxs := [] } else s)) (fun w => { w with shed := false, pwrGood := true })

theorem powerPins_started (w : State) :
    powerPins (modPower w (fun p => { p with shed := false, pwrGood := true })) = (w.power.resetHeld, false, true) := (rfl)

theorem powerPins_resetStart {s : State} (h : s.power.resetHeld = false) : powerPins (resetStart s) = (false, false, true) := by
  unfold resetStart
  rw [powerPins_started, resetHeld_waferReset]
  split <;> exact congrArg (fun b => (b, false, true)) h

theorem Cleared.modPower {w : State} (h : Cleared w) (g : Power → Power) : Cleared (modPower w g) := h

theorem cleared_resetStart (s : State) : Cleared (resetStart s) := (cleared_waferReset false _).modPower _

/-- RESET_N released, before the wafer reset. -/
def released (s : State) : State := modPower s (fun w => { w with alert := false, tripped := false, resetHeld := false, mgcTemp := 0 })

theorem resetInput_eq (s : State) : resetInput s =
    if s.boot.phase = 7 && s.boot.err != 3 then bootFail 4 (released s)
    else bootNetwork (if s.power.shed then restoreSave (examineSaves (resetStart (released s))) else resetStart (released s)) := (rfl)

theorem resetInput_starts (s : State) : Booting (resetInput s) ∧ (resetInput s).power.resetHeld = false ∧
    (s.boot.phase ≠ 7 → Cleared (resetInput s) ∧ (resetInput s).power.shed = false ∧ (resetInput s).power.pwrGood = true) := by
  rw [resetInput_eq]
  split
  case isTrue h =>
    have hp : (s.boot.phase = 7) := of_decide_eq_true (Bool.and_eq_true_iff.mp h).1
    exact ⟨booting_bootFail 4 _, (congrArg (·.1) (powerPins_of_stable (stable_bootFail 4 (released s))) :), fun hn => absurd hp hn⟩
  case isFalse =>
    have hs : stable (bootNetwork (if s.power.shed then restoreSave (examineSaves (resetStart (released s))) else resetStart (released s))) =
        stable (resetStart (released s)) := by
      rw [stable_bootNetwork]
      split
      · rw [stable_restoreSave, stable_examineSaves]
      · rfl
    have hp := (powerPins_of_stable hs).trans (powerPins_resetStart (s := released s) rfl)
    exact ⟨booting_bootNetwork _, (congrArg (·.1) hp :), fun _ => ⟨(cleared_resetStart _).of_stable hs, (congrArg (·.2.1) hp :), (congrArg (·.2.2) hp :)⟩⟩

theorem exec_resetInput {s : State} (ha : s.power.ao = true) (hp : 2 ≤ s.boot.phase.toNat)
    (hs : s.power.shed = true → openSave s.power = none) :
    exec .resetInput s = .next (resetInput s) := by
  refine (if_neg ?_).trans (if_neg ?_)
  · rw [ha, decide_eq_false (Nat.not_lt.mpr hp)]
    decide
  · intro h
    obtain ⟨h1, h2⟩ := Bool.and_eq_true_iff.mp h
    rw [hs h1] at h2
    exact Bool.false_ne_true h2

/-! ## Power-up -/

/-- What the first step of a power-up boot leaves. -/
theorem powerBoot_starts (s : State) : (powerBoot s).power.ao = s.power.ao ∧ (powerBoot s).power.inputOpen = false ∧
    (if Config.shallotGood then (powerBoot s).boot.phase = 1 ∧ (powerBoot s).sec.dik = dikOf s.sec.secret ∧
        (powerBoot s).sec.keyRegs = dikOf s.sec.secret
      else (powerBoot s).boot.phase = 7 ∧ (powerBoot s).boot.err = 1 ∧ (powerBoot s).power.alert = true) := by
  unfold powerBoot
  by_cases h : Config.shallotGood = true
  · rw [if_pos h]
    simp only [h]
    exact ⟨rfl, rfl, rfl, rfl, rfl⟩
  · simp only [Bool.not_eq_true] at h
    simp only [h, Bool.not_false, if_true, Bool.false_eq_true, if_false]
    have hs := stable_bootFail 1 (modPower s (fun w => { w with inputOpen := false }))
    refine ⟨(congrArg (fun k : State => k.power.ao) hs :), (congrArg (fun k : State => k.power.inputOpen) hs :), ?_, ?_, rfl⟩
    · rw [boot_bootFail]
    · rw [boot_bootFail]
      rfl

theorem exec_powerUp {s : State} (h : s.power.ao = false ∨ (s.power.shed = true ∧ s.power.tripped = false ∧ openSave s.power = none) ∨
      (s.power.shed = false ∧ (s.power.inputOpen = true ∨ s.boot.phase = 0))) :
    Answers (exec .powerUp s) (fun w => w.power.ao = true ∧ w.power.inputOpen = false ∧
      (if Config.shallotGood then w.boot.phase = 1 ∧ w.sec.dik = dikOf s.sec.secret ∧ w.sec.keyRegs = dikOf s.sec.secret
        else w.boot.phase = 7 ∧ w.boot.err = 1 ∧ w.power.alert = true) ∧ (s.power.ao = false → w.dbg.ir = 2)) := by
  have hstart := powerBoot_starts (modPower (powerOff s) (fun w => { w with ao := true }))
  obtain ⟨ha, hi, hb⟩ := hstart
  show Answers (execPowerUp s) _
  unfold execPowerUp
  cases hao : s.power.ao with
  | false => exact ⟨_, rfl, ha, hi, hb, fun _ => rfl⟩
  | true =>
    obtain h | ⟨hs, ht, ho⟩ | ⟨hs, hr⟩ := h
    · exact absurd (hao.symm.trans h) (by decide)
    · rw [hs, ht, ho]
      exact ⟨_, rfl, ha, hi, hb, fun h => absurd h (by decide)⟩
    · rw [hs]
      cases hin : s.power.inputOpen with
      | true => exact ⟨_, rfl, ha, hi, hb, fun h => absurd h (by decide)⟩
      | false =>
        have hp : s.boot.phase = 0 := hr.resolve_left (by rw [hin]; decide)
        rw [hp]
        obtain ⟨ha', hi', hb'⟩ := powerBoot_starts s
        exact ⟨_, rfl, ha'.trans hao, hi', hb', fun h => absurd h (by decide)⟩

end Sys2Proof.Proofs
end

section
/-! PROOFS. The steps of a boot that follow on steps without a command: the images, the memories, the waves (15 R493, R494). -/

namespace Sys2Proof.Proofs

open Sys2Proof Sys2Proof.Machine

/-! ## Step 2: the images -/

theorem boot_raise (code : Nat) (p c u : Option Nat) (arg : Nat) (s : State) : (raise code p c u arg s).boot = s.boot :=
  boot_of_shelf (shelf_raise ..)

theorem boot_examineSaves (s : State) : (examineSaves s).boot = s.boot := by
  unfold examineSaves
  extract_lets arg s0 s1
  have h1 : s1.boot = s.boot := by
    unfold s1
    split
    · rfl
    · split
      · exact boot_raise ..
      · rfl
  clear_value s1
  refine (boot_of_shelf (shelf_eventsByCode ..)).trans ?_
  split
  · exact h1
  · exact (boot_raise ..).trans h1

theorem bootRun_restoreSave (s : State) : bootRun (restoreSave s).boot = bootRun s.boot := by
  unfold restoreSave
  split <;> rfl

/-- The image of a boot loaded, with the M-cores that run. -/
def imageLoaded (isB : Bool) (s : State) : State :=
  let img := if isB then s.boot.imgB else s.boot.imgA
  let other := if isB then s.boot.imgA else s.boot.imgB
  modBoot s (fun b => { b with
    runB := isB, svnRun := img.svn, marrowAlt := decide (img.version < other.version), fmap := powerMap s, mapDue := true,
    mc0 := Config.mcoreGood 0, mc1 := Config.mcoreGood 1, single := !(Config.mcoreGood 0 && Config.mcoreGood 1) })

/-- The start of Marrow: the saves are examined and restored. -/
def marrowStart (s : State) : State :=
  restoreSave (examineSaves (modPower (if s.boot.marrowAlt then raise 0x02 none none none 0 s else s) (fun w => { w with pwrGood := true })))

theorem bootImages_none {s : State} (h : chooseImage s = none) : bootImages s = bootFail 2 s := by
  unfold bootImages
  rw [h]

theorem bootImages_some {s : State} {isB : Bool} (h : chooseImage s = some isB) : bootImages s =
    if !Config.mcoreGood 0 && !Config.mcoreGood 1 then bootFail 4 (imageLoaded isB s) else bootNetwork (marrowStart (imageLoaded isB s)) := by
  unfold bootImages
  rw [h]
  rfl

theorem bootRun_marrowStart (s : State) : bootRun (marrowStart s).boot = bootRun s.boot := by
  unfold marrowStart
  rw [bootRun_restoreSave, boot_examineSaves]
  split
  · exact congrArg bootRun (boot_raise 0x02 none none none 0 s)
  · rfl

theorem pwrGood_marrowStart (s : State) : (marrowStart s).power.pwrGood = true :=
  (congrArg (·.2.2) (powerPins_of_stable ((stable_restoreSave _).trans (stable_examineSaves _))) :)

theorem booting_bootImages (s : State) : Booting (bootImages s) := by
  cases h : chooseImage s with
  | none =>
    rw [bootImages_none h]
    exact booting_bootFail 2 s
  | some isB =>
    rw [bootImages_some h]
    split
    · exact booting_bootFail 4 _
    · exact booting_bootNetwork _

theorem bootCores_bootImages {s : State} {isB : Bool} (h : chooseImage s = some isB) :
    bootCores (bootImages s).boot = (isB, Config.mcoreGood 0, Config.mcoreGood 1) := by
  rw [bootImages_some h]
  split
  · rw [boot_bootFail]
    rfl
  · rw [bootCores_bootNetwork, bootCores_of_run (bootRun_marrowStart _)]
    rfl

theorem bootImages_noCore {s : State} {isB : Bool} (h : chooseImage s = some isB) (h0 : Config.mcoreGood 0 = false)
    (h1 : Config.mcoreGood 1 = false) : (bootImages s).boot.phase = 7 ∧ (bootImages s).boot.err = 4 := by
  rw [bootImages_some h, if_pos (by rw [h0, h1]; decide), boot_bootFail]
  exact ⟨rfl, rfl⟩

theorem bootImages_runs {s : State} {isB : Bool} (h : chooseImage s = some isB) (hp : (bootImages s).boot.phase = 2) :
    (bootImages s).power.pwrGood = true ∧ ∀ g, g < 64 → Config.fieldGood g = true → FieldOn g (bootImages s) := by
  rw [bootImages_some h] at hp ⊢
  split at hp
  case isTrue =>
    rw [boot_bootFail] at hp
    exact absurd (show (7 : BitVec 3) = 2 from hp) (by decide)
  case isFalse hm =>
    rw [if_neg hm]
    exact ⟨(congrArg (·.2.2) (powerPins_of_stable (stable_bootNetwork _)) :).trans (pwrGood_marrowStart _),
      fun g hg hgood => fieldOn_bootNetwork hp hg hgood⟩

/-! ## Step 3 to 4: the memories -/

theorem getDom_modDom_ne (s : State) {d k : Nat} (f : Dom → Dom) (h : k ≠ d) : getDom (modDom s d f) k = getDom s k :=
  getDom_setDom_ne _ _ _ _ h

theorem domOn_of_getDom {s t : State} {d : Nat} (h : getDom t d = getDom s d) : domOn t d = domOn s d := by
  unfold domOn
  rw [h]

theorem getDom_modBoot (s : State) (f : Boot → Boot) (d : Nat) : getDom (modBoot s f) d = getDom s d := (rfl)

theorem stackBits_modBoot (s : State) (f : Boot → Boot) : (modBoot s f).stackBits = s.stackBits := (rfl)

theorem boot_spanTrain (p : Nat) (s : State) : (spanTrain p s).boot = s.boot := by
  unfold spanTrain
  split <;> rfl

theorem boot_quadOn (q : Nat) (s : State) : (quadOn q s).boot = s.boot :=
  (forEach_keeps (·.boot) boot_spanTrain _ _).trans (mecsReset_keeps (·.boot) (fun _ _ _ _ => rfl) _ _)

theorem getDom_quadOn (q d : Nat) (s : State) :
    getDom (quadOn q s) d = getDom (modDom s (96 + q) (fun x => { x with st := 1, regFault := false })) d := by
  unfold quadOn
  dsimp only
  rw [forEach_keeps (getDom · d) (fun p t => getDom_spanTrain p t d), mecsReset_keeps (getDom · d) (fun _ _ _ _ => rfl)]

/-- The quadrants that are off come on. -/
def quadsOn (s : State) : State := forEach (List.range 4) (fun q s => if domOn s (96 + q) then s else quadOn q s) s

theorem boot_quadsOn (s : State) : (quadsOn s).boot = s.boot :=
  forEach_keeps (·.boot) (f := fun q s => if domOn s (96 + q) then s else quadOn q s) (fun q t => by
    split
    · rfl
    · exact boot_quadOn q t) _ _

theorem domOn_quadOn_self (q : Nat) (s : State) : domOn (quadOn q s) (96 + q) = true := by
  unfold domOn
  rw [getDom_quadOn, getDom_modDom]
  rfl

theorem domOn_quadsOn {k : Nat} (hk : k < 4) (s : State) : domOn (quadsOn s) (96 + k) = true := by
  refine forEach_establishes (I := fun _ => True) (Q := fun t => domOn t (96 + k) = true) (fun _ _ _ => trivial) (fun q t _ h => ?_)
    (fun t _ => ?_) (List.mem_range.mpr hk) trivial
  · split
    · exact h
    · by_cases hq : k = q
      · subst hq
        exact domOn_quadOn_self k t
      · rw [domOn_of_getDom ((getDom_quadOn q _ t).trans (getDom_modDom_ne _ _ (by omega)))]
        exact h
  · split
    · assumption
    · exact domOn_quadOn_self k t

theorem getDom_stacksStart_ne {d : Nat} (hd : 96 ≤ d) (s : State) : getDom (stacksStart s) d = getDom s d := by
  have h : ∀ (l : List Nat) (t : State), (∀ n ∈ l, n < 32) →
      getDom (forEach l (fun n s => if s.boot.fmap.stackBits.getLsbD n then s else stackStart n s) t) d = getDom t d := by
    intro l
    induction l with
    | nil => exact fun _ _ => rfl
    | cons n l ih =>
      intro t hl
      have hn := hl n List.mem_cons_self
      rw [forEach_cons, ih _ (fun m hm => hl m (List.mem_cons_of_mem _ hm))]
      split
      · rfl
      · exact getDom_modDom_ne _ _ (by omega)
  exact h _ { s with stackBits := 0 } (fun n hn => List.mem_range.mp hn)

theorem stackBits_stacksStart (s : State) : (stacksStart s).stackBits = 0 :=
  (forEach_keeps (·.stackBits) (f := fun n s => if s.boot.fmap.stackBits.getLsbD n then s else stackStart n s) (fun n t => by
    split <;> rfl) _ _).trans rfl

/-- A stack that the fault map does not show as FAILED trains. -/
theorem stacksStart_trains {s : State} {n : Nat} (hn : n < 32) (h : s.boot.fmap.stackBits.getLsbD n = false) :
    (getDom (stacksStart s) (64 + n)).st = 3 := by
  refine forEach_establishes (I := fun t => t.boot.fmap.stackBits.getLsbD n = false) (Q := fun t => (getDom t (64 + n)).st = 3)
    (fun m t ht => ?_) (fun m t _ hq => ?_) (fun t ht => ?_) (List.mem_range.mpr hn) h
  · split <;> exact ht
  · split
    · exact hq
    · by_cases hm : n = m
      · subst hm
        rw [stackStart, getDom_modDom]
      · rw [stackStart, getDom_modDom_ne _ _ (by omega)]
        exact hq
  · rw [if_neg (by rw [ht]; decide), stackStart, getDom_modDom]

theorem stackBits_setPort (s : State) (p : Nat) (x : NPort) : (setPort s p x).stackBits = s.stackBits := by
  unfold setPort
  split <;> rfl

theorem stackBits_linkTrain (p : Nat) (s : State) : (linkTrain p s).stackBits = s.stackBits := by
  unfold linkTrain
  split
  · exact stackBits_setPort ..
  · rfl

theorem stackBits_linksOn (s : State) : (linksOn s).stackBits = s.stackBits := (forEach_keeps (·.stackBits) stackBits_linkTrain _ _).trans rfl

theorem getDom_linksOn (s : State) (d : Nat) :
    getDom (linksOn s) d = getDom (modDom s 100 (fun x => { x with st := 1, regFault := false })) d :=
  forEach_keeps (getDom · d) (fun p t => getDom_linkTrain p t d) _ _

/-- The steps of the memories up to the power of the quadrants. -/
def memoriesLoaded (s : State) : State :=
  let s := fcLoad 0 63 s
  let s : State := { s with epoch := { bank0 := bankNow s {} } }
  let s := forEach (List.range 64) (fun f s => if (getField s f).up then s else recross f s) s
  quadsOn (calApply (fun k => decide (k ≤ 5)) s)

theorem fmap_memoriesLoaded (s : State) : (memoriesLoaded s).boot.fmap = s.boot.fmap := by
  have hc : ∀ t, (calApply (fun k => decide (k ≤ 5)) t).boot.fmap = t.boot.fmap := fun _ => rfl
  have hr : ∀ t, (forEach (List.range 64) (fun f s => if (getField s f).up then s else recross f s) t).boot = t.boot :=
    forEach_keeps (·.boot) (f := fun f s => if (getField s f).up then s else recross f s) (fun f t => by
      split
      · rfl
      · exact boot_of_shelf (shelf_recross f t)) _
  have hl : (fcLoad 0 63 s).boot = s.boot := congrArg Steady.boot (steady_fcLoad 0 63 s)
  unfold memoriesLoaded
  dsimp only
  rw [boot_quadsOn, hc, hr]
  exact congrArg Boot.fmap hl

/-- Nothing but the boot's record changes as the training is found done. -/
theorem memoriesDone_eq (s : State) : ∃ b, memoriesDone s = modBoot s (fun _ => b) ∧ b.fmap = s.boot.fmap ∧ b.mapDue = s.boot.mapDue ∧
    (s.boot.phase = 3 → b.phase = 3 ∨ b.phase = 4) := by
  unfold memoriesDone
  split
  · exact ⟨_, rfl, rfl, rfl, fun _ => Or.inr rfl⟩
  · exact ⟨s.boot, rfl, rfl, rfl, Or.inl⟩

/-- The step of the memories: its training begins. -/
def training (s : State) : State := modBoot s (fun b => { b with phase := 3 })

theorem memoriesDone_training (s : State) : ∃ b, memoriesDone (training s) = modBoot s (fun _ => b) ∧ (b.phase = 3 ∨ b.phase = 4) := by
  obtain ⟨b, hb, -, -, hp⟩ := memoriesDone_eq (training s)
  exact ⟨b, hb, hp rfl⟩

theorem bootMemories_eq (s : State) : ∃ b, bootMemories s = modBoot (linksOn (stacksStart (memoriesLoaded s))) (fun _ => b) ∧
    (b.phase = 3 ∨ b.phase = 4) := by
  have h : bootMemories s = memoriesDone (training (linksOn (stacksStart (memoriesLoaded s)))) := by
    unfold bootMemories memoriesLoaded quadsOn training
    rfl
  rw [h]
  exact memoriesDone_training _

theorem getDom_memories (s : State) (d : Nat) : getDom (bootMemories s) d =
    getDom (modDom (stacksStart (memoriesLoaded s)) 100 (fun x => { x with st := 1, regFault := false })) d := by
  obtain ⟨b, hb, -⟩ := bootMemories_eq s
  rw [hb]
  exact (getDom_modBoot _ _ d).trans (getDom_linksOn _ d)

theorem phase_bootMemories (s : State) : (bootMemories s).boot.phase = 3 ∨ (bootMemories s).boot.phase = 4 := by
  obtain ⟨b, hb, hp⟩ := bootMemories_eq s
  rw [hb]
  exact hp

theorem domOn_bootMemories_links (s : State) : domOn (bootMemories s) 100 = true := by
  unfold domOn
  rw [getDom_memories, getDom_modDom]
  rfl

theorem domOn_bootMemories_quad {k : Nat} (hk : k < 4) (s : State) : domOn (bootMemories s) (96 + k) = true := by
  rw [domOn_of_getDom ((getDom_memories s (96 + k)).trans ((getDom_modDom_ne _ _ (by omega)).trans (getDom_stacksStart_ne (by omega) _)))]
  exact domOn_quadsOn hk _

theorem bootMemories_stack {s : State} {n : Nat} (hn : n < 32) (h : s.boot.fmap.stackBits.getLsbD n = false) :
    (getDom (bootMemories s) (64 + n)).st = 3 ∧ (bootMemories s).stackBits.getLsbD n = false := by
  constructor
  · rw [getDom_memories, getDom_modDom_ne _ _ (by omega)]
    exact stacksStart_trains hn (by rw [fmap_memoriesLoaded]; exact h)
  · obtain ⟨b, hb, -⟩ := bootMemories_eq s
    rw [hb, stackBits_modBoot, stackBits_linksOn, stackBits_stacksStart]
    exact BitVec.getLsbD_zero

/-! ## Step 5: the waves -/

theorem mget_map_key {α : Type} {d : α} {f : α → α} (p : Nat → Bool) (hd : f d = d) (m : Map α) (k : Nat) :
    mget d (m.map (fun e => (e.1, if p e.1 then f e.2 else e.2))) k = if p k then f (mget d m k) else mget d m k := by
  induction m with
  | nil =>
    show d = if p k then f d else d
    rw [hd, ite_self]
  | cons e m ih =>
    rw [List.map_cons, mget, mget]
    by_cases h : e.1 = k
    · subst h
      rw [if_pos rfl, if_pos rfl]
    · rw [if_neg h, if_neg h, ih]

/-- The fields of the next wave. -/
def waveFields (s : State) : List Nat := (List.range (waveSize s)).map (s.boot.wave * waveSize s + ·)

theorem mem_waveFields {s : State} {g : Nat} (hl : s.boot.wave * waveSize s ≤ g) (hu : g < (s.boot.wave + 1) * waveSize s) : g ∈ waveFields s := by
  rw [Nat.add_mul, Nat.one_mul] at hu
  exact List.mem_map.mpr ⟨g - s.boot.wave * waveSize s, List.mem_range.mpr (by omega), by omega⟩

theorem boot_held (fs : List Nat) (s : State) : (forEach fs (fun f s => modField s f (fun x => { x with held := false })) s).boot = s.boot :=
  forEach_keeps (·.boot) (f := fun f s => modField s f (fun x => { x with held := false })) (fun _ _ => rfl) fs s

theorem held_of_mem {fs : List Nat} {g : Nat} (hg : g ∈ fs) (s : State) :
    (getField (forEach fs (fun f s => modField s f (fun x => { x with held := false })) s) g).held = false := by
  refine forEach_establishes (I := fun _ => True) (Q := fun t => (getField t g).held = false) (fun _ _ _ => trivial) (fun f t _ h => ?_)
    (fun t _ => ?_) hg trivial
  · by_cases hf : g = f
    · subst hf
      rw [getField_modField]
    · rw [getField_modField_ne _ _ hf]
      exact h
  · rw [getField_modField]

theorem boot_bootWave (s : State) : (bootWave s).boot = { s.boot with wave := s.boot.wave + 1 } :=
  (congrArg (fun b : Boot => { b with wave := b.wave + 1 }) (boot_held (waveFields s) s) :)

theorem held_bootWave {s : State} {g : Nat} (hg : g ∈ waveFields s) : (getField (bootWave s) g).held = false := held_of_mem hg s

/-- The units that a wave releases. -/
def waveUnit (s : State) (u : Nat) : Bool := isUnit u && (waveFields s).contains (fieldOf u)

theorem sram_bootWave {s : State} {u : Nat} (h : waveUnit s u = true) : (getCore (bootWave s) u).sram = [] := by
  have hm := mget_map_key (d := ({} : Core)) (f := fun c => { c with sram := [] }) (waveUnit s) rfl
    (forEach (waveFields s) (fun f s => modField s f (fun x => { x with held := false })) s).cores u
  rw [if_pos h] at hm
  exact congrArg Core.sram hm

theorem mem_bootWave {s : State} {u : Nat} (h : waveUnit s u = true) : (getMu (bootWave s) u).mem = [] := by
  have hm := mget_map_key (d := ({} : Mu)) (f := fun m => { m with mem := [] }) (waveUnit s) rfl
    (forEach (waveFields s) (fun f s => modField s f (fun x => { x with held := false })) s).mus u
  rw [if_pos h] at hm
  exact congrArg Mu.mem hm

/-! ## A boot in progress -/

theorem bootIdle_eq {s : State} (ha : s.power.ao = true) (hs : s.power.shed = false) (hr : s.boot.ready = false) : bootIdle s =
    if s.boot.phase = 1 then bootImages s else if s.boot.phase = 2 then bootMemories s
    else if s.boot.phase = 4 && !wavesDone s then bootWave s else s := by
  unfold bootIdle
  rw [ha, hs, hr]
  rfl

end Sys2Proof.Proofs
end

section
/-! PROOFS. The events of a boot and of the M-cores, the fault map in flash, the calibration table (15 R489, R491, R495 to R505). -/

namespace Sys2Proof.Proofs

open Sys2Proof Sys2Proof.Machine

/-! ## A stack's training -/

theorem exec_stackTraining {s : State} {n : Nat} (ok : Bool) (hn : n < 32) (hst : (getDom s (64 + n)).st = 3) (hd : domOn s (96 + n / 8) = true) :
    Answers (exec (.stackTraining n ok) s) (fun w => if ok then w.stackBits = setBit s.stackBits n ∧ (getDom w (64 + n)).st = 1
      else w.boot.fmap.stackBits.getLsbD n = true ∧ w.boot.mapDue = true ∧ (getDom w (64 + n)).st = 0) := by
  have hg : ¬((getDom s (64 + n)).st != 3 || !domOn s (96 + n / 8)) = true := by
    rw [hst, hd]
    decide
  have hx : exec (.stackTraining n ok) s = _ := (if_neg (Nat.not_le.mpr hn)).trans (if_neg hg)
  cases ok with
  | true =>
    refine ⟨_, hx, ?_⟩
    obtain ⟨b, hb, -⟩ := memoriesDone_eq (modMec (modDom { s with stackBits := setBit s.stackBits n } (64 + n) (fun d => { d with st := 1 })) n
      (fun m => { m with calTick := s.tick.count, calLeft := 0, tempCal := m.tempNow, scrubFrom := s.now, scrubBase := scrubbed m }))
    rw [if_pos rfl]
    refine ⟨congrArg (·.stackBits) hb, (congrArg (fun w => (getDom w (64 + n)).st) hb).trans ?_⟩
    exact congrArg Dom.st (getDom_modDom { s with stackBits := setBit s.stackBits n } (64 + n) (fun d => { d with st := 1 }))
  | false =>
    refine ⟨_, hx, ?_⟩
    obtain ⟨b, hb, hf, hm, -⟩ := memoriesDone_eq (stackOff n (mapChange (fun m => { m with stackBits := setBit m.stackBits n }) s))
    rw [if_neg (by decide)]
    refine ⟨(congrArg (fun w : State => w.boot.fmap.stackBits.getLsbD n) hb).trans ((congrArg (fun m : FaultMap => m.stackBits.getLsbD n) hf).trans
      (getLsbD_setBit_self hn _)), (congrArg (fun w : State => w.boot.mapDue) hb).trans hm, (congrArg (fun w => (getDom w (64 + n)).st) hb).trans ?_⟩
    exact congrArg Dom.st (getDom_stackOff n _)

/-! ## A field controller that does not start -/

/-- A field that is fenced, with no firmware in its controller. -/
def FieldLost (f : Nat) (w : State) : Prop :=
  fieldDown w f = true ∧ w.boot.fmap.fenced.getLsbD f = true ∧ w.boot.mapDue = true ∧ (getField w f).firmware = none

theorem FieldLost.of_same {f : Nat} {s t : State} (h : FieldLost f s) (hf : t.fields = s.fields) (hm : t.boot.fmap = s.boot.fmap)
    (hd : t.boot.mapDue = s.boot.mapDue) : FieldLost f t := by
  unfold FieldLost fieldDown fieldFenced getField at *
  rw [hf, hm, hd]
  exact h

theorem fields_linksOff (s : State) : (linksOff s).fields = s.fields := by
  unfold linksOff
  dsimp only
  rw [show ∀ (t : State) (d : Nat) (g : Dom → Dom), (modDom t d g).fields = t.fields from fun _ _ _ => rfl]
  refine fields_of_shelf ?_
  simp

theorem fields_bootFail (err : Nat) (s : State) : (bootFail err s).fields = s.fields := by
  unfold bootFail
  extract_lets s1
  have h1 : s1.fields = s.fields := by
    unfold s1
    split
    · rfl
    · exact fields_linksOff s
  clear_value s1
  exact h1

theorem fieldLost_fenced {f : Nat} (hf : f < 64) (s : State) : FieldLost f (modField (fenceField f s) f (fun x => { x with firmware := none })) := by
  have hb : (setBit s.boot.fmap.fenced f).getLsbD f = true := getLsbD_setBit_self hf _
  refine ⟨Bool.or_eq_true_iff.mpr (Or.inr hb), hb, rfl, ?_⟩
  rw [getField_modField]

theorem exec_fcStartTimeout {s : State} {f : Nat} (hf : f < 64) (hr : s.boot.ready = false)
    (hp : s.boot.phase = 2 ∨ s.boot.phase = 3 ∨ s.boot.phase = 4) (hd : fieldDown s f = false) :
    Answers (exec (.fcStartTimeout f) s) (FieldLost f) := by
  have hg : ¬((s.boot.ready || !([2, 3, 4].contains s.boot.phase) || fieldDown s f) = true) := by
    rw [hr, hd]
    obtain h | h | h := hp <;> rw [h] <;> decide
  refine ⟨_, (if_neg (Nat.not_le.mpr hf)).trans (if_neg hg), ?_⟩
  have hl := fieldLost_fenced hf s
  split
  · exact hl.of_same (fields_bootFail 3 _) (by rw [boot_bootFail]) (by rw [boot_bootFail])
  · split
    · exact hl
    · exact hl.of_same (fields_of_shelf (shelf_armDown _)) (congrArg Boot.fmap (boot_of_shelf (shelf_armDown _)))
        (congrArg Boot.mapDue (boot_of_shelf (shelf_armDown _)))

/-! ## The end of a boot -/

theorem cal_fenceRow (f r row : Nat) (s : State) : (fenceRow f r row s).boot.cal = s.boot.cal := by
  unfold fenceRow
  rw [boot_raise]
  rfl

theorem boot_remap (f : Nat) (s : State) : (remap f s).boot = s.boot := by
  unfold remap
  dsimp only
  split <;> rfl

theorem cal_bootRows (f : Nat) (s : State) : (bootRows f s).boot.cal = s.boot.cal :=
  (congrArg Boot.cal (boot_remap f _)).trans (forEach_keeps (fun t => t.boot.cal) (fun r t => cal_fenceRow f r 1 t) _ _)

theorem exec_bootDone {s : State} (faults : List SiteFault) (hr : s.boot.ready = false) (hp : s.boot.phase = 4) (hw : wavesDone s = true) :
    Answers (exec (.bootDone faults) s) (fun w => w.boot.ready = true ∧ w.boot.phase = 5 ∧ w.boot.waves = BitVec.ofNat 5 (bootWaves s)) := by
  have hg : ¬((s.boot.ready || s.boot.phase != 4 || !wavesDone s) = true) := by
    rw [hr, hp, hw]
    decide
  refine ⟨_, if_neg hg, ?_⟩
  dsimp only
  rw [boot_raise]
  refine ⟨rfl, rfl, congrArg (BitVec.ofNat 5) ?_⟩
  have hc : ∀ l fs, (forEach l bootRows (forEach fs bootFault s)).boot.cal = s.boot.cal := fun l fs =>
    (forEach_keeps (fun t => t.boot.cal) cal_bootRows l _).trans (forEach_keeps (fun t => t.boot.cal) (f := bootFault) (fun _ _ => rfl) fs s)
  unfold bootWaves
  rw [hc]

/-! ## The M-cores -/

theorem exec_mgcCoreLost {s : State} {m : Nat} (hm : m < 2) (h0 : s.boot.mc0 = true) (h1 : s.boot.mc1 = true) :
    Answers (exec (.mgcCoreLost m) s) (fun w => w.boot.single = true ∧ w.boot.mc0 = decide (m ≠ 0) ∧ w.boot.mc1 = decide (m ≠ 1) ∧
      w.boot.hbMisses = satInc s.boot.hbMisses) := by
  refine ⟨_, (if_neg (Nat.not_le.mpr hm)).trans (if_neg (by rw [h0, h1]; decide)), ?_⟩
  dsimp only
  rw [boot_raise]
  refine ⟨rfl, ?_, ?_, rfl⟩
  · show (s.boot.mc0 && m != 0) = decide (m ≠ 0)
    rw [h0, Bool.true_and]
    obtain rfl | rfl : m = 0 ∨ m = 1 := by omega
    · rfl
    · rfl
  · show (s.boot.mc1 && m != 1) = decide (m ≠ 1)
    rw [h1, Bool.true_and]
    obtain rfl | rfl : m = 0 ∨ m = 1 := by omega
    · rfl
    · rfl

theorem exec_mgcCoreRestart {s : State} {m : Nat} (hm : m < 2) (h0 : m = 0 → s.boot.mc0 = false) (h1 : m = 1 → s.boot.mc1 = false) :
    exec (.mgcCoreRestart m) s = .next { s with boot := { s.boot with mc0 := true, mc1 := true, single := false } } := by
  refine (if_neg (Nat.not_le.mpr hm)).trans (if_neg ?_)
  obtain rfl | rfl : m = 0 ∨ m = 1 := by omega
  · rw [if_pos rfl, h0 rfl]
    decide
  · rw [if_neg (by decide), h1 rfl]
    decide

/-! ## The fault map in flash -/

theorem fmapPut_newest {m : FaultMap} (x : Option FaultMap) {b : Boot} (h : fmapFlash b = some m) :
    (fmapPut x b).fmapA = some m ∨ (fmapPut x b).fmapB = some m := by
  unfold fmapFlash at h
  unfold fmapPut
  cases ha : b.fmapA with
  | none =>
    rw [ha] at h
    exact Or.inr h
  | some y =>
    cases hb : b.fmapB with
    | none =>
      rw [ha, hb] at h
      dsimp only at h ⊢
      rw [if_neg (by decide)]
      exact Or.inl h
    | some z =>
      rw [ha, hb] at h
      dsimp only at h ⊢
      by_cases hlt : y.updates < z.updates
      · rw [if_pos hlt] at h
        rw [if_pos (decide_eq_true hlt)]
        exact Or.inr h
      · rw [if_neg hlt] at h
        rw [if_neg (by rw [decide_eq_false hlt]; decide)]
        exact Or.inl h

theorem fmapPut_holds (x : Option FaultMap) (b : Boot) : (fmapPut x b).fmapA = x ∨ (fmapPut x b).fmapB = x := by
  unfold fmapPut
  extract_lets first
  split
  · exact Or.inl rfl
  · exact Or.inr rfl

/-- What a write of the fault map leaves. -/
theorem mapWrite_writes (ok : Bool) (s : State) :
    (∀ m, fmapFlash s.boot = some m → (mapWrite ok s).boot.fmapA = some m ∨ (mapWrite ok s).boot.fmapB = some m) ∧
    (if ok then ((mapWrite ok s).boot.fmapA = some s.boot.fmap ∨ (mapWrite ok s).boot.fmapB = some s.boot.fmap) ∧
        (mapWrite ok s).boot.mapDue = false ∧ (mapWrite ok s).boot.mapRetry = false
      else (mapWrite ok s).boot.mapRetry = true ∧ (mapWrite ok s).boot.flags = setBit s.boot.flags 5) := by
  cases ok with
  | true => exact ⟨fun m hm => fmapPut_newest (some s.boot.fmap) hm, fmapPut_holds _ _, rfl, rfl⟩
  | false => exact ⟨fun m hm => fmapPut_newest none hm, rfl, rfl⟩

/-! ## The calibration table -/

theorem userCal_calPut (t : List Byte) (b : Boot) : (userCal (calPut t b)).map (·.2) = some t ∧
    ∀ x, userCal b = some x → (calPut t b).userCalA = some x ∨ (calPut t b).userCalB = some x := by
  cases ha : b.userCalA with
  | none =>
    cases hb : b.userCalB with
    | none => simp [userCal, calPut, newerIsB, ha, hb]
    | some y => simp [userCal, calPut, newerIsB, ha, hb, Nat.not_lt.mpr (Nat.le_succ y.1)]
  | some x =>
    cases hb : b.userCalB with
    | none => simp [userCal, calPut, newerIsB, ha, hb]
    | some y =>
      by_cases h : x.1 < y.1
      · have h' : ¬(y.1 + 1 < y.1) := by omega
        simp [userCal, calPut, newerIsB, ha, hb, h, h']
      · simp [userCal, calPut, newerIsB, ha, hb, h]

theorem exec_calWrite {s : State} {q : Nat} (ht : Taken s q 0x49)
    (hs : sourceStatus (takeCmd q s) (bitsOf (headCmd s q).a1.toNat 40 0) (bitsOf (headCmd s q).a2.toNat 31 0) = none)
    {b : List Byte} (hb : rdN (takeCmd q s).dram (bitsOf (headCmd s q).a1.toNat 40 0) (bitsOf (headCmd s q).a2.toNat 31 0) = b)
    (hc : calStatus (takeCmd q s) b = 0) :
    exec (.calWrite q) s = .next (finish q 0 0 (modBoot (takeCmd q s) (calPut (b.take (field b 8 4))))) := by
  have hx : execCalWrite q s = _ := hostCmd_of_taken ht
  simp only [hs, hb, hc] at hx
  exact hx

/-- Settles O57: unit and cluster resets by what a reset does to a unit; wafer reset and power-up by what a start leaves; the boot's steps one
by one. -/
theorem resetsAndBootRun : Obligations.ResetsAndBootRun := by
  intro s q c t u f back booting cleared a n
  refine ⟨?rstUnit, ?rstCluster, fun us h hu hr => portCode_of_reset h hu hr, fun us h => resetsEnd_of_one h, fun ht hd hp => exec_rstField ht hd hp,
    fun f hf h => exec_fieldResetDiscard hf h, fun ht => exec_rstWafer ht, fun ha hp hs => ⟨_, exec_resetInput ha hp hs, resetInput_starts s⟩,
    fun h => exec_powerUp h, fun ha hs hr => ?boot, fun n ok hn hst hd => exec_stackTraining ok hn hst hd, fun f hf hr hp hd => exec_fcStartTimeout hf hr hp hd,
    fun faults hr hp hw => exec_bootDone faults hr hp hw, rfl, fun m hm h0 h1 => exec_mgcCoreLost hm h0 h1,
    fun m hm h0 h1 => exec_mgcCoreRestart hm h0 h1, fun ok => ?map, fun ht hs hc => ?calWrite, fun ht => ?calRead⟩
  case rstUnit => exact fun ht hr hd => exec_rstUnit ht hr hd
  case rstCluster => exact fun ht hu hd hr => exec_rstCluster ht hu hd hr
  case boot =>
    intro w
    have hw : w = _ := bootIdle_eq ha hs hr
    clear_value w
    subst hw
    refine ⟨fun hp => ?images, fun hp => ?memories, fun hp hd => ?wave, fun h => ?rest⟩
    case images =>
      rw [if_pos hp]
      refine ⟨booting_bootImages s, fun hi => ?_, fun isB hi => ?_⟩
      · rw [bootImages_none hi, boot_bootFail]
        exact ⟨rfl, rfl⟩
      · have hc := bootCores_bootImages hi
        have h0 : (bootImages s).boot.mc0 = Config.mcoreGood 0 := congrArg (·.2.1) hc
        have h1 : (bootImages s).boot.mc1 = Config.mcoreGood 1 := congrArg (·.2.2) hc
        exact ⟨congrArg (·.1) hc, h0, h1, fun g0 g1 => bootImages_noCore hi (h0.symm.trans g0) (h1.symm.trans g1), fun h2 => bootImages_runs hi h2⟩
    case memories =>
      rw [if_neg (by rw [hp]; decide), if_pos hp]
      exact ⟨phase_bootMemories s, domOn_bootMemories_links s, fun k hk => domOn_bootMemories_quad hk s, fun n hn h => bootMemories_stack hn h⟩
    case wave =>
      rw [if_neg (by rw [hp]; decide), if_neg (by rw [hp]; decide), if_pos (by rw [hp, hd]; decide), boot_bootWave]
      refine ⟨rfl, hp, fun g hl hu => ⟨held_bootWave (mem_waveFields hl hu), fun u hun hfu => ?_⟩⟩
      have hwu : waveUnit s u = true := Bool.and_eq_true_iff.mpr ⟨hun, List.contains_iff_mem.mpr (hfu ▸ mem_waveFields hl hu)⟩
      exact ⟨sram_bootWave hwu, mem_bootWave hwu⟩
    case rest =>
      obtain h | ⟨h, hd⟩ := h
      · rw [h]
        rfl
      · rw [h, hd]
        rfl
  case map =>
    exact ⟨fun hd hr => ⟨_, if_pos (by rw [hd, hr]; decide), mapWrite_writes ok s⟩, fun hr => ⟨_, if_pos hr, mapWrite_writes ok s⟩⟩
  case calWrite =>
    exact ⟨exec_calWrite ht hs rfl hc, userCal_calPut _ _⟩
  case calRead =>
    intro bs hb
    show execCalRead q s = _
    refine next_of_pass ht ?_
    exact copyCmd_of_fits hb

end Sys2Proof.Proofs
end

section
/-! PROOFS. The marks of a state: boot, the probes of each field and the fenced units. What follows a fault or a repair - events, halts, lost
frames, ended commands, the images - leaves them. -/

namespace Sys2Proof.Proofs

open Sys2Proof Sys2Proof.Machine

/-- What the marks of a state are made of. -/
structure Marks where
  boot : Boot
  probes : Nat → List Nat
  fenced : Nat → Bool

/-- The marks of a state. -/
def marks (s : State) : Marks := ⟨s.boot, fun f => (getField s f).probes, unitFenced s⟩

/-- An update of any other part leaves the marks. -/
@[simp] theorem marks_upd (s : State) (pending dram ilv sec free now tlbBusy stackBits epoch crossings ctxs seeds tick power polders
    switches routers mifs flights mcRows mgcGroups objs badGranules mecs ses ring conf host span dbg) :
    marks { s with pending := pending, dram := dram, ilv := ilv, sec := sec, free := free, now := now, tlbBusy := tlbBusy,
                   stackBits := stackBits, epoch := epoch, crossings := crossings, ctxs := ctxs, seeds := seeds, tick := tick, power := power,
                   polders := polders, switches := switches, routers := routers, mifs := mifs, flights := flights,
                   mcRows := mcRows, mgcGroups := mgcGroups, objs := objs, badGranules := badGranules, mecs := mecs, ses := ses,
                   ring := ring, conf := conf, host := host, span := span, dbg := dbg } = marks s := rfl

@[simp] theorem marks_ite (c : Prop) [Decidable c] (a b : State) : marks (if c then a else b) = if c then marks a else marks b := by
  split <;> rfl

@[simp] theorem marks_forEach {α : Type} (l : List α) (f : α → State → State) (s : State) (h : ∀ a t, marks (f a t) = marks t) :
    marks (forEach l f s) = marks s := forEach_keeps marks (f := f) h l s

/-! ## The units' marks -/

theorem unitFenced_modCore (s : State) (u : Nat) {f : Core → Core} (hf : ∀ c, (f c).fenced = c.fenced) : unitFenced (modCore s u f) = unitFenced s := by
  funext v
  unfold unitFenced
  by_cases h : v = u
  · subst h
    rw [show (getCore (modCore s v f) v).fenced = (getCore s v).fenced from (congrArg Core.fenced (getCore_setCore ..)).trans (hf _)]
    rfl
  · rw [show getCore (modCore s u f) v = getCore s v from getCore_setCore_ne _ _ _ _ h]
    rfl

theorem unitFenced_modMu (s : State) (u : Nat) {f : Mu → Mu} (hf : ∀ c, (f c).fenced = c.fenced) : unitFenced (modMu s u f) = unitFenced s := by
  funext v
  unfold unitFenced
  by_cases h : v = u
  · subst h
    rw [show (getMu (modMu s v f) v).fenced = (getMu s v).fenced from (congrArg Mu.fenced (getMu_setMu ..)).trans (hf _)]
    rfl
  · rw [show getMu (modMu s u f) v = getMu s v from getMu_setMu_ne _ _ _ _ h]
    rfl

theorem unitFenced_modSfu (s : State) (u : Nat) {f : Sfu → Sfu} (hf : ∀ c, (f c).fenced = c.fenced) : unitFenced (modSfu s u f) = unitFenced s := by
  funext v
  unfold unitFenced
  by_cases h : v = u
  · subst h
    rw [show (getSfu (modSfu s v f) v).fenced = (getSfu s v).fenced from (congrArg Sfu.fenced (getSfu_setSfu ..)).trans (hf _)]
    rfl
  · rw [show getSfu (modSfu s u f) v = getSfu s v from getSfu_setSfu_ne _ _ _ _ h]
    rfl

theorem marks_of_units {s t : State} (hb : t.boot = s.boot) (hf : t.fields = s.fields) (hu : unitFenced t = unitFenced s) : marks t = marks s := by
  unfold marks getField
  rw [hb, hf, hu]

theorem marks_modCore (s : State) (u : Nat) {f : Core → Core} (hf : ∀ c, (f c).fenced = c.fenced) : marks (modCore s u f) = marks s :=
  marks_of_units rfl rfl (unitFenced_modCore s u hf)

theorem marks_modMu (s : State) (u : Nat) {f : Mu → Mu} (hf : ∀ c, (f c).fenced = c.fenced) : marks (modMu s u f) = marks s :=
  marks_of_units rfl rfl (unitFenced_modMu s u hf)

/-- The fence mark of a unit written, of no other. -/
def fencePut (u : Nat) (b : Bool) (k : Marks) : Marks := { k with fenced := fun v => if v = u then b else k.fenced v }

theorem marks_setFenced (u : Nat) (b : Bool) (s : State) : marks (setFenced u b s) = fencePut u b (marks s) := by
  have h : unitFenced (setFenced u b s) = fun v => if v = u then b else unitFenced s v := by
    funext v
    unfold setFenced unitFenced
    by_cases hv : v = u
    · subst hv
      rw [if_pos rfl]
      split
      · exact congrArg Core.fenced (getCore_setCore ..)
      · split
        · exact congrArg Mu.fenced (getMu_setMu ..)
        · exact congrArg Sfu.fenced (getSfu_setSfu ..)
    · rw [if_neg hv]
      by_cases hc : isCc u = true
      · rw [if_pos hc, show getCore (modCore s u _) v = getCore s v from getCore_setCore_ne _ _ _ _ hv]
        rfl
      · rw [if_neg hc]
        by_cases hm : isMu u = true
        · rw [if_pos hm, show getMu (modMu s u _) v = getMu s v from getMu_setMu_ne _ _ _ _ hv]
          rfl
        · rw [if_neg hm, show getSfu (modSfu s u _) v = getSfu s v from getSfu_setSfu_ne _ _ _ _ hv]
          rfl
  have hs : shelf (setFenced u b s) = shelf s := by
    unfold setFenced
    simp
  unfold marks getField
  rw [boot_of_shelf hs, fields_of_shelf hs, h]
  rfl

/-! ## Events, halts, commands -/

@[simp] theorem marks_setPolder (s : State) (p : Nat) (x : Polder) : marks (setPolder s p x) = marks s := (rfl)
@[simp] theorem marks_modPolder (s : State) (p : Nat) (f : Polder → Polder) : marks (modPolder s p f) = marks s := (rfl)
@[simp] theorem marks_modCtx (s : State) (c : Nat) (f : Ctx → Ctx) : marks (modCtx s c f) = marks s := (rfl)
@[simp] theorem marks_modConf (s : State) (f : Conf → Conf) : marks (modConf s f) = marks s := (rfl)
@[simp] theorem marks_modSec (s : State) (f : Sec → Sec) : marks (modSec s f) = marks s := (rfl)
@[simp] theorem marks_setMec (s : State) (n : Nat) (x : Mec) : marks (setMec s n x) = marks s := (rfl)
@[simp] theorem marks_modMif (s : State) (u : Nat) (f : MeshIf → MeshIf) : marks (modMif s u f) = marks s := (rfl)
@[simp] theorem marks_setQ (s : State) (q : Nat) (x : CmdQ) : marks (setQ s q x) = marks s := (rfl)
@[simp] theorem marks_takeFree (s : State) : marks (takeFree s).2 = marks s := (rfl)
@[simp] theorem marks_hintSpent (p t : Nat) (s : State) : marks (hintSpent p t s) = marks s := (rfl)

theorem marks_modBoot (s : State) (g : Boot → Boot) : marks (modBoot s g) = { marks s with boot := g s.boot } := (rfl)

@[simp] theorem marks_raise (code : Nat) (polder ctx unit : Option Nat) (arg : Nat) (s : State) :
    marks (raise code polder ctx unit arg s) = marks s := by
  unfold raise
  simp

@[simp] theorem marks_eventsByCode (s0 s : State) : marks (eventsByCode s0 s) = marks s := (rfl)

@[simp] theorem marks_finishOne (q status result : Nat) (s : State) : marks (finishOne q status result s) = marks s := by
  unfold finishOne
  dsimp only
  split <;> simp

@[simp] theorem marks_takeCmd (q : Nat) (s : State) : marks (takeCmd q s) = marks s := (rfl)

@[simp] theorem marks_skipReserved (n q : Nat) (s : State) : marks (skipReserved n q s) = marks s := by
  induction n generalizing s with
  | zero => rfl
  | succ n ih =>
    unfold skipReserved
    dsimp only
    split <;> simp [ih]

@[simp] theorem marks_finish (q status result : Nat) (s : State) : marks (finish q status result s) = marks s := by
  unfold finish
  simp

@[simp] theorem marks_refuseAt (q : Nat) (p : Option Nat) (code off : Nat) (unit : Option Nat) (s : State) : marks (refuseAt q p code off unit s) = marks s := by
  unfold refuseAt
  simp

@[simp] theorem marks_trEvent (typ : Nat) (ctxs : List (Nat × List Byte)) (s : State) : marks (trEvent typ ctxs s) = marks s := by
  unfold trEvent
  simp

@[simp] theorem marks_faultEvent (f : Frame) (unit cause arg : Nat) (s : State) : marks (faultEvent f unit cause arg s) = marks s := by
  unfold faultEvent
  simp

@[simp] theorem marks_weightsInvalid (p : Nat) (s : State) : marks (weightsInvalid p s) = marks s := by
  unfold weightsInvalid weightsEvent
  simp

@[simp] theorem marks_haltAtTick (p cause : Nat) (s : State) : marks (haltAtTick p cause s) = marks s := marks_modPolder ..

@[simp] theorem marks_loseFrame (f : Frame) (s : State) : marks (loseFrame f s) = marks s := by
  unfold loseFrame lostEvent
  simp

/-- A change of the fields that leaves the probes of each one. -/
theorem marks_fields (s : State) (g : Nat × Field → Field) (h : ∀ e, (g e).probes = e.2.probes) :
    marks { s with fields := s.fields.map (fun e => (e.1, g e)) } = marks s := by
  have hm : ∀ (m : Map Field) (f : Nat), (mget {} (m.map (fun e => (e.1, g e))) f).probes = (mget {} m f).probes := by
    intro m f
    induction m with
    | nil => rfl
    | cons e m ih =>
      rw [List.map_cons, mget, mget]
      split
      · exact h e
      · exact ih
  exact congrArg (fun k => Marks.mk s.boot k (unitFenced s)) (funext (hm s.fields))

@[simp] theorem marks_preposEnd (p n : Nat) (s : State) : marks (preposEnd p n s) = marks s := marks_fields s _ (fun _ => rfl)

@[simp] theorem marks_dropWaiters (t : Nat → Waiter → Bool) (s : State) : marks (dropWaiters t s) = marks s := marks_fields s _ (fun _ => rfl)

@[simp] theorem marks_dropAwait (p : Nat) (s : State) : marks (dropAwait p s) = marks s := by
  unfold dropAwait
  split <;> simp

@[simp] theorem marks_dikewatchDone (p : Nat) (s : State) : marks (dikewatchDone p s) = marks s := by
  unfold dikewatchDone
  dsimp only
  split <;> simp

@[simp] theorem marks_rowHalts (t : Nat → Bool) (cause : Nat) (s : State) : marks (rowHalts t cause s) = marks s := by
  unfold rowHalts
  simp

/-! ## A staging that ends -/

@[simp] theorem marks_loadUndone (c : PolderCfg) (s : State) : marks (loadUndone c s) = marks s := by
  have hb : marks (buildUndone s) = marks s := by
    unfold buildUndone
    simp
  refine (marks_forEach _ _ _ ?_).trans hb
  exact fun u t => marks_modMu _ _ (fun _ => rfl)

@[simp] theorem marks_archiveTrim (s : State) : marks (archiveTrim s) = marks s := (rfl)

@[simp] theorem marks_confDropped (p : Nat) (s : State) : marks (confDropped p s) = marks s := by
  unfold confDropped
  split <;> simp

@[simp] theorem marks_stagingAbort (u b : Nat) (s : State) : marks (stagingAbort u b s) = marks s := by
  unfold stagingAbort
  simp

/-! ## Images and moves -/

@[simp] theorem marks_modMem (u : Nat) (f : Bytes → Bytes) (s : State) : marks (modMem u f s) = marks s := by
  unfold modMem
  split
  · exact marks_modMu _ _ (fun _ => rfl)
  · split
    · exact marks_modCore _ _ (fun _ => rfl)
    · rfl

@[simp] theorem marks_imageWrite (p : Nat) (t : Nat → Bool) (s : State) : marks (imageWrite p t s).2 = marks s := by
  have hfold : ∀ (a : Nat) (l : List Nat) (r : (Nat × List Nat × Bool) × State), marks (l.foldl (fun r i =>
      let x := imageRec r.2 a i
      if !t x.unit then r
      else if imageOk r.2 x then
        ((r.1.1 + 8 * x.lenw, insertNat x.unit r.1.2.1, r.1.2.2),
          modMem x.unit (fun m => wrN m x.off (rdN r.2.dram x.addr (8 * x.lenw))) r.2)
      else ((r.1.1, r.1.2.1, true), r.2)) r).2 = marks r.2 := by
    intro a l
    induction l with
    | nil => exact fun _ => rfl
    | cons i l ih =>
      intro r
      rw [List.foldl_cons, ih]
      dsimp only
      split
      · rfl
      · split
        · exact marks_modMem ..
        · rfl
  unfold imageWrite
  split
  · rfl
  · exact hfold _ _ _

@[simp] theorem marks_dropInjected (u : Nat) (s : State) : marks (dropInjected u s) = marks s := (rfl)

@[simp] theorem marks_lineLost (u : Nat) (s : State) : marks (lineLost u s) = marks s := marks_modMu _ _ (fun _ => rfl)

@[simp] theorem marks_dramWrite (n a : Nat) (ws : List W64) (s : State) : marks (dramWrite n a ws s) = marks s := (rfl)

theorem marks_wbackAddr (s : State) (p a : Nat) (paged : Bool) (ctx : Nat) : marks (wbackAddr s p a paged ctx).2 = marks s := by
  have hp : ∀ n c va r t, marks (pageFault n c va r t) = marks t := by
    intro n c va r t
    unfold pageFault
    simp
  unfold wbackAddr
  extract_lets n m pte at_
  cases at_ with
  | error r => exact hp ..
  | ok pa =>
    dsimp only
    split
    · rfl
    · split <;> rfl

theorem marks_portOut (u p : Nat) (s : State) : marks (portOut u p s) = marks s := by
  unfold portOut
  refine marks_forEach _ _ _ (fun f t => ?_)
  have hw := marks_wbackAddr t p (8 * awAddr (f.pkt.payload.headD 0)) (awPaged (f.pkt.payload.headD 0)) f.pkt.ctx
  dsimp only
  split
  · rename_i h
    rw [h] at hw
    exact (marks_dramWrite ..).trans hw
  · rename_i h
    rw [h] at hw
    exact (marks_lineLost ..).trans hw

@[simp] theorem marks_unitActivate (pmode : W32) (u : Nat) (x : UnitCfg) (s : State) : marks (unitActivate pmode u x s) = marks s := by
  unfold unitActivate
  split
  · exact marks_modCore s u (f := coreActivate _ pmode) (fun _ => rfl)
  · exact marks_modMu s u (f := muActivate _) (fun _ => rfl)
  · exact marks_of_units rfl rfl (unitFenced_modSfu _ _ (fun _ => rfl))

/-- A unit that has moved is no longer fenced. -/
theorem marks_unitMoved (l : List FaultRec) (unclean : List Nat) (u : Nat) (s : State) :
    marks (unitMoved l unclean u s) = fencePut u false (marks s) := by
  unfold unitMoved
  extract_lets clean failed s1 m s2 a s3
  have h1 : marks s1 = marks s := by
    unfold s1
    split
    · split
      · exact marks_portOut ..
      · rfl
    · rfl
  have h3 : marks s3 = fencePut u false (marks s) := by
    rw [← h1, ← marks_modMem u (fun x => if !clean then [] else if failed && isMu u then failedMem m else x) s1]
    exact (marks_setFenced ..).trans (congrArg _ (marks_unitActivate ..))
  split
  · refine (marks_modMu _ _ (fun c => ?_)).trans h3
    extract_lets n
    split <;> rfl
  · exact h3

/-! ## Resuming -/

theorem marks_resumed (p : Nat) (s : State) : marks (resumed p s) = marks s := by
  unfold resumed runs dropOwn
  simp

@[simp] theorem marks_autoResume (p : Nat) (s : State) : marks (autoResume p s) = marks s := by
  unfold autoResume
  simp [marks_resumed]

@[simp] theorem marks_resolve (r : Repair) (whole imageErr : Bool) (p : Nat) (s : State) : marks (resolve r whole imageErr p s) = marks s := by
  unfold resolve
  simp

/-! ## A row's links -/

@[simp] theorem marks_linkNoted (net : Net) (u : Nat) (d : Dir) (s : State) : marks (linkNoted net u d s) = marks s := by
  have h : ∀ n v far t, marks (endNoted n v far t) = marks t := fun _ _ _ _ => rfl
  unfold linkNoted
  split <;> simp [h]

@[simp] theorem marks_dropInRow (us : List Nat) (s : State) : marks (dropInRow us s) = marks s := (rfl)

@[simp] theorem marks_armDown (s : State) : marks (armDown s) = marks s := by
  have hr : ∀ t, marks (bankRefused t) = marks t := by
    intro t
    unfold bankRefused routeRefuse buildUndone
    dsimp only
    split <;> simp
  unfold armDown armEpoch
  simp [hr]

end Sys2Proof.Proofs
end

section
/-! PROOFS. Faults, fencing and repair (15 R513 to R523, R583). -/

namespace Sys2Proof.Proofs

open Sys2Proof Sys2Proof.Machine

/-- What every step of a fold keeps holds after the fold. -/
theorem forEach_maintains {α : Type} {P : State → Prop} {f : α → State → State} (h : ∀ a t, P t → P (f a t)) (l : List α) {s : State} (hs : P s) :
    P (forEach l f s) := by
  induction l generalizing s with
  | nil => exact hs
  | cons a l ih => exact ih (h a s hs)

theorem boot_of_marks {s t : State} (h : marks t = marks s) : t.boot = s.boot := (congrArg Marks.boot h :)

theorem fenced_of_marks {s t : State} (h : marks t = marks s) : unitFenced t = unitFenced s := (congrArg Marks.fenced h :)

theorem probes_of_marks {s t : State} (h : marks t = marks s) (f : Nat) : (getField t f).probes = (getField s f).probes :=
  (congrArg (fun k : Marks => k.probes f) h :)

/-! ## The fault of a unit -/

/-- A fault of unit v with a cause, as the registers, the fault map and the repair show it. -/
def Hit (s w : State) (v cause : Nat) : Prop :=
  unitFenced w v = true ∧ slotBad (fmapRow w (fieldOf v) (siteOf s v).1) (chainOf v) (siteOf s v).2 = true ∧ w.boot.mapDue = true ∧
    w.boot.flags.getLsbD 0 = true ∧ ∃ r ∈ pendingFaults w, r.unit = v ∧ r.cause = cause

theorem Hit.of_marks {s w w' : State} {v cause : Nat} (h : Hit s w v cause) (hm : marks w' = marks w) : Hit s w' v cause := by
  unfold Hit fmapRow pendingFaults at *
  rw [boot_of_marks hm, fenced_of_marks hm]
  exact h

/-- A unit's site depends on the fault map, the faults under repair and the rows of its field alone. -/
theorem Hit.of_site {s s' w : State} {v cause : Nat} (h : Hit s' w v cause) (hs : siteOf s' v = siteOf s v) : Hit s w v cause := by
  unfold Hit at *
  rw [← hs]
  exact h

theorem chainOf_lt (u : Nat) : chainOf u < 3 := by
  unfold chainOf
  split
  · decide
  · split <;> decide

/-- The slot that serves a unit is one of its chain. -/
theorem siteSlot_lt (s : State) (u : Nat) : (siteOf s u).2 < (chainSlots (chainOf u)).1 := by
  unfold siteOf
  dsimp only
  rw [List.getD_eq_getElem?_getD]
  cases h : (usableSlots (servedRow s (fieldOf u) (physRow s (fieldOf u) (localY u))) (chainOf u))[typeIndex u]? with
  | none =>
    show 0 < (chainSlots (chainOf u)).1
    unfold chainSlots
    split <;> decide
  | some i => exact List.mem_range.mp (List.mem_filter.mp (List.mem_of_getElem? h)).1

theorem slotBad_slotFault {ch i : Nat} (hc : ch < 3) (hi : i < (chainSlots ch).1) (x : RowMap) : slotBad (slotFault ch i x) ch i = true := by
  obtain rfl | rfl | rfl : ch = 0 ∨ ch = 1 ∨ ch = 2 := by omega
  · exact getLsbD_setBit_self (n := 84) hi _
  · exact getLsbD_setBit_self (n := 9) hi _
  · exact getLsbD_setBit_self (n := 9) hi _

theorem fmapRow_rowChange (f r : Nat) (g : RowMap → RowMap) (s : State) :
    fmapRow (rowChange f r g s) f r = { g (fmapRow s f r) with bootSeq := s.boot.fmap.bootSeq } := mget_mput_self ..

/-- A fault added to the repair, with the fault flag. -/
def faultAdded (r : FaultRec) (n : W64) (s : State) : State := modBoot s (fun b => addFault r { b with flags := setBit b.flags 0, tick := n })

theorem faultAdded_marks (r : FaultRec) (n : W64) (s : State) : (faultAdded r n s).boot.fmap = s.boot.fmap ∧
    (faultAdded r n s).boot.mapDue = s.boot.mapDue ∧ (faultAdded r n s).boot.flags = setBit s.boot.flags 0 ∧ r ∈ pendingFaults (faultAdded r n s) := by
  unfold faultAdded pendingFaults modBoot addFault
  cases h : s.boot.repair with
  | none => simp [h]
  | some x => by_cases hd : x.decided = true <;> simp [h, hd]

/-- A fault's record. -/
def faultRec (s : State) (u cause addr : Nat) : FaultRec := ⟨u, cause, addr, (siteOf s u).1, (siteOf s u).2, chainOf u⟩

/-- A unit fenced at its fault, with its slot in the fault map. -/
def siteMarked (u : Nat) (s : State) : State :=
  rowChange (fieldOf u) (siteOf s u).1 (slotFault (chainOf u) (siteOf s u).2) (setFenced u true (unitHalt u s))

/-- A unit fenced at its fault, with the fault map and the repair marked. -/
def faultMarked (u cause addr : Nat) (s : State) : State := faultAdded (faultRec s u cause addr) s.tick.count (siteMarked u s)

theorem marks_unitHalt (u : Nat) (s : State) : marks (unitHalt u s) = marks s := by
  unfold unitHalt
  split
  · exact marks_modCore _ _ (fun _ => rfl)
  · rfl

theorem tick_setFenced_unitHalt (u : Nat) (s : State) : (setFenced u true (unitHalt u s)).tick = s.tick := by
  have h : shelf (setFenced u true (unitHalt u s)) = shelf s := by
    unfold setFenced
    simp
  exact congrArg Shelf.tick h

/-- What follows the marks of a fault - its events and the halts - leaves them. -/
theorem marks_unitFault (u cause addr : Nat) (s : State) : marks (unitFault u cause addr s) = marks (faultMarked u cause addr s) := by
  unfold unitFault
  extract_lets f site ch p s1 s2 s3 s4 s5 s6
  clear_value p
  have h3 : s3 = faultMarked u cause addr s := by
    unfold faultMarked faultAdded siteMarked
    rw [← tick_setFenced_unitHalt u s]
    rfl
  have h4 : marks s4 = marks s3 := by
    unfold s4
    simp
  have h5 : marks s5 = marks s4 := marks_raise ..
  have h6 : marks s6 = marks s5 := by
    unfold s6
    split
    · split <;> simp
    · rfl
  rw [← h3, ← h4, ← h5, ← h6]
  split
  · exact marks_rowHalts ..
  · split
    · exact marks_haltAtTick ..
    · rfl

theorem siteMarked_marks (u : Nat) (s : State) : unitFenced (siteMarked u s) u = true ∧
    slotBad (fmapRow (siteMarked u s) (fieldOf u) (siteOf s u).1) (chainOf u) (siteOf s u).2 = true ∧ (siteMarked u s).boot.mapDue = true := by
  refine ⟨?_, ?_, rfl⟩
  · exact (congrArg (fun k : Marks => k.fenced u) (marks_setFenced u true (unitHalt u s))).trans (if_pos rfl)
  · unfold siteMarked
    rw [fmapRow_rowChange]
    exact slotBad_slotFault (chainOf_lt u) (siteSlot_lt s u) (fmapRow (setFenced u true (unitHalt u s)) _ _)

theorem hit_faultMarked (u cause addr : Nat) (s : State) : Hit s (faultMarked u cause addr s) u cause := by
  obtain ⟨hu, hs, hd⟩ := siteMarked_marks u s
  unfold faultMarked
  generalize siteMarked u s = t at *
  obtain ⟨hf, hm, hl, hr⟩ := faultAdded_marks (faultRec s u cause addr) s.tick.count t
  unfold Hit fmapRow at *
  rw [hf, hm, hl]
  exact ⟨hu, hs, hd, getLsbD_setBit_self (by decide) _, _, hr, rfl, rfl⟩

theorem hit_unitFault (u cause addr : Nat) (s : State) : Hit s (unitFault u cause addr s) u cause :=
  (hit_faultMarked u cause addr s).of_marks (marks_unitFault ..)

theorem exec_faultArith {s : State} {v : Nat} (hc : isCc v = true) (hf : faultable s v = true) :
    Answers (exec (.faultArith v) s) (fun w => Hit s w v 1) := by
  refine ⟨_, (if_neg (by rw [hc]; decide)).trans (if_neg (by rw [hf]; decide)), ?_⟩
  exact (hit_unitFault v 1 0 (modCore s v _)).of_site rfl

/-- An SRAM error at an address that the unit has. -/
def SramHas (v addr : Nat) : Prop := (isCc v = true ∧ addr < 0xC000) ∨ (isMu v = true ∧ addr < 0xC0000)

theorem SramHas.inRange {v addr : Nat} (h : SramHas v addr) : ¬((!(isCc v && decide (addr < 0xC000)) && !(isMu v && decide (addr < 4 * bankSize))) = true) := by
  obtain ⟨hc, hlt⟩ | ⟨hm, hlt⟩ := h
  · simp [hc, hlt]
  · simp [hm, show addr < 4 * bankSize from hlt]

theorem exec_faultSram_corrected {s : State} {v addr : Nat} (ha : SramHas v addr) (hf : faultable s v = true) :
    exec (.faultSram v ⟨addr, true⟩) s = .next (sramCorrected v s) := (if_neg ha.inRange).trans (if_neg (by rw [hf]; decide))

/-- MU_ECC of the memory unit or none: the flag of an uncorrectable error. -/
def sramFlagged (v : Nat) (s : State) : State := if isMu v then modMu s v (fun m => { m with flags := setBit m.flags 0 }) else s

theorem siteOf_sramFlagged (v : Nat) (s : State) : siteOf (sramFlagged v s) v = siteOf s v := by
  unfold sramFlagged
  split <;> rfl

theorem exec_faultSram_uncorrected {s : State} {v addr : Nat} (ha : SramHas v addr) (hf : faultable s v = true) :
    Answers (exec (.faultSram v ⟨addr, false⟩) s) (fun w => Hit s w v 2) := by
  have hx : exec (.faultSram v ⟨addr, false⟩) s = .next (if isMu v then eventsByCode s (stagingAbort v (addr / bankSize)
      (unitFault v 2 addr (sramFlagged v s))) else unitFault v 2 addr (sramFlagged v s)) :=
    (if_neg ha.inRange).trans (if_neg (by rw [hf]; decide))
  refine ⟨_, hx, ?_⟩
  have hh := (hit_unitFault v 2 addr (sramFlagged v s)).of_site (siteOf_sramFlagged v s)
  dsimp only
  split
  · exact hh.of_marks ((marks_eventsByCode ..).trans (marks_stagingAbort ..))
  · exact hh

theorem exec_logicFault {s : State} {v : Nat} (hu : isUnit v = true) (hf : faultable s v = true) :
    Answers (exec (.logicFault v) s) (fun w => Hit s w v 3) :=
  ⟨_, (if_neg (by rw [hu]; decide)).trans (if_neg (by rw [hf]; decide)), hit_unitFault v 3 0 s⟩

/-! ## A fault in a row's switches -/

/-- A row fenced for its switches. -/
def RowCut (f prow : Nat) (w : State) : Prop := (fmapRow w f prow).row = 2 ∧ w.boot.mapDue = true ∧ w.boot.flags.getLsbD 0 = true

theorem RowCut.of_marks {f prow : Nat} {w w' : State} (h : RowCut f prow w) (hm : marks w' = marks w) : RowCut f prow w' := by
  unfold RowCut fmapRow at *
  rw [boot_of_marks hm]
  exact h

theorem rowCut_fenceRow (f prow : Nat) {s : State} (h : s.boot.flags.getLsbD 0 = true) : RowCut f prow (fenceRow f prow 2 s) := by
  have hm : marks (fenceRow f prow 2 s) =
      marks (modBoot (rowChange f prow (fun x => { x with row := BitVec.ofNat 2 2 }) s) (fun b => { b with flags := setBit b.flags 2 })) := marks_raise ..
  refine RowCut.of_marks ⟨?_, rfl, ?_⟩ hm
  · exact congrArg RowMap.row (fmapRow_rowChange f prow (fun x => { x with row := BitVec.ofNat 2 2 }) s)
  · show (setBit s.boot.flags 2).getLsbD 0 = true
    unfold setBit
    simp [h]

theorem exec_switchFault {s : State} {f prow : Nat} (hf : f < 64) (hp : prow < 100) (hu : (getField s f).up = true) (hr : (fmapRow s f prow).row ≠ 2) :
    Answers (exec (.switchFault f prow) s) (RowCut f prow) := by
  show Answers (execSwitchFault f prow s) (RowCut f prow)
  unfold execSwitchFault
  rw [if_neg (by rw [decide_eq_false (Nat.not_le.mpr hf), decide_eq_false (Nat.not_le.mpr hp)]; decide),
    if_neg (by rw [hu, beq_false_of_ne hr]; decide)]
  have hc := rowCut_fenceRow f prow (s := modBoot s (fun b => { b with flags := setBit b.flags 0, tick := s.tick.count }))
    (getLsbD_setBit_self (by decide) _)
  extract_lets s0 s1 s2
  cases servedBy s2 f prow with
  | none => exact ⟨_, rfl, hc⟩
  | some j =>
    refine ⟨_, rfl, hc.of_marks ?_⟩
    refine (marks_armDown _).trans ((marks_forEach _ _ _ (fun u t => marks_forEach _ _ _ (fun d t => marks_forEach _ _ _ (fun n t => ?_)))).trans ?_)
    · split <;> simp
    · refine (marks_dropInRow ..).trans ((marks_rowHalts ..).trans ((marks_forEach _ _ _ (fun q t => ?_)).trans (marks_takeFree _)))
      split <;> simp

/-! ## Liveness probes -/

/-- The youngest probe of a field is one of those outstanding. -/
theorem mem_probes {l : List Nat} (h : l.Nodup) (u : Nat) : u ∈ ((l.filter (fun v => v != u)) ++ [u]).drop (l.length - 255) := by
  have hlen := List.le_length_erase (a := u) (l := l)
  rw [h.erase_eq_filter] at hlen
  rw [List.drop_append_of_le_length (by omega)]
  exact List.mem_append_right _ (List.mem_singleton_self u)

end Sys2Proof.Proofs
end

section
/-! PROOFS. Probes, the decision and the end of a repair, the repair commands (15 R514 to R523, R583). -/

namespace Sys2Proof.Proofs

open Sys2Proof Sys2Proof.Machine

/-- The field once unit v has been probed. -/
def probeSent (v : Nat) (x : Field) : Field :=
  { x with probeFrom := v + 1, probes := ((x.probes.filter (fun u => u != v)) ++ [v]).drop (x.probes.length - 255) }

theorem exec_livenessProbe {s : State} {f : Nat} (hf : f < 64) (hu : (getField s f).up = true) (hn : (getField s f).probes.Nodup)
    (hp : probed s f ≠ []) : Answers (exec (.livenessProbe f) s) (fun w =>
      ∃ v ∈ probed s f, v ∈ (getField w f).probes ∧ (getField w f).probeFrom = v + 1) := by
  show Answers (execLivenessProbe f s) _
  unfold execLivenessProbe
  rw [if_neg (Nat.not_le.mpr hf), if_neg (by rw [hu]; decide)]
  extract_lets l
  cases hl : l.filter (fun u => decide (u ≥ (getField s f).probeFrom)) ++ l with
  | nil => exact absurd (List.append_eq_nil_iff.mp hl).2 hp
  | cons v vs =>
    have hv : v ∈ l := by
      have hm : v ∈ l.filter (fun u => decide (u ≥ (getField s f).probeFrom)) ++ l := by
        rw [hl]
        exact List.mem_cons_self
      exact (List.mem_append.mp hm).elim (fun h => (List.mem_filter.mp h).1) id
    have hg : getField (modField s f (probeSent v)) f = probeSent v (getField s f) := getField_modField ..
    refine ⟨modField s f (probeSent v), rfl, v, hv, ?_⟩
    rw [hg]
    refine ⟨?_, rfl⟩
    dsimp only [probeSent]
    exact mem_probes hn v

/-- Two states that show the same of a unit's site, its row and its field. -/
structure SameSite (s t : State) (u : Nat) : Prop where
  boot : t.boot = s.boot
  fenced : unitFenced t u = unitFenced s u
  up : (getField t (fieldOf u)).up = (getField s (fieldOf u)).up
  dark : (getField t (fieldOf u)).dark = (getField s (fieldOf u)).dark
  rowMap : (getField t (fieldOf u)).rowMap = (getField s (fieldOf u)).rowMap
  cleared : (getField t (fieldOf u)).cleared = (getField s (fieldOf u)).cleared

theorem SameSite.faultable_eq {s t : State} {u : Nat} (h : SameSite s t u) : faultable t u = faultable s u := by
  unfold faultable lit rowAbsent rowMark fieldFenced physRow
  dsimp only
  rw [h.boot, h.fenced, h.up, h.dark, h.rowMap, h.cleared]

theorem SameSite.siteOf_eq {s t : State} {u : Nat} (h : SameSite s t u) : siteOf t u = siteOf s u := by
  unfold siteOf servedRow physRow withoutCleared pendingFaults fmapRow
  dsimp only
  rw [h.boot, h.rowMap, h.cleared]

/-- A change of a unit's field that leaves its rows. -/
theorem sameSite_modField (s : State) (u : Nat) {g : Field → Field} (h : ∀ x, ((g x).up, (g x).dark, (g x).rowMap, (g x).cleared) =
    (x.up, x.dark, x.rowMap, x.cleared)) : SameSite s (modField s (fieldOf u) g) u := by
  have hg := h (getField s (fieldOf u))
  rw [← getField_modField s (fieldOf u) g] at hg
  exact ⟨rfl, rfl, (congrArg (·.1) hg :), (congrArg (·.2.1) hg :), (congrArg (·.2.2.1) hg :), (congrArg (·.2.2.2) hg :)⟩

/-- The probe of unit v taken off. -/
def probeTaken (v : Nat) (x : Field) : Field := { x with probes := x.probes.filter (fun u => u != v) }

/-- A probe missed. -/
def probeMissed (x : Field) : Field := { x with probeMisses := incCnt x.probeMisses }

theorem exec_probeTimeout {s : State} {v p : Nat} (hu : isUnit v = true) (hv : v ∈ (getField s (fieldOf v)).probes) (ho : ownerOf s v = some p)
    (hp : (getPolder s p).state = 2) (hf : faultable s v = true) : Answers (exec (.probeTimeout v) s) (fun w =>
      Hit s w v 4 ∧ v ∉ (getField w (fieldOf v)).probes) := by
  have h1 := sameSite_modField s v (g := probeTaken v) (fun _ => rfl)
  have h2 := sameSite_modField (modField s (fieldOf v) (probeTaken v)) v (g := probeMissed) (fun _ => rfl)
  have hf1 : faultable (modField s (fieldOf v) (probeTaken v)) v = true := h1.faultable_eq.trans hf
  have hx : exec (.probeTimeout v) s =
      .next (unitFault v 4 0 (modField (modField s (fieldOf v) (probeTaken v)) (fieldOf v) probeMissed)) := by
    show execProbeTimeout v s = _
    unfold execProbeTimeout
    rw [if_neg (by rw [hu]; decide)]
    extract_lets f running s1
    have hr : running = true := by
      unfold running
      rw [ho]
      exact beq_iff_eq.mpr hp
    rw [if_neg (by rw [List.contains_iff_mem.mpr hv]; decide), if_neg (by rw [hr, show faultable s1 v = true from hf1]; decide)]
    rfl
  refine ⟨_, hx, (hit_unitFault v 4 0 _).of_site (h2.siteOf_eq.trans h1.siteOf_eq), ?_⟩
  have hpr : (getField (faultMarked v 4 0 (modField (modField s (fieldOf v) (probeTaken v)) (fieldOf v) probeMissed)) (fieldOf v)).probes =
      (getField s (fieldOf v)).probes.filter (fun u => u != v) := by
    have hm := marks_setFenced v true (unitHalt v (modField (modField s (fieldOf v) (probeTaken v)) (fieldOf v) probeMissed))
    rw [marks_unitHalt] at hm
    refine (congrArg (fun k : Marks => k.probes (fieldOf v)) hm).trans ?_
    show (getField (modField (modField s (fieldOf v) (probeTaken v)) (fieldOf v) probeMissed) (fieldOf v)).probes = _
    rw [getField_modField, getField_modField]
    rfl
  rw [probes_of_marks (marks_unitFault ..), hpr]
  exact fun h => (bne_iff_ne.mp (List.mem_filter.mp h).2) rfl

/-! ## The decision of a repair -/

/-- The repair under way is open and holds the faults of r; the M-cores are as b says. -/
def Deciding (r : Repair) (b : Bool) (s : State) : Prop :=
  (∃ x, s.boot.repair = some x ∧ x.decided = false ∧ ∀ y ∈ r.faults, y ∈ x.faults) ∧ s.boot.single = b

theorem Deciding.of_boot {r : Repair} {b : Bool} {s t : State} (h : Deciding r b s) (hr : t.boot.repair = s.boot.repair)
    (hs : t.boot.single = s.boot.single) : Deciding r b t := by
  unfold Deciding at *
  rw [hr, hs]
  exact h

theorem Deciding.addFault {r : Repair} {b : Bool} {s : State} (h : Deciding r b s) (x : FaultRec) : Deciding r b (modBoot s (addFault x)) := by
  obtain ⟨⟨y, hy, hd, hf⟩, hs⟩ := h
  unfold modBoot Machine.addFault
  simp only [hy, hd]
  exact ⟨⟨_, rfl, rfl, fun z hz => List.mem_append_left _ (hf z hz)⟩, hs⟩

theorem deciding_fenceOther {r : Repair} {b : Bool} {s : State} (l : List Nat) (h : Deciding r b s) : Deciding r b (fenceOther l s) := by
  refine forEach_maintains (fun u t ht => ?_) l h
  split
  · exact ht
  · have hm : marks (setFenced u true (unitHalt u t)) = fencePut u true (marks t) := (marks_setFenced ..).trans (congrArg _ (marks_unitHalt u t))
    have hb : (setFenced u true (unitHalt u t)).boot = t.boot := (congrArg Marks.boot hm :)
    dsimp only
    refine Deciding.addFault (ht.of_boot ?_ ?_) _
    · exact (congrArg Boot.repair hb :)
    · exact (congrArg Boot.single hb :)

theorem single_fenceRow (f r row : Nat) (s : State) : (fenceRow f r row s).boot.single = s.boot.single := by
  unfold fenceRow
  rw [boot_raise]
  rfl

theorem boot_exhausted (f r : Nat) (s : State) : (exhausted f r s).boot = s.boot := by
  unfold exhausted
  split
  · exact boot_of_marks (marks_rowHalts ..)
  · rfl

theorem exec_repairDecision {s : State} {r : Repair} (differs : Bool) (other : List Nat) (hr : s.boot.repair = some r) (ht : r.ticked = true)
    (hd : r.decided = false) (hh : faultsHalted s r = true) : Answers (exec (.repairDecision differs other) s) (fun w =>
      ∃ r', w.boot.repair = some r' ∧ r'.decided = true ∧ r'.replay = (!differs && !s.boot.single) ∧ ∀ x ∈ r.faults, x ∈ r'.faults) := by
  show Answers (execRepairDecision differs other s) _
  unfold execRepairDecision
  rw [hr]
  dsimp only
  rw [if_neg (by rw [ht, hd, hh]; decide)]
  have h0 : Deciding r s.boot.single s := ⟨⟨r, hr, hd, fun _ => id⟩, rfl⟩
  have h1 : Deciding r s.boot.single (if differs && !s.boot.single then
      fenceOther other (modBoot s (fun b => { b with flags := setBit b.flags 3 })) else s) := by
    split
    · exact deciding_fenceOther other (h0.of_boot rfl rfl)
    · exact h0
  generalize (if differs && !s.boot.single then fenceOther other (modBoot s (fun b => { b with flags := setBit b.flags 3 })) else s) = s1 at h1
  obtain ⟨⟨x, hx, -, hf⟩, hs⟩ := h1
  rw [hx]
  refine ⟨_, rfl, _, rfl, rfl, ?_, hf⟩
  refine congrArg (fun b => !differs && !b) ((forEach_keeps (fun t => t.boot.single) (fun y t => ?_) _ s1).trans hs)
  split
  · rw [boot_exhausted, single_fenceRow]
  · rfl

/-! ## The end of a repair -/

theorem marks_foldl_snd {α β : Type} {g : β × State → α → β × State} (h : ∀ r a, marks (g r a).2 = marks r.2) (l : List α) (r : β × State) :
    marks (l.foldl g r).2 = marks r.2 := by
  induction l generalizing r with
  | nil => rfl
  | cons a l ih => rw [List.foldl_cons, ih, h]

/-- What the end of a repair keeps: the count of repairs and the faults that came later, with no unit that moved fenced. -/
def Mended (s : State) (us : List Nat) (w : State) : Prop :=
  w.boot.count = s.boot.count ∧ w.boot.later = s.boot.later ∧ ∀ v ∈ us, unitFenced w v = false

theorem Mended.of_marks {s w w' : State} {us : List Nat} (h : Mended s us w) (hm : marks w' = marks w) : Mended s us w' := by
  unfold Mended at *
  rw [boot_of_marks hm, fenced_of_marks hm]
  exact h

theorem mended_moves (l : List FaultRec) (unclean us : List Nat) (s : State) : Mended s us (forEach us (unitMoved l unclean) s) := by
  have hb : ∀ t u, (unitMoved l unclean u t).boot = t.boot := fun t u => (congrArg Marks.boot (marks_unitMoved l unclean u t) :)
  have hfe : ∀ t u v, unitFenced (unitMoved l unclean u t) v = if v = u then false else unitFenced t v :=
    fun t u v => (congrArg (fun k : Marks => k.fenced v) (marks_unitMoved l unclean u t) :)
  have hboot : (forEach us (unitMoved l unclean) s).boot = s.boot := forEach_keeps (·.boot) (fun u t => hb t u) us s
  refine ⟨congrArg Boot.count hboot, congrArg Boot.later hboot, fun v hv => ?_⟩
  refine forEach_establishes (I := fun _ => True) (Q := fun t => unitFenced t v = false) (fun _ _ _ => trivial) (fun u t _ h => ?_) (fun t _ => ?_) hv trivial
  · rw [hfe, h, ite_self]
  · rw [hfe, if_pos rfl]

theorem exec_repairDone {s : State} {r : Repair} (unclean : List Nat) (hr : s.boot.repair = some r) (hd : r.decided = true) :
    Answers (exec (.repairDone unclean) s) (fun w => w.boot.count = incCnt s.boot.count ∧ w.boot.later = [] ∧
      w.boot.repair = (if s.boot.later = [] then none else some { faults := s.boot.later }) ∧
      ∀ v ∈ r.moved, (getField s (fieldOf v)).up = true → unitFenced w v = false) := by
  show Answers (execRepairDone unclean s) _
  unfold execRepairDone
  rw [hr]
  change Answers (if !r.decided then .next s else _) _
  rw [if_neg (by rw [hd]; decide)]
  extract_lets moved s1 lost owners real
  have h1 : Mended s moved s1 := mended_moves r.faults unclean moved s
  clear_value s1
  split
  rename_i res s2 hfold
  have h2 : Mended s moved s2 := by
    have hm : marks (res, s2).2 = marks s1 := by
      rw [← hfold]
      refine marks_foldl_snd (fun a p => ?_) owners _
      dsimp only
      split <;> simp
    exact h1.of_marks hm
  extract_lets s3 whole ps s4 s5 s6
  have h3 : Mended s moved s3 := by
    unfold s3
    split
    · exact h2
    · exact h2
  have h4 : Mended s moved s4 := by
    unfold s4
    split
    · exact h3
    · exact h3
  have h5 : Mended s moved s5 := h4.of_marks (marks_forEach _ _ _ (fun p t => marks_resolve ..))
  have h6 : Mended s moved s6 := by
    unfold s6
    split
    · exact h5.of_marks (marks_raise ..)
    · exact h5
  obtain ⟨hc, hl, hf⟩ := h6
  clear_value s6
  refine ⟨_, rfl, congrArg incCnt hc, rfl, ?_, fun v hv hu => hf v (List.mem_filter.mpr ⟨hv, hu⟩)⟩
  show (if s6.boot.later.isEmpty then none else some ({ faults := s6.boot.later } : Repair)) = _
  rw [hl]
  cases s.boot.later <;> rfl

/-! ## The commands -/

theorem image_weightsInvalid (p : Nat) (s : State) : (getPolder (weightsInvalid p s) p).image = (getPolder s p).image ∧
    (getPolder (weightsInvalid p s) p).wgtValid = false := by
  unfold weightsInvalid
  dsimp only
  split
  · rw [getPolder_of_shelf ((shelf_weightsEvent ..).trans (shelf_raise ..)), getPolder_setPolder]
    exact ⟨rfl, rfl⟩
  · exact ⟨rfl, Bool.eq_false_iff.mpr ‹_›⟩

/-- The image map of a polder registered, or removed by a count of 0. -/
def imageSet (p a n : Nat) (s : State) : State := weightsInvalid p (modPolder s p (fun x => { x with image := if n = 0 then none else some (a, n) }))

theorem exec_rprImage {s : State} {q p a n : Nat} (ht : Taken s q 0x44) (hp : bitsOf (headCmd s q).a0.toNat 7 0 = p)
    (ha : bitsOf (headCmd s q).a1.toNat 40 0 = a) (hn : bitsOf (headCmd s q).a2.toNat 23 0 = n) (hs : (getPolder s p).state ≠ 0) (hl : n ≤ 4194304)
    (hr : n = 0 ∨ (a % 16 = 0 ∧ dramRange a (16 * n) = true)) : ∃ w, exec (.rprImage q) s = .next (finish q 0 0 w) ∧
      (getPolder w p).image = (if n = 0 then none else some (a, n)) ∧ (getPolder w p).wgtValid = false := by
  have hx : execRprImage q s = .next (finish q 0 0 (imageSet p a n (takeCmd q s))) := by
    subst hp ha hn
    refine next_of_pass ht ?_
    refine (if_neg hs).trans (if_neg ?_)
    rw [decide_eq_false (Nat.not_lt.mpr hl)]
    obtain h | ⟨h1, h2⟩ := hr
    · rw [h]
      simp
    · rw [h1, h2]
      simp
  obtain ⟨hi, hv⟩ := image_weightsInvalid p (modPolder (takeCmd q s) p (fun x => { x with image := if n = 0 then none else some (a, n) }))
  rw [getPolder_modPolder] at hi
  exact ⟨_, hx, hi, hv⟩

/-- What RPR_RESTORE leaves: the records written, the error flagged, the weights not valid. -/
def imageRestored (p : Nat) (r : (Nat × List Nat × Bool) × State) : State :=
  weightsInvalid p (if r.1.2.2 then modBoot r.2 (fun b => { b with flags := setBit b.flags 4 }) else r.2)

theorem exec_rprRestore {s : State} {q p : Nat} (ht : Taken s q 0x45) (hp : bitsOf (headCmd s q).a0.toNat 7 0 = p)
    (hs : (getPolder s p).state = 1 ∨ (getPolder s p).state = 3) (hi : (getPolder s p).image ≠ none) {m : W64} (hm : (headCmd s q).a1 = m) :
    let r := imageWrite p (fun v => isUnit v && m.getLsbD (fieldOf v)) (takeCmd q s)
    ∃ w, exec (.rprRestore q) s = .next (finish q 0 r.1.1 w) ∧ (r.1.2.2 = true → w.boot.flags.getLsbD 4 = true) ∧ (getPolder w p).wgtValid = false := by
  intro r
  have hx : execRprRestore q s = .next (finish q 0 r.1.1 (imageRestored p r)) := by
    subst hp hm
    refine next_of_pass ht ?_
    refine if_neg ?_
    show ¬((!([1, 3].contains (getPolder s (bitsOf (headCmd s q).a0.toNat 7 0)).state) ||
      (getPolder s (bitsOf (headCmd s q).a0.toNat 7 0)).image.isNone) = true)
    rw [Option.isNone_eq_false_iff.mpr (Option.isSome_iff_ne_none.mpr hi)]
    obtain h | h := hs <;> rw [h] <;> decide
  refine ⟨_, hx, fun hr => ?_, (image_weightsInvalid _ _).2⟩
  unfold imageRestored
  rw [boot_of_marks (marks_weightsInvalid _ _), if_pos hr]
  exact getLsbD_setBit_self (by decide) _

theorem exec_rprFence {s : State} {q u : Nat} (ht : Taken s q 0x46) (hc : bitsOf (headCmd s q).a0.toNat 19 0 = u) (hu : isUnit u = true)
    (ho : ownerOf s u ≠ none) (hf : unitFenced s u = false) (hr : rowAbsent s u = false) (hd : fieldDown s (fieldOf u) = false) :
    ∃ w, exec (.rprFence q) s = .next (finish q 0 0 w) ∧ Hit s w u 5 := by
  have hx : execRprFence q s = .next (finish q 0 0 (unitFault u 5 0 (takeCmd q s))) := by
    subst hc
    refine next_of_pass ht ?_
    refine (if_neg ?_).trans (if_neg (fun h => Bool.false_ne_true (hd.symm.trans h)))
    show ¬((!isUnit (bitsOf (headCmd s q).a0.toNat 19 0) || (ownerOf s (bitsOf (headCmd s q).a0.toNat 19 0)).isNone ||
      unitFenced s (bitsOf (headCmd s q).a0.toNat 19 0) || rowAbsent s (bitsOf (headCmd s q).a0.toNat 19 0)) = true)
    rw [hu, hf, hr, Option.isNone_eq_false_iff.mpr (Option.isSome_iff_ne_none.mpr ho)]
    decide
  exact ⟨_, hx, (hit_unitFault u 5 0 (takeCmd q s)).of_site rfl⟩

theorem slotBad_slotClear {ch : Nat} (hc : ch < 3) (i : Nat) (x : RowMap) : slotBad (slotClear ch i x) ch i = false := by
  have h : ∀ {n : Nat} (w : BitVec n), (clrBit w i).getLsbD i = false := by
    intro n w
    unfold clrBit
    rw [BitVec.getLsbD_and, BitVec.getLsbD_not, BitVec.getLsbD_ofNat, Nat.testBit_two_pow_self]
    cases h : decide (i < n) <;> simp
  obtain rfl | rfl | rfl : ch = 0 ∨ ch = 1 ∨ ch = 2 := by omega
  · exact h x.cc
  · exact h x.mu
  · exact h x.sfu

theorem slotClear_bad {ch : Nat} (hc : ch < 4) (i : Nat) (x : RowMap) :
    if ch = 3 then (slotClear ch i x).row = 0 else slotBad (slotClear ch i x) ch i = false := by
  by_cases h : ch = 3
  · subst h
    exact rfl
  · rw [if_neg h]
    exact slotBad_slotClear (by omega) i x

/-- Settles O58: a fault by the marks that it leaves and that nothing after it removes; the decision and the end of a repair by what every
step of them keeps. -/
theorem faultsAndRepairRun : Obligations.FaultsAndRepairRun := by
  intro s q c t p u f hit
  refine ⟨fun v hc hf => exec_faultArith hc hf, fun v addr ha hf => ⟨exec_faultSram_uncorrected ha hf, ?corrected⟩, fun v hu hf => exec_logicFault hu hf,
    fun f prow hf hp hu hr => exec_switchFault hf hp hu hr, fun f hf hu hn hp => exec_livenessProbe hf hu hn hp,
    fun v p hu hv ho hp hf => exec_probeTimeout hu hv ho hp hf, fun differs other r hr ht hd hh => exec_repairDecision differs other hr ht hd hh,
    fun unclean r hr hd => exec_repairDone unclean hr hd, ?image, fun ht hs hi => exec_rprRestore ht rfl hs hi rfl,
    fun ht hu ho hf hr hd => exec_rprFence ht rfl hu ho hf hr hd, ?clear, ?map⟩
  case corrected =>
    refine (exec_faultSram_corrected ha hf).trans (congrArg Host.Outcome.next ?_)
    rfl
  case image =>
    intro ht a n hs hl hr
    exact exec_rprImage ht rfl rfl rfl hs hl hr
  case clear =>
    intro ht r ch slot hp hd hr hs hf
    have hany : (poldersHeld s).any (fun p => polderIn s p f) = false := by
      rw [List.any_eq_false]
      intro p hm
      rw [hp p hm]
      decide
    suffices hx : ∃ w, execRprClear q true s = .next (finish q 0 0 (rowChange f r (slotClear ch slot) w)) by
      obtain ⟨w, hx⟩ := hx
      refine ⟨_, hx, rfl, ?_⟩
      rw [fmapRow_rowChange]
      exact slotClear_bad (Nat.mod_lt _ (by decide)) slot (fmapRow w f r)
    have hx : execRprClear q true s = _ := hostCmd_of_taken ht
    refine ⟨_, hx.trans (congrArg Host.Outcome.next ((if_neg ?_).trans ((if_neg ?_).trans ((if_neg ?_).trans ((if_neg ?_).trans
      (if_neg Bool.false_ne_true))))))⟩
    · exact fun h => Bool.false_ne_true (hany.symm.trans h)
    · exact fun h => Bool.false_ne_true (hd.symm.trans h)
    · show ¬((decide (r > 99) || (ch != 3 && decide (slot ≥ (chainSlots ch).1))) = true)
      rw [decide_eq_false (Nat.not_lt.mpr hr)]
      obtain h | h := hs
      · rw [h]
        simp
      · rw [decide_eq_false (Nat.not_le.mpr h)]
        simp
    · show ¬(((fmapRow s f r).factory && isFactory f r ch slot) = true)
      obtain h | h := hf
      · rw [h]
        simp
      · rw [h]
        simp
  case map =>
    intro ht a m hb
    show execRprMapRead q s = _
    refine next_of_pass ht ?_
    exact copyCmd_of_fits hb

end Sys2Proof.Proofs
end

section
/-! PROOFS. The security commands: certificate and keys, enrolment, firmware, measurement, the journal (16 R530 to R548). -/

namespace Sys2Proof.Proofs

open Sys2Proof Sys2Proof.Machine

theorem sec_raise (code : Nat) (p c u : Option Nat) (arg : Nat) (s : State) : (raise code p c u arg s).sec = s.sec :=
  (congrArg State.sec (stable_raise code p c u arg s) :)

/-! ## The buffers that are copied -/

theorem length_certBytes (secret : List Byte) : (certBytes secret).length = 256 := by
  unfold certBytes certPart
  simp only [List.length_append, List.length_map, List.length_range, toLe_length, zeros, List.length_replicate]

theorem length_allKeys (s : State) : ((List.range 4).flatMap (keyBytes s)).length = 256 := by
  have h : ∀ k, (keyBytes s k).length = 64 := by
    intro k
    unfold keyBytes
    simp only [List.length_append, toLe_length, zeros, List.length_replicate]
  simp only [List.length_flatMap, h]
  rfl

theorem exec_secCopy {s : State} {q opc : Nat} {bs : State → List Byte} (ht : Taken s q opc) (hl : (bs (takeCmd q s)).length = 256)
    (hb : bufferStatus (takeCmd q s) (bitsOf (headCmd s q).a1.toNat 40 0) (bitsOf (headCmd s q).a2.toNat 31 0) 256 = none) :
    hostCmd q opc (fun c t => copyCmd q c (bs t) t) s =
      .next (finish q 0 256 (copyBytes (bitsOf (headCmd s q).a1.toNat 40 0) (bs (takeCmd q s)) (takeCmd q s))) := by
  refine next_of_pass ht ?_
  rw [copyCmd_of_fits (by rw [hl]; exact hb), hl]

/-! ## Enrolment -/

theorem sec_enrol (b : List Byte) (s : State) : (enrol b s).sec = { s.sec with
    slotState := lset s.sec.slotState (field b 7 1) (if field b 6 1 = 1 then 1 else 2),
    slotKey := (if field b 6 1 = 1 then lset s.sec.slotKey (field b 7 1) (BitVec.ofNat 456 (field b 0x28 57)) else s.sec.slotKey),
    nonce := s.sec.nonce + 1 } := by
  unfold enrol
  dsimp only
  rw [sec_raise]
  by_cases h : field b 6 1 = 1
  · simp only [h]
    rfl
  · simp only [beq_false_of_ne h, if_neg h]
    rfl

theorem exec_secEnrol {s : State} {q a : Nat} (ht : Taken s q 0x61) (ha : bitsOf (headCmd s q).a1.toNat 40 0 = a)
    (hs : sourceStatus (takeCmd q s) a 256 = none) {b : List Byte} (hb : rdN (takeCmd q s).dram a 256 = b) (h1 : enrolShape b = true)
    (h2 : enrolState (takeCmd q s) b = true) (h3 : enrolProof (takeCmd q s) b = true) :
    exec (.secEnrol q) s = .next (finish q 0 0 (enrol b (takeCmd q s))) := by
  have hx : execSecEnrol q s = _ := hostCmd_of_taken ht
  simp only [ha, hs, hb, h1, h2, h3] at hx
  exact hx

/-! ## Firmware -/

theorem exec_secFwUpdate {s : State} {q a n : Nat} (ht : Taken s q 0x62) (ha : bitsOf (headCmd s q).a1.toNat 40 0 = a)
    (hn : bitsOf (headCmd s q).a2.toNat 31 0 = n) (hs : sourceStatus (takeCmd q s) a n = none) {b : List Byte} (hb : rdN (takeCmd q s).dram a n = b)
    (hl : 12 ≤ n) (hf : field b 8 4 = n) (hv : imageValid (takeCmd q s) b n = true) :
    exec (.secFwUpdate q) s = .next (if s.boot.fwWrite.isSome then finish q stBusy 0 (takeCmd q s) else fwBegin q (imageOf b) (takeCmd q s)) := by
  have hx : execSecFwUpdate q s = _ := hostCmd_of_taken ht
  have hlt : ¬((decide (n < 12) || n != n) = true) := by
    rw [decide_eq_false (Nat.not_lt.mpr hl)]
    simp
  simp only [ha, hn, hs, hb, hf, hv] at hx
  exact hx.trans (congrArg Host.Outcome.next ((if_neg hlt).trans (if_neg (by decide))))

theorem fwBegin_eq (q : Nat) (i : FwImage) (s : State) : fwBegin q i s = { s with boot :=
    (if s.boot.runB then { s.boot with imgA := { i with good := false }, fwWrite := some (q, false, i) }
      else { s.boot with imgB := { i with good := false }, fwWrite := some (q, true, i) }) } := by
  unfold fwBegin putImage modBoot
  cases s.boot.runB <;> rfl

theorem fwEnd_of_write {s : State} {k : Nat} {toB : Bool} {i : FwImage} (h : s.boot.fwWrite = some (k, toB, i)) : fwEnd s =
    finish k 0 0 (raise 0x82 none none none (i.version.toNat % 2 ^ 32 + 2 ^ 32 * i.svn.toNat)
      { s with boot := (if toB then { s.boot with imgB := i, fwWrite := none } else { s.boot with imgA := i, fwWrite := none }) }) := by
  unfold fwEnd
  rw [h]
  cases toB <;> rfl

/-- The floor that a commit leaves. -/
theorem max_svn (a b : BitVec 6) : (if a < b then b else a).toNat = max a.toNat b.toNat := by
  by_cases h : a < b
  · rw [if_pos h]
    exact (Nat.max_eq_right (Nat.le_of_lt (BitVec.lt_def.mp h))).symm
  · rw [if_neg h]
    exact (Nat.max_eq_left (Nat.le_of_not_lt (fun hlt => h (BitVec.lt_def.mpr hlt)))).symm

/-! ## Measurement -/

theorem exec_secMeasure {s : State} {q p : Nat} (ht : Taken s q 0x64) (hp : bitsOf (headCmd s q).a0.toNat 7 0 = p)
    (hs : (getPolder s p).state = 1 ∨ (getPolder s p).state = 3) {x : Nat × Nat} (hi : (getPolder s p).image = some x) {bs : List Byte}
    (hw : weightBytes (takeCmd q s) x.1 x.2 = some bs) : ∃ u, exec (.secMeasure q) s = .next (finish q 0 bs.length u) ∧
      getPolder u p = { getPolder s p with wgtDigest := Config.shake256 bs, wgtValid := true, measures := satInc (getPolder s p).measures } := by
  have hc : [1, 3].contains (getPolder (takeCmd q s) p).state = true := by
    show [1, 3].contains (getPolder s p).state = true
    obtain h | h := hs <;> rw [h] <;> decide
  have hi' : (getPolder (takeCmd q s) p).image = some x := hi
  have hx : execSecMeasure q s = _ := hostCmd_of_taken ht
  simp only [polderArg, hp, hc, if_true, hi', hw] at hx
  refine ⟨_, hx, ?_⟩
  rw [getPolder_of_shelf (shelf_weightsEvent ..), getPolder_setPolder, ← hi]
  rfl

/-! ## The journal -/

theorem exec_secJournal {s : State} {q : Nat} (ht : Taken s q 0x65) (ha : (headCmd s q).a1.toNat % 64 = 0) (hn : (headCmd s q).a2.toNat % 65536 = 0)
    (hl : (headCmd s q).a2.toNat ≤ 0x40000000) (hd : dramRange (headCmd s q).a1.toNat (headCmd s q).a2.toNat = true)
    (hc : inConfArea (takeCmd q s) (headCmd s q).a1.toNat (headCmd s q).a2.toNat = false)
    (hr : rangeOff (takeCmd q s) (headCmd s q).a1.toNat (headCmd s q).a2.toNat = false) :
    exec (.secJournal q) s = .next (finish q 0 0 { takeCmd q s with sec := { (takeCmd q s).sec with
      jnlBase := (headCmd s q).a1.truncate 41, jnlSize := (headCmd s q).a2.truncate 31, jnlHead := 0, jnlTail := 0 } }) := by
  show execSecJournal q s = _
  refine next_of_pass ht ?_
  refine (if_neg ?_).trans ((if_neg ?_).trans (if_neg ?_))
  · rw [ha, hn, hd, decide_eq_false (Nat.not_lt.mpr hl)]
    decide
  · rw [hc]
    decide
  · rw [hr]
    decide

theorem writeJnlHead_of_legal {v : W64} {s : State} (h8 : bitsOf v.toNat 29 0 % 8 = 0)
    (hs : s.sec.jnlSize = 0 ∨ bitsOf v.toNat 29 0 < s.sec.jnlSize.toNat) :
    writeJnlHead v s = (0, { s with sec := { s.sec with jnlHead := v.truncate 30 } }) := by
  have hv : BitVec.ofNat 30 (bitsOf v.toNat 29 0) = v.truncate 30 := BitVec.eq_of_toNat_eq (by simp [bitsOf])
  unfold writeJnlHead
  dsimp only
  rw [if_neg, hv]
  · rfl
  · rw [h8]
    obtain h | h := hs
    · rw [h]
      simp
    · rw [decide_eq_false (Nat.not_le.mpr h)]
      simp

/-- Settles O59: each command by its checks and what it writes; the end of a firmware write by its equation. -/
theorem securityRuns : Obligations.SecurityRuns := by
  intro s q c t p a n num keys
  refine ⟨fun ht hb => ?cert, fun ht hb => ?keys, ?enrol, ?update, fun k toB i h => fwEnd_of_write h, fun ht hm => ?commit,
    fun ht hs x hi bs hw => exec_secMeasure ht rfl hs hi hw, fun ht ha hn hl hd hc hr => exec_secJournal ht ha hn hl hd hc hr, fun h v h8 hs => ?head⟩
  case cert => exact exec_secCopy (bs := fun t => certBytes t.sec.secret) ht (length_certBytes _) hb
  case keys => exact exec_secCopy (bs := fun t => (List.range 4).flatMap (keyBytes t)) ht (length_allKeys _) hb
  case enrol =>
    intro ht hs b h1 h2 h3 k on
    exact ⟨_, exec_secEnrol ht rfl hs rfl h1 h2 h3, sec_enrol b t⟩
  case update =>
    intro ht hs b hl hf hv i j
    have hx := exec_secFwUpdate ht rfl rfl hs rfl hl hf hv
    refine ⟨fun hw => ?_, fun hw => ?_⟩
    · rw [if_pos (Option.isSome_iff_ne_none.mpr hw)] at hx
      exact hx
    · rw [hw, if_neg (by decide), fwBegin_eq] at hx
      exact hx
  case commit =>
    have hx : execSecFwCommit q s = .next (finish q 0 0 (modSec t (fun k => { k with svnMin := if k.svnMin < t.boot.svnRun then t.boot.svnRun else k.svnMin }))) := by
      refine next_of_pass ht ?_
      exact if_neg (fun h => Bool.false_ne_true (hm.symm.trans h))
    exact ⟨_, hx, rfl, max_svn s.sec.svnMin s.boot.svnRun⟩
  case head =>
    show regDone h (writeJnlHead v s) = _
    rw [writeJnlHead_of_legal h8 hs]
    rfl

end Sys2Proof.Proofs
end

section
/-! PROOFS. Host frames, register accesses, the side channels, the debug path, the queue registers and the mailboxes (12 R411 to R437,
17 R550 to R563, 18 R572, R573). -/

namespace Sys2Proof.Proofs

open Sys2Proof Sys2Proof.Machine

/-! ## Nimmos ports -/

theorem getPort_setPort_self (s : State) (p : Nat) (x : NPort) : getPort (setPort s p x) p = x := by
  unfold getPort setPort
  split <;> rfl

theorem setPort_setPort (s : State) (p : Nat) (x y : NPort) : setPort (setPort s p x) p y = setPort s p y := by
  unfold setPort
  split <;> rfl

theorem setPort_getPort (s : State) (p : Nat) : setPort s p (getPort s p) = s := by
  unfold setPort getPort
  split <;> rfl

theorem getPort_setPort_other (s : State) {p q : Nat} (x : NPort) (h : (p = 0) ≠ (q = 0)) : getPort (setPort s p x) q = getPort s q := by
  unfold getPort setPort
  by_cases hp : p = 0
  · have hq : ¬q = 0 := fun hq => h (by rw [hp, hq])
    rw [if_pos hp, if_neg hq, if_neg hq]
  · have hq : q = 0 := by
      refine Decidable.byContradiction fun hq => ?_
      exact h (propext ⟨fun a => absurd a hp, fun a => absurd a hq⟩)
    rw [if_neg hp, if_pos hq, if_pos hq]

/-- What a count at a port leaves: whether each port is up. -/
theorem st_setPort (s : State) (p q : Nat) {x : NPort} (h : x.st = (getPort s p).st) : (getPort (setPort s p x) q).st = (getPort s q).st := by
  by_cases hpq : (p = 0) = (q = 0)
  · have h1 : getPort (setPort s p x) q = getPort (setPort s p x) p := by
      unfold getPort
      simp only [hpq]
    have h2 : getPort s q = getPort s p := by
      unfold getPort
      simp only [hpq]
    rw [h1, h2, getPort_setPort_self, h]
  · rw [getPort_setPort_other s x hpq]

theorem activePort_noteFec (fr : LinkFrame) (s : State) : activePort (noteFec fr s) = activePort s := by
  have hup : ∀ q, portUp (noteFec fr s) q = portUp s q := by
    intro q
    unfold portUp noteFec
    split
    · rfl
    · exact congrArg (· == 2) (st_setPort s fr.port q rfl)
    · exact congrArg (· == 2) (st_setPort s fr.port q rfl)
  have hb : (noteFec fr s).host.activeB = s.host.activeB := by
    unfold noteFec modPort setPort
    split
    · rfl
    · split <;> rfl
    · split <;> rfl
  unfold activePort
  dsimp only
  rw [hb, hup, hup]

theorem mode_noteFec (fr : LinkFrame) (s : State) : (noteFec fr s).host.mode = s.host.mode := by
  unfold noteFec modPort setPort
  split
  · rfl
  · split <;> rfl
  · split <;> rfl

/-! ## REQ frames -/

/-- A frame that its port takes as a REQ. -/
structure ReqFrame (fr : LinkFrame) (s : State) : Prop where
  port : fr.port < 2
  up : portUp s fr.port = true
  good : frGood fr = true
  type : frType fr = 1

theorem ReqFrame.frameIn_eq {fr : LinkFrame} {s : State} (h : ReqFrame fr s) (f : State → Out) : frameIn fr ftReq f s = f (noteFec fr s) := by
  unfold frameIn
  rw [if_neg (Nat.not_le.mpr h.port), if_neg (by rw [h.up]; decide)]
  refine (if_neg ?_).trans (if_pos h.type)
  rw [h.good, h.type]
  decide

/-- The requester of a frame. -/
def frReq (fr : LinkFrame) : Req := { port := fr.port, sender := frSender fr, tag := frTag fr }

theorem ReqFrame.hostRead_eq {fr : LinkFrame} {s : State} (h : ReqFrame fr s) (ho : frOp fr ≠ 1) : exec (.hostRead fr) s =
    reqFrame fr (fun h s =>
        if frOp fr != 0 then complete h stPerm [] s
        else if frWords fr != 0 then complete h stAddr [] s
        else hostAccess h false (frAddr fr) (8 * (frRwords fr + 1)) [] s) (noteFec fr s) := by
  show execHostRead fr s = _
  unfold execHostRead
  rw [h.frameIn_eq]
  exact if_neg ho

theorem ReqFrame.hostWrite_eq {fr : LinkFrame} {s : State} (h : ReqFrame fr s) (ho : frOp fr ≠ 0) : exec (.hostWrite fr) s =
    reqFrame fr (fun h s =>
        if frOp fr != 1 then complete h stPerm [] s
        else if frWords fr = 0 || frWords fr > 64 then complete h stAddr [] s
        else hostAccess h true (frAddr fr) (8 * frWords fr) fr.payload s) (noteFec fr s) := by
  show execHostWrite fr s = _
  unfold execHostWrite
  rw [h.frameIn_eq]
  exact if_neg ho

theorem reqFrame_standby {fr : LinkFrame} {s : State} (hm : s.host.mode = true) (ha : activePort s ≠ some fr.port) (f : Req → State → State) :
    reqFrame fr f (noteFec fr s) = .next (noteFec fr s) := by
  refine if_pos ?_
  rw [mode_noteFec, activePort_noteFec, hm, bne_iff_ne.mpr ha]
  rfl

/-- The port of a frame carries requests. -/
def Carries (fr : LinkFrame) (s : State) : Prop := s.host.mode = false ∨ activePort s = some fr.port

theorem Carries.notStandby {fr : LinkFrame} {s : State} (h : Carries fr s) :
    ¬(((noteFec fr s).host.mode && activePort (noteFec fr s) != some fr.port) = true) := by
  rw [mode_noteFec, activePort_noteFec]
  obtain h | h := h
  · rw [h]
    simp
  · rw [h]
    simp

/-- The port after a frame that is not the one expected: the acknowledgement or the one NAK that it calls for. -/
def portRefusing (seq : W32) (x : NPort) : NPort :=
  if seqBelow seq x.rxNext then { x with ackSent := some (x.rxNext, false) }
  else if x.nakSent then x else { x with nakSent := true, ackSent := some (x.rxNext, true) }

theorem takeSeq_refused {p : Nat} {seq : W32} {s : State} (h : seq ≠ (getPort s p).rxNext) :
    takeSeq p seq s = (false, setPort s p (portRefusing seq (getPort s p))) := by
  unfold takeSeq portRefusing
  dsimp only
  rw [if_neg h]
  split
  · rfl
  · split
    · rw [setPort_getPort]
    · rfl

theorem Carries.discards {fr : LinkFrame} {s : State} (h : Carries fr s) (hq : frSeq fr ≠ (getPort (noteFec fr s) fr.port).rxNext)
    (f : Req → State → State) : reqFrame fr f (noteFec fr s) =
      .next (setPort (noteFec fr s) fr.port (portRefusing (frSeq fr) (getPort (noteFec fr s) fr.port))) := by
  refine (if_neg h.notStandby).trans ?_
  rw [takeSeq_refused hq]
  rfl

/-- The state once the frame expected has been taken. -/
def frameTaken (p : Nat) (s : State) : State :=
  setPort s p { getPort s p with
    rxNext := (getPort s p).rxNext + 1, nakSent := false, ackSent := some ((getPort s p).rxNext + 1, false), reqs := incCnt (getPort s p).reqs }

theorem accesses_setPort (s : State) (p : Nat) (x : NPort) : (setPort s p x).host.accesses = s.host.accesses := by
  unfold setPort
  split <;> rfl

theorem accesses_noteFec (fr : LinkFrame) (s : State) : (noteFec fr s).host.accesses = s.host.accesses := by
  unfold noteFec
  split
  · rfl
  · exact accesses_setPort ..
  · exact accesses_setPort ..

theorem Carries.takes {fr : LinkFrame} {s : State} (h : Carries fr s) (hq : frSeq fr = (getPort (noteFec fr s) fr.port).rxNext)
    (f : Req → State → State) : reqFrame fr f (noteFec fr s) =
      if portOutstanding s fr.port ≥ 1024 then .next (complete (frReq fr) stBusy [] (frameTaken fr.port (noteFec fr s)))
      else .next (f (frReq fr) (frameTaken fr.port (noteFec fr s))) := by
  have ht : takeSeq fr.port (frSeq fr) (noteFec fr s) = _ := if_pos hq
  have hm : modPort (takeSeq fr.port (frSeq fr) (noteFec fr s)).2 fr.port (fun x => { x with reqs := incCnt x.reqs }) = frameTaken fr.port (noteFec fr s) := by
    rw [ht]
    unfold modPort frameTaken
    rw [setPort_setPort, getPort_setPort_self]
  have ho : portOutstanding (frameTaken fr.port (noteFec fr s)) fr.port = portOutstanding s fr.port := by
    unfold portOutstanding frameTaken
    rw [accesses_setPort, accesses_noteFec]
  refine (if_neg h.notStandby).trans ((if_neg ?_).trans ?_)
  · rw [ht]
    exact Bool.false_ne_true
  · dsimp only
    rw [hm, ho]
    rfl

/-! ## The regions -/

theorem jtagBusy_of_port {s : State} {h : Req} (hp : h.port ≠ 2) (a : Nat) : jtagBusy s h a = false := by
  unfold jtagBusy
  rw [beq_false_of_ne hp]
  rfl

section
variable {s : State} {h : Req} {a n : Nat}

theorem hostAccess_busy {wr : Bool} {ws : List W64} (hj : jtagBusy s h a = true) : hostAccess h wr a n ws s = complete h stBusy [] s := if_pos hj

theorem hostAccess_ctl_read {ws : List W64} (hj : jtagBusy s h a = false) (hr : regionOf a n = some .ctl) (hs : regSize a n = true)
    (ho : regOff s a = false) : hostAccess h false a n ws s =
      complete h 0 (regValue s a n) (regSeen (8 * (a / 8)) (a % 8 == 0) (n != 4 || a % 8 == 4) s) := by
  unfold hostAccess
  rw [if_neg (by rw [hj]; decide), hr]
  dsimp only
  rw [if_neg Bool.false_ne_true]
  unfold regRead
  rw [hs, ho]
  rfl

theorem hostAccess_ctl_write {ws : List W64} (hj : jtagBusy s h a = false) (hr : regionOf a n = some .ctl) : hostAccess h true a n ws s =
    complete h (regWrite a n (ws.headD 0) s).1 [] (regWrite a n (ws.headD 0) s).2 := by
  unfold hostAccess
  rw [if_neg (by rw [hj]; decide), hr]
  rfl

theorem hostAccess_dram_read {ws : List W64} (hj : jtagBusy s h a = false) (hr : regionOf a n = some .dram) (hb : bulkSize a n = true)
    (hn : a - 0x40000000000 + n ≤ 2 ^ 41) : hostAccess h false a n ws s = issue h false n (dramParts s h false (a - 0x40000000000) n ws) s := by
  unfold hostAccess
  rw [if_neg (by rw [hj]; decide), hr]
  dsimp only
  rw [hb, if_neg (by decide), if_neg (by simp), if_neg (by simp)]
  exact if_neg (Nat.not_lt.mpr hn)

/-- The DRAM region is 2 TiB. -/
theorem regionOf_dram (hr : regionOf a n = some .dram) : a - 0x40000000000 + n ≤ 2 ^ 41 := by
  unfold regionOf at hr
  split at hr
  · split at hr <;> exact absurd hr (by decide)
  · rename_i r hx hf
    have hm := List.mem_of_find?_eq_some hf
    have hp := List.find?_some hf
    have hd : r.2.2 = .dram := Option.some.inj hr
    simp only [regionBounds, List.mem_cons, List.not_mem_nil, or_false] at hm
    obtain rfl | rfl | rfl | rfl | rfl | rfl := hm
    iterate 5 exact absurd hd (by decide)
    simp only [Bool.and_eq_true, decide_eq_true_eq] at hp
    omega
  · exact absurd hr (by decide)

theorem hostAccess_dram_write {ws : List W64} (hj : jtagBusy s h a = false) (hr : regionOf a n = some .dram) (hb : bulkSize a n = true)
    (hv : overlaps (a - 0x40000000000) n (archiveArea s).1 (archiveArea s).2 = false)
    (hw : s.conf.busy = false ∨ overlaps (a - 0x40000000000) n (stagingArea s).1 (stagingArea s).2 = false) :
    hostAccess h true a n ws s = issue h true n (dramParts s h true (a - 0x40000000000) n ws) s := by
  unfold hostAccess
  rw [if_neg (by rw [hj]; decide), hr]
  dsimp only
  rw [hb, if_neg (by decide), if_neg (by rw [hv]; decide), if_neg (by obtain h | h := hw <;> rw [h] <;> simp)]
  exact if_neg (Nat.not_lt.mpr (regionOf_dram hr))

end

end Sys2Proof.Proofs
end

section
/-! PROOFS. JTAG, SMBus, management Ethernet, the debug path, the queue registers, the mailboxes (12 R427 to R437, 17 R550 to R563,
18 R572, R573). -/

namespace Sys2Proof.Proofs

open Sys2Proof Sys2Proof.Machine

section
variable {s : State}

/-! ## JTAG and the side channels -/

theorem exec_jtagDbgAddr_write (ha : s.power.ao = true) {v : W64} (hv : v.getLsbD 48 = true) :
    exec (.jtagDbgAddr v) s = .next { s with dbg := { s.dbg with ir := 0x10, jAddr := v.truncate 50 } } := by
  refine (if_neg (by rw [ha]; decide)).trans (congrArg Host.Outcome.next (if_pos hv))

theorem jtagBusy_jtag {h : Req} (hp : s.boot.phase ≠ 7) (a : Nat) : jtagBusy s h a = false := by
  unfold jtagBusy
  rw [beq_false_of_ne hp, Bool.and_false, Bool.false_and]

theorem complete_jtag (status : Nat) (data : List W64) (t : State) : complete jtagReq status data t =
    { t with dbg := { t.dbg with jData := data.headD 0, jStatus := BitVec.ofNat 3 status, jDone := true } } := if_pos rfl

/-- A JTAG access begins by clearing DONE. -/
theorem jtagAccess_eq {a n : Nat} (ha : bitsOf s.dbg.jAddr.toNat 47 0 = a) (hn : (if s.dbg.jAddr.getLsbD 49 then 8 else 4) = n)
    (wr : Bool) (v : W64) : jtagAccess wr v s = hostAccess jtagReq wr a n [v] { s with dbg := { s.dbg with jDone := false } } := by
  subst ha hn
  rfl

theorem hostAccess_jtag_read {a n : Nat} {ws : List W64} (hp : s.boot.phase ≠ 7) (hr : regionOf a n = some .ctl) (hs : regSize a n = true)
    (ho : regOff s a = false) : (hostAccess jtagReq false a n ws s).dbg.jDone = true ∧ (hostAccess jtagReq false a n ws s).dbg.jStatus = 0 ∧
      (hostAccess jtagReq false a n ws s).dbg.jData = (regValue s a n).headD 0 := by
  rw [hostAccess_ctl_read (jtagBusy_jtag hp a) hr hs ho, complete_jtag]
  exact ⟨rfl, rfl, rfl⟩

theorem hostAccess_jtag_write {v : W64} {a n : Nat} (hp : s.boot.phase ≠ 7) (hr : regionOf a n = some .ctl) :
    (hostAccess jtagReq true a n [v] s).dbg.jDone = true ∧
      (hostAccess jtagReq true a n [v] s).dbg.jStatus = BitVec.ofNat 3 (regWrite a n v s).1 := by
  rw [hostAccess_ctl_write (jtagBusy_jtag hp a) hr, complete_jtag]
  exact ⟨rfl, rfl⟩

/-- The address and the size of DBG_ADDR lie in the bits that it keeps. -/
theorem jAddr_truncate (v : W64) : bitsOf (v.truncate 50).toNat 47 0 = bitsOf v.toNat 47 0 ∧ (v.truncate 50).getLsbD 49 = v.getLsbD 49 := by
  constructor
  · unfold bitsOf
    simp only [BitVec.toNat_setWidth, Nat.pow_zero, Nat.div_one]
    exact Nat.mod_mod_of_dvd _ (Nat.pow_dvd_pow 2 (by decide))
  · rw [BitVec.getLsbD_setWidth]
    simp

theorem exec_jtagDbgAddr_read (ha : s.power.ao = true) {v : W64} (hv : v.getLsbD 48 = false) (hp : s.boot.phase ≠ 7) {a n : Nat}
    (haddr : bitsOf v.toNat 47 0 = a) (hn : (if v.getLsbD 49 then 8 else 4) = n) {t : State}
    (ht : { s with dbg := { s.dbg with ir := 0x10, jAddr := v.truncate 50, jDone := false } } = t)
    (hr : regionOf a n = some .ctl) (hs : regSize a n = true) (ho : regOff t a = false) :
    Answers (exec (.jtagDbgAddr v) s) (fun u => u.dbg.jDone = true ∧ u.dbg.jStatus = 0 ∧ u.dbg.jData = (regValue t a n).headD 0) := by
  subst ht
  obtain ⟨h1, h2⟩ := jAddr_truncate v
  refine ⟨_, (if_neg (by rw [ha]; decide)).trans (congrArg Host.Outcome.next (if_neg (by rw [hv]; decide))), ?_⟩
  rw [jtagAccess_eq (s := { s with dbg := { s.dbg with ir := 0x10, jAddr := v.truncate 50 } }) (h1.trans haddr)
    ((congrArg (fun b : Bool => if b = true then 8 else 4) h2).trans hn)]
  exact hostAccess_jtag_read hp hr hs ho

theorem exec_jtagDbgData (ha : s.power.ao = true) (v : W64) (hp : s.boot.phase ≠ 7) {a n : Nat} (haddr : bitsOf s.dbg.jAddr.toNat 47 0 = a)
    (hn : (if s.dbg.jAddr.getLsbD 49 then 8 else 4) = n) {t : State} (ht : { s with dbg := { s.dbg with ir := 0x11, jDone := false } } = t)
    (hr : regionOf a n = some .ctl) : Answers (exec (.jtagDbgData v) s) (fun u =>
      u.dbg.jDone = true ∧ u.dbg.jStatus = BitVec.ofNat 3 (regWrite a n v t).1) := by
  subst ht
  refine ⟨_, if_neg (by rw [ha]; decide), ?_⟩
  rw [jtagAccess_eq (s := { s with dbg := { s.dbg with ir := 0x11 } }) haddr hn]
  exact hostAccess_jtag_write hp hr

theorem exec_smbusBlockRead (ha : s.power.ao = true) {cmd : Nat} (hc : cmd < 256) {r : Nat × Nat} (hr : sideReg cmd = some r)
    (ho : sideOpen s cmd = true) : exec (.smbusBlockRead cmd) s =
      .next { s with dbg := { s.dbg with smb := some ((regValue s r.1 r.2).headD 0), smbNack := false } } := by
  refine (if_neg (Nat.not_le.mpr hc)).trans ((if_neg (by rw [ha]; decide)).trans ?_)
  rw [hr, Option.filter_some, if_pos ho]

theorem exec_smbusBlockRead_none (ha : s.power.ao = true) {cmd : Nat} (hc : cmd < 256) (hr : sideReg cmd = none) :
    exec (.smbusBlockRead cmd) s = .next { s with dbg := { s.dbg with smb := none, smbNack := true } } := by
  refine (if_neg (Nat.not_le.mpr hc)).trans ((if_neg (by rw [ha]; decide)).trans ?_)
  rw [hr]
  rfl

theorem exec_requestDatagram (ha : s.power.ao = true) {cmd : Nat} (hc : cmd < 256) {r : Nat × Nat} (hr : sideReg cmd = some r)
    (ho : sideOpen s cmd = true) : exec (.requestDatagram cmd) s = .next { s with dbg := { s.dbg with
      eth := [BitVec.ofNat 8 cmd, 0, 0, 0] ++ toLe 8 ((regValue s r.1 r.2).headD 0).toNat } } := by
  refine (if_neg (Nat.not_le.mpr hc)).trans ((if_neg (by rw [ha]; decide)).trans ?_)
  rw [hr]
  exact if_pos ho

theorem exec_requestDatagram_none (ha : s.power.ao = true) {cmd : Nat} (hc : cmd < 256) (hr : sideReg cmd = none) :
    Answers (exec (.requestDatagram cmd) s) (fun u => u.dbg.eth.take 4 = [BitVec.ofNat 8 cmd, 1, 0, 0] ∧ u.dbg.eth.length = 12) := by
  show Answers (execRequestDatagram cmd s) _
  unfold execRequestDatagram
  rw [if_neg (Nat.not_le.mpr hc), if_neg (by rw [ha]; decide), hr]
  refine ⟨_, rfl, rfl, ?_⟩
  show ([BitVec.ofNat 8 cmd, 1, 0, 0] ++ toLe 8 (takeFree s).1.toNat).length = 12
  rw [List.length_append, toLe_length]
  rfl

/-! ## The debug path -/

theorem exec_debugWindowAccess {h : Req} {wr : Bool} {off words : Nat} {data : List W64} (hp : h.port < 3) (hs : debugSize off words = true)
    (hd : wr = true → data.length = words) (hj : jtagBusy s h (0x110000 + 0x8000 * h.port + off) = false) :
    exec (.debugWindowAccess h wr off words data) s = .next (debugAccess h h.port wr off words data s) := by
  refine (if_neg (Nat.not_le.mpr hp)).trans ((if_neg (by rw [hj]; decide)).trans (if_neg ?_))
  rw [hs]
  cases wr with
  | false => simp
  | true =>
    rw [hd rfl]
    simp

/-- Once served, a DBG packet at a core or a memory unit is a risk to the order of its accesses. -/
def dbgRisk (u : Nat) (k : DbgKind) (p : Packet) (t : State) : State := if k == .cc || k == .mu then orderRisk u p t else t

section
variable {u : Nat} {k : DbgKind} {p : Packet}

/-- A DBG packet that stands at its target's port and is to be served. -/
structure DbgReady (s : State) (u : Nat) (k : DbgKind) (p : Packet) : Prop where
  kind : dbgKind u = some k
  next : nextReq s u opDbg = some p
  present : isUnit u = true → rowAbsent s u = false
  free : heldBackReq s u p = false
  len : dbgLenOk p = true

theorem DbgReady.exec_of_done (h : DbgReady s u k p) {t : State} {d : List W64} (hs : dbgServe u k p s = .done t d) :
    exec (.dbg u) s = .next (if bitsOf p.arg 0 0 = 1 then reply p p.dest opAck 0 0 0 [] (dbgRisk u k p (dropReq u opDbg t))
      else reply p p.dest opRdata (d.length - 1) 0 0 d (dbgRisk u k p (dropReq u opDbg t))) := by
  show execDbg u s = _
  unfold execDbg
  rw [h.kind]
  dsimp only
  rw [h.next]
  dsimp only
  rw [if_neg, if_neg (by rw [h.free]; decide), if_neg (by rw [h.len]; decide), hs]
  · rfl
  · cases hu : isUnit u with
    | false => exact Bool.false_ne_true
    | true =>
      rw [h.present hu]
      decide

/-- The words that a DBG packet names. -/
def dbgWords (p : Packet) : List Nat := (List.range (p.len + 1)).map (· + p.daddr)

theorem dbgServe_read (hw : (dbgWords p).all (dbgDefined s u k (bitsOf p.arg 3 1)) = true) (h0 : bitsOf p.arg 0 0 = 0) : dbgServe u k p s =
    .done (forEach (dbgWords p) (dbgSeen u k (bitsOf p.arg 3 1)) s) ((dbgWords p).map (dbgWord s u k (bitsOf p.arg 3 1))) :=
  (if_neg (show ¬((!(dbgWords p).all (dbgDefined s u k (bitsOf p.arg 3 1))) = true) by rw [hw]; decide)).trans (if_pos h0)

theorem dbgServe_write (hw : (dbgWords p).all (dbgDefined s u k (bitsOf p.arg 3 1)) = true) (h1 : bitsOf p.arg 0 0 = 1)
    (h5 : bitsOf p.arg 3 1 ≠ 5) (hm : k = .mu → bitsOf p.arg 3 1 ≠ 1) :
    dbgServe u k p s = .done (dbgPuts u k (bitsOf p.arg 3 1) p.payload p.daddr s) [] := by
  refine (if_neg (show ¬((!(dbgWords p).all (dbgDefined s u k (bitsOf p.arg 3 1))) = true) by rw [hw]; decide)).trans
    ((if_neg (by rw [h1]; decide)).trans ((if_neg h5).trans (if_neg ?_)))
  intro h
  obtain ⟨hk, hs⟩ := Bool.and_eq_true_iff.mp h
  exact hm (of_decide_eq_true hk) (of_decide_eq_true hs)

end

/-- What a DBG_SNAPSHOT asks for. -/
structure Snapshot where
  polder : Nat
  space : Nat
  type : Nat
  first : Nat
  count : Nat

/-- What a DBG_SNAPSHOT command asks for. -/
def snapshotOf (c : Cmd) : Snapshot :=
  { polder := bitsOf c.a0.toNat 7 0, space := bitsOf c.a0.toNat 10 8, type := bitsOf c.a0.toNat 12 11,
    first := bitsOf c.a2.toNat 19 0, count := bitsOf c.a2.toNat 35 20 }

/-- The words that a snapshot copies of each unit. -/
def Snapshot.words (x : Snapshot) : List Nat := (List.range x.count).map (· + x.first)

/-- The units that a snapshot covers. -/
def Snapshot.units (x : Snapshot) (s : State) : List Nat := (polderUnits s x.polder).filter (fun u => dbgKind u == some (typeKind x.type))

/-- The words that a snapshot copies. -/
def Snapshot.data (x : Snapshot) (s : State) : List W64 :=
  (x.units s).flatMap (fun u => x.words.map (dbgWord s u (typeKind x.type) x.space))

/-- The state once the words of a snapshot are read. -/
def Snapshot.seen (x : Snapshot) (s : State) : State :=
  forEach (x.units s) (fun u t => forEach x.words (dbgSeen u (typeKind x.type) x.space) t) s

theorem Snapshot.length_data (x : Snapshot) (s : State) : (x.data s).length = x.count * (x.units s).length := by
  simp only [Snapshot.data, Snapshot.words, List.length_flatMap, List.length_map, List.length_range, List.map_const', List.sum_replicate_nat,
    Nat.mul_comm]

theorem exec_dbgSnapshot {q : Nat} (ht : Taken s q 0xA0) {c : Cmd} (hc : headCmd s q = c) {x : Snapshot} (hx : snapshotOf c = x)
    {t : State} (htake : takeCmd q s = t) (hst : (getPolder t x.polder).state = 1 ∨ (getPolder t x.polder).state = 3)
    (hup : ∀ u ∈ x.units t, fieldDown t (fieldOf u) = false) (h3 : x.type ≠ 3) (h1 : 1 ≤ x.count) (hl : x.count ≤ 1024)
    (hd : ∀ w ∈ x.words, dbgDefined t 0 (typeKind x.type) x.space w = true)
    (hb : bufferStatus t (bitsOf c.a1.toNat 40 0) (bitsOf c.a3.toNat 31 0) (8 * x.count * (x.units t).length) = none) :
    exec (.dbgSnapshot q) s = .next (finish q 0 (8 * (x.count * (x.units t).length))
      (copyBytes (bitsOf c.a1.toNat 40 0) (wordsBytes (x.data t)) (x.seen t))) := by
  have hstate : ¬((!([1, 3].contains (getPolder t x.polder).state)) = true) := by
    obtain h | h := hst <;> rw [h] <;> decide
  have hfields : ¬(((x.units t).any (fun u => fieldDown t (fieldOf u))) = true) := by
    intro h
    obtain ⟨u, hu, hdown⟩ := List.any_eq_true.mp h
    exact Bool.false_ne_true ((hup u hu).symm.trans hdown)
  have hargs : ¬((decide (x.type = 3) || decide (x.count = 0) || decide (x.count > 1024) ||
      !x.words.all (dbgDefined t 0 (typeKind x.type) x.space)) = true) := by
    rw [List.all_eq_true.mpr hd, decide_eq_false h3, decide_eq_false (Nat.ne_of_gt h1), decide_eq_false (Nat.not_lt.mpr hl)]
    decide
  have hrun : execDbgSnapshot q s = _ := hostCmd_of_taken ht
  rw [htake, hc] at hrun
  rw [← x.length_data t]
  clear hst hup h3 h1 hl hd
  subst hx
  refine hrun.trans (congrArg Host.Outcome.next ((if_neg hstate).trans ((if_neg hfields).trans ((if_neg hargs).trans ?_))))
  dsimp only [snapshotOf, Snapshot.units, Snapshot.words] at hb ⊢
  rw [hb]
  rfl

/-! ## Queue registers -/

theorem exec_sqTail {h : Req} {q : Nat} {v : W32} (hq : q < 8)
    (hr : ringCount (getQ s q).sqHead.toNat (getQ s q).sqTail.toNat + ringCount (getQ s q).sqTail.toNat (v.toNat % 64) ≤ 63) :
    exec (.sqTail h q v) s = .next (complete h 0 [] (skipReserved 64 q (setQ s q { getQ s q with sqTail := v.truncate 6 }))) := by
  have hw : writeSqTail q v s = (0, skipReserved 64 q (setQ s q { getQ s q with sqTail := v.truncate 6 })) := by
    refine (if_neg ?_).trans rfl
    rw [BitVec.toNat_ofNat]
    exact Nat.not_lt.mpr hr
  refine (if_neg (Nat.not_le.mpr hq)).trans ?_
  rw [hw]
  rfl

theorem exec_cqHead {h : Req} {q : Nat} (v : W32) (hq : q < 8) :
    exec (.cqHead h q v) s = .next (complete h 0 [] (skipReserved 64 q (setQ s q { getQ s q with cqHead := v.truncate 6 }))) :=
  if_neg (Nat.not_le.mpr hq)

/-! ## Mailboxes -/

section
variable {h : Req} {n : Nat}

theorem mbxRefuse_none (hd : domOn s n = true) (hs : h.sender ≠ 0) : mbxRefuse s n h.sender = none := by
  unfold mbxRefuse
  rw [hd, if_neg (by decide), if_neg hs]

theorem exec_mbxLockRead_free (hn : n < 64) (hd : domOn s n = true) (hs : h.sender ≠ 0) (ho : (getMbx s n).owner = 0) :
    exec (.mbxLockRead h n) s = .next (complete h 0 [0] (setMbx s n { getMbx s n with owner := BitVec.ofNat 8 h.sender })) := by
  have hr : readMbxLock n h.sender s = (stOk, 0, setMbx s n { getMbx s n with owner := BitVec.ofNat 8 h.sender }) := by
    unfold readMbxLock
    rw [mbxRefuse_none hd hs]
    exact if_pos ho
  refine (if_neg (Nat.not_le.mpr hn)).trans ?_
  rw [hr]
  rfl

theorem exec_mbxLockRead_held (hn : n < 64) (hd : domOn s n = true) (hs : h.sender ≠ 0) (ho : (getMbx s n).owner ≠ 0) :
    exec (.mbxLockRead h n) s = .next (complete h 0 [BitVec.ofNat 64 (getMbx s n).owner.toNat] s) := by
  have hr : readMbxLock n h.sender s = (stOk, (getMbx s n).owner.toNat, s) := by
    unfold readMbxLock
    rw [mbxRefuse_none hd hs]
    exact if_neg ho
  refine (if_neg (Nat.not_le.mpr hn)).trans ?_
  rw [hr]
  rfl

theorem exec_mbxLockWrite (hn : n < 64) (hd : domOn s n = true) (hs : h.sender ≠ 0) (ho : (getMbx s n).owner.toNat = h.sender)
    (hf : (getMbx s n).full = false) {v : W32} (hv : v.toNat % 256 = h.sender) :
    exec (.mbxLockWrite h n v) s = .next (complete h 0 [] (setMbx s n { getMbx s n with owner := 0 })) := by
  have hw : writeMbxLock n h.sender v s = (stOk, setMbx s n { getMbx s n with owner := 0 }) := by
    unfold writeMbxLock
    rw [mbxRefuse_none hd hs]
    refine (if_neg ?_).trans (if_neg (by rw [hf]; decide))
    rw [ho, hv]
    simp
  refine (if_neg (Nat.not_le.mpr hn)).trans ?_
  rw [hw]
  rfl

theorem exec_mbxSlotWrite (hn : n < 64) (hd : domOn s n = true) (hs : h.sender ≠ 0) (ho : (getMbx s n).owner.toNat = h.sender)
    (hf : (getMbx s n).full = false) {off : Nat} {data : List W64} (hz : slotSize off (8 * data.length) 256 = true) :
    exec (.mbxSlotWrite h n off data) s =
      .next (complete h 0 [] (setMbx s n { getMbx s n with data := wrN (getMbx s n).data off (wordsBytes data) })) := by
  have hw : writeMbxSlot n h.sender off (wordsBytes data) s =
      (stOk, setMbx s n { getMbx s n with data := wrN (getMbx s n).data off (wordsBytes data) }) := by
    unfold writeMbxSlot
    rw [mbxRefuse_none hd hs]
    refine (if_neg ?_).trans (if_neg (by rw [hf]; decide))
    rw [ho]
    simp
  refine (if_neg (Nat.not_le.mpr hn)).trans ((if_neg (by rw [hz]; decide)).trans ?_)
  rw [hw]
  rfl

theorem exec_mbxSend (hn : n < 64) (hd : domOn s n = true) (hs : h.sender ≠ 0) (ho : (getMbx s n).owner.toNat = h.sender)
    (hf : (getMbx s n).full = false) {v : W32} (h1 : 1 ≤ v.toNat % 512) (hl : v.toNat % 512 ≤ 256) :
    exec (.mbxSend h n v) s = .next (complete h 0 [] (setMbx s n { getMbx s n with full := true, len := v.truncate 9 })) := by
  have hlen : BitVec.ofNat 9 (v.toNat % 512) = v.truncate 9 := BitVec.eq_of_toNat_eq (by simp)
  have hw : writeMbxSend n h.sender v s = (stOk, setMbx s n { getMbx s n with full := true, len := v.truncate 9 }) := by
    unfold writeMbxSend
    rw [mbxRefuse_none hd hs, ← hlen]
    refine (if_neg ?_).trans ((if_neg (by rw [hf]; decide)).trans (if_neg ?_))
    · rw [ho]
      simp
    · rw [decide_eq_false (by omega), decide_eq_false (Nat.not_lt.mpr hl)]
      decide
  refine (if_neg (Nat.not_le.mpr hn)).trans ?_
  rw [hw]
  rfl

theorem exec_mbxEmpty (hn : n < 64) (hf : (getMbx s n).full = true) (hu : (getField s n).up = true) : Answers (exec (.mbxEmpty n) s) (fun u =>
    getMbx u n = { getMbx s n with full := false } ∧ u.host.nextEvt = s.host.nextEvt + 1) := by
  refine ⟨_, (if_neg (Nat.not_le.mpr hn)).trans (if_neg (by rw [hf, hu]; decide)), ?_⟩
  dsimp only
  unfold raise
  dsimp only
  split <;> exact ⟨getMbx_setMbx s n _, rfl⟩

end

end

end Sys2Proof.Proofs
end

section
/-! PROOFS. O60: host accesses (12 R411 to R437, 17 R550 to R563, 18 R572, R573). -/

namespace Sys2Proof.Proofs

open Sys2Proof Sys2Proof.Machine

/-! ## REQ frames whose access is made -/

section
variable {fr : LinkFrame} {s : State}

theorem conf_frameTaken (fr : LinkFrame) (s : State) : (frameTaken fr.port (noteFec fr s)).conf = s.conf := by
  have hset : ∀ (t : State) (p : Nat) (x : NPort), (setPort t p x).conf = t.conf := by
    intro t p x
    unfold setPort
    split <;> rfl
  refine (hset _ _ _).trans ?_
  unfold noteFec
  split
  · rfl
  · exact hset ..
  · exact hset ..

theorem ReqFrame.read_taken (hf : ReqFrame fr s) (hc : Carries fr s) (hq : frSeq fr = (getPort (noteFec fr s) fr.port).rxNext)
    (hl : portOutstanding s fr.port < 1024) (ho : frOp fr = 0) (hw : frWords fr = 0) : exec (.hostRead fr) s =
      .next (hostAccess (frReq fr) false (frAddr fr) (8 * (frRwords fr + 1)) [] (frameTaken fr.port (noteFec fr s))) := by
  refine (hf.hostRead_eq (by rw [ho]; decide)).trans ((hc.takes hq _).trans ((if_neg (Nat.not_le.mpr hl)).trans ?_))
  rw [ho, hw]
  rfl

theorem ReqFrame.write_taken (hf : ReqFrame fr s) (hc : Carries fr s) (hq : frSeq fr = (getPort (noteFec fr s) fr.port).rxNext)
    (hl : portOutstanding s fr.port < 1024) (ho : frOp fr = 1) (h1 : 1 ≤ frWords fr) (h64 : frWords fr ≤ 64) : exec (.hostWrite fr) s =
      .next (hostAccess (frReq fr) true (frAddr fr) (8 * frWords fr) fr.payload (frameTaken fr.port (noteFec fr s))) := by
  refine (hf.hostWrite_eq (by rw [ho]; decide)).trans ((hc.takes hq _).trans ((if_neg (Nat.not_le.mpr hl)).trans ?_))
  rw [ho]
  refine congrArg Host.Outcome.next ((if_neg (by decide)).trans (if_neg ?_))
  rw [decide_eq_false (Nat.ne_of_gt h1), decide_eq_false (Nat.not_lt.mpr h64)]
  decide

theorem ReqFrame.notJtag (hf : ReqFrame fr s) (t : State) : jtagBusy t (frReq fr) (frAddr fr) = false :=
  jtagBusy_of_port (Nat.ne_of_lt hf.port) _

theorem ReqFrame.write_dram (hf : ReqFrame fr s) (hc : Carries fr s) (hq : frSeq fr = (getPort (noteFec fr s) fr.port).rxNext)
    (hl : portOutstanding s fr.port < 1024) (ho : frOp fr = 1) (h1 : 1 ≤ frWords fr) (h64 : frWords fr ≤ 64)
    (hr : regionOf (frAddr fr) (8 * frWords fr) = some .dram) (hb : bulkSize (frAddr fr) (8 * frWords fr) = true)
    (hv : overlaps (frAddr fr - 0x40000000000) (8 * frWords fr) (archiveArea s).1 (archiveArea s).2 = false)
    (hw : s.conf.busy = false ∨ overlaps (frAddr fr - 0x40000000000) (8 * frWords fr) (stagingArea s).1 (stagingArea s).2 = false) :
    exec (.hostWrite fr) s = .next (issue (frReq fr) true (8 * frWords fr)
      (dramParts (frameTaken fr.port (noteFec fr s)) (frReq fr) true (frAddr fr - 0x40000000000) (8 * frWords fr) fr.payload)
      (frameTaken fr.port (noteFec fr s))) := by
  refine (hf.write_taken hc hq hl ho h1 h64).trans (congrArg Host.Outcome.next (hostAccess_dram_write (hf.notJtag _) hr hb ?_ ?_))
  · unfold archiveArea at hv ⊢
    rw [conf_frameTaken]
    exact hv
  · unfold stagingArea at hw ⊢
    rw [conf_frameTaken]
    exact hw

end

/-- A DBG packet at its target is served, and answered with the words read or acknowledged. -/
theorem exec_dbg {s : State} {u : Nat} {k : DbgKind} {p : Packet} (h : DbgReady s u k p)
    (hw : ∀ w ∈ dbgWords p, dbgDefined s u k (bitsOf p.arg 3 1) w = true) :
    (bitsOf p.arg 0 0 = 0 → exec (.dbg u) s = .next (reply p p.dest opRdata p.len 0 0 ((dbgWords p).map (dbgWord s u k (bitsOf p.arg 3 1)))
      (dbgRisk u k p (dropReq u opDbg (forEach (dbgWords p) (dbgSeen u k (bitsOf p.arg 3 1)) s))))) ∧
    (bitsOf p.arg 0 0 = 1 → bitsOf p.arg 3 1 ≠ 5 → (k = .mu → bitsOf p.arg 3 1 ≠ 1) → exec (.dbg u) s = .next (reply p p.dest opAck 0 0 0 []
      (dbgRisk u k p (dropReq u opDbg (dbgPuts u k (bitsOf p.arg 3 1) p.payload p.daddr s))))) := by
  have hall := List.all_eq_true.mpr hw
  refine ⟨fun h0 => ?_, fun h1 h5 hm => ?_⟩
  · rw [h.exec_of_done (dbgServe_read hall h0), if_neg (by rw [h0]; decide)]
    simp only [dbgWords, List.length_map, List.length_range, Nat.add_sub_cancel]
  · rw [h.exec_of_done (dbgServe_write hall h1 h5 hm), if_pos h1]

/-- Settles O60: each command is exec's own function, taken along the branch that the conditions name. -/
theorem hostAccessesRun : Obligations.HostAccessesRun := by
  unfold Obligations.HostAccessesRun
  intro s
  refine ⟨?frames, ?busy, ?registers, ?jtag, ?side, ?window, ?packet, ?snapshot, ?queues, ?mailboxes, ?empties⟩
  case frames =>
    intro fr hport hup hgood htype
    have hf : ReqFrame fr s := ⟨hport, hup, hgood, htype⟩
    refine ⟨fun hm ha => ⟨fun ho => (hf.hostRead_eq ho).trans (reqFrame_standby hm ha _), fun ho => (hf.hostWrite_eq ho).trans (reqFrame_standby hm ha _)⟩,
      fun hc => ?_⟩
    have hc : Carries fr s := hc
    refine ⟨?refused, ?beyond, ?reads, ?writes⟩
    case refused =>
      exact fun hq => ⟨fun ho => (hf.hostRead_eq ho).trans (hc.discards hq _), fun ho => (hf.hostWrite_eq ho).trans (hc.discards hq _)⟩
    case beyond =>
      exact fun hq hl => ⟨fun ho => (hf.hostRead_eq ho).trans ((hc.takes hq _).trans (if_pos hl)),
        fun ho => (hf.hostWrite_eq ho).trans ((hc.takes hq _).trans (if_pos hl))⟩
    case reads =>
      intro hq hl ho hw
      have hrun := hf.read_taken hc hq hl ho hw
      exact ⟨fun hr hs hoff => hrun.trans (congrArg Host.Outcome.next (hostAccess_ctl_read (hf.notJtag _) hr hs hoff)),
        fun hr hb hn => hrun.trans (congrArg Host.Outcome.next (hostAccess_dram_read (hf.notJtag _) hr hb hn))⟩
    case writes =>
      intro hq hl ho h1 h64
      exact ⟨fun hr => (hf.write_taken hc hq hl ho h1 h64).trans (congrArg Host.Outcome.next (hostAccess_ctl_write (hf.notJtag _) hr)),
        fun hr hb hv hw => hf.write_dram hc hq hl ho h1 h64 hr hb hv hw⟩
  case busy =>
    exact fun h a n v hj => ⟨congrArg Host.Outcome.next (hostAccess_busy hj), congrArg Host.Outcome.next (hostAccess_busy hj)⟩
  case registers =>
    exact fun h a n v hj hr => ⟨fun hs ho => congrArg Host.Outcome.next (hostAccess_ctl_read hj hr hs ho),
      congrArg Host.Outcome.next (hostAccess_ctl_write hj hr)⟩
  case jtag =>
    intro ha
    refine ⟨fun v hv => exec_jtagDbgAddr_write ha hv, fun v hv hp => ?_, fun v hp => ?_⟩
    · exact fun hr hs ho => exec_jtagDbgAddr_read ha hv hp rfl rfl rfl hr hs ho
    · exact fun hr => exec_jtagDbgData ha v hp rfl rfl rfl hr
  case side =>
    intro ha cmd hcmd
    exact ⟨fun r hr ho => ⟨exec_smbusBlockRead ha hcmd hr ho, exec_requestDatagram ha hcmd hr ho⟩,
      fun hr => ⟨exec_smbusBlockRead_none ha hcmd hr, exec_requestDatagram_none ha hcmd hr⟩⟩
  case window => exact fun h wr off words data hp hs hd hj => exec_debugWindowAccess hp hs hd hj
  case packet =>
    intro u k p hk hn hpres hfree hlen space ws risk hdef
    exact exec_dbg ⟨hk, hn, hpres, hfree, hlen⟩ hdef
  case snapshot =>
    intro q ht
    exact fun hst hup h3 h1 hl hd hb => ⟨_, exec_dbgSnapshot (t := takeCmd q s) ht rfl rfl rfl hst hup h3 h1 hl hd hb⟩
  case queues => exact fun h q v hq => ⟨fun hr => exec_sqTail hq hr, exec_cqHead v hq⟩
  case mailboxes =>
    intro h n hn hd hs _
    refine ⟨exec_mbxLockRead_free hn hd hs, exec_mbxLockRead_held hn hd hs, fun ho hf => ?_⟩
    exact ⟨fun v hv => exec_mbxLockWrite hn hd hs ho hf hv, fun off data hz => exec_mbxSlotWrite hn hd hs ho hf hz,
      fun v h1 hl => exec_mbxSend hn hd hs ho hf h1 hl⟩
  case empties => exact fun n hn hf hu => exec_mbxEmpty hn hf hu

end Sys2Proof.Proofs
end
